-- ==== Sys2Proof/Word.lean ====
section
/-! DEFINITION. The plain words of the model: a byte of a frame or of the profile image, and a station number. -/

namespace Sys2Proof

/-- A byte of a frame (R153) or of the profile image (R181). -/
abbrev Byte := BitVec 8

/-- A station number on the Relay Line, 0 to 15 (00, Vocabulary). -/
abbrev Station := Fin 16

end Sys2Proof
end

