-- ==== Sys2Proof/Syntax.lean ====
section
/-! DEFINITION. The commands of the CV24: one constructor for each row of spec/opcode_table.json.

The table gives its rows no operands. Each constructor carries those that the row's governing rule names, and before
them the moment `t`, in microseconds, at which the event reaches the part (log 1). -/

namespace Sys2Proof

/-- Why a received frame fails the check of R155. -/
inductive CheckReason where
  | framing | length | kind | check
  deriving DecidableEq, Repr

/-- One constructor per row of the table of operations and events. -/
inductive Instr where
  /-- R185: power-on completes; the straps ST0 to ST3 read as `straps` (R180). -/
  | powerOn (t : Nat) (straps : Station)
  /-- R185: NRST goes low. -/
  | pinReset (t : Nat) (straps : Station)
  /-- R182: reading the image ends; `image` is what the profile memory holds, from its first byte. -/
  | profileLoadEnd (t : Nat) (image : List Byte)
  /-- R155: a received frame fails its check; `sender` is the station field of its claim byte. -/
  | lineCheck (t : Nat) (sender : Station) (reason : CheckReason)
  /-- R38: a checked ALLOFF frame. -/
  | alloff (t : Nat) (sender : Station)
  /-- R185: a checked RESTART frame; `straps` is what the reset it may cause reads. -/
  | restart (t : Nat) (sender : Station) (mask : BitVec 16) (straps : Station)
  /-- R24: a checked KEYS frame, its changes as (key, touch code). -/
  | keys (t : Nat) (sender : Station) (division : Fin 8) (changes : List (Fin 64 × BitVec 2))
  /-- R25: a checked SNAP frame, one touch code for each key 0 to 63. -/
  | snap (t : Nat) (sender : Station) (division : Fin 8) (codes : List (BitVec 2))
  /-- R126: a checked SHOE frame, its pairs as (shoe, position). -/
  | shoe (t : Nat) (sender : Station) (pairs : List (Fin 8 × Byte))
  /-- R122: a checked BEAT frame. -/
  | beat (t : Nat) (sender : Station) (tag : Fin 16)
  /-- R116: a checked MARK frame. -/
  | mark (t : Nat) (sender : Station) (mark : Fin 64)
  /-- R29: a checked STOPS frame, its changes as (stop number, ON). -/
  | stops (t : Nat) (sender : Station) (changes : List (Fin 1024 × Bool))
  /-- R145: a checked CHAMBER frame with the command WAKE. -/
  | chamberWake (t : Nat) (sender : Station) (mask : BitVec 16)
  /-- R146: a checked CHAMBER frame with the command REST. -/
  | chamberRest (t : Nat) (sender : Station) (mask : BitVec 16)
  /-- R147: a checked CHAMBER frame with the command DARK. -/
  | chamberDark (t : Nat) (sender : Station) (mask : BitVec 16)
  /-- R56: a checked TUNE frame with its 16-bit output field (R163). -/
  | tune (t : Nat) (sender : Station) (station : Station) (output : BitVec 16)
  /-- R187: a checked CLEAR frame. -/
  | clear (t : Nat) (sender : Station) (mask : BitVec 16)
  /-- R188: a checked ASK frame. -/
  | ask (t : Nat) (sender : Station) (station : Station)
  /-- R166: a checked PRESENCE frame with its role, state and flags bytes and its tag (R163). -/
  | presence (t : Nat) (sender : Station) (role state flags : Byte) (tag : BitVec 16)
  /-- R155: a checked REPORT frame of another station. -/
  | reportReceived (t : Nat) (sender : Station) (payload : List Byte)
  /-- R167: a station's silence timer. -/
  | silenceTimerExpiry (t : Nat) (station : Station)
  /-- R33: the pizzicato window of a key. -/
  | pizzicatoExpiry (t : Nat) (division : Fin 8) (key : Fin 64)
  /-- R49: an edge of a BAR window's reiteration clock. -/
  | reiterationClockEdge (t : Nat) (window : Fin 32)
  /-- R74: the end of an output's pull-in. -/
  | pullInEnd (t : Nat) (output : Fin 1536)
  /-- R74: the end of an output's strike. -/
  | strikeEnd (t : Nat) (output : Fin 1536)
  /-- R172: the end of a chain's shift; `returned` is what the loopback read at each clock (R171: highest position first,
  `true` for high). -/
  | shiftEnd (t : Nat) (chain : Fin 4) (returned : List Bool)
  /-- R173: a chain's refresh timer. -/
  | refreshTimerExpiry (t : Nat) (chain : Fin 4)
  /-- R107: the end of a runner's WAIT. -/
  | waitEnd (t : Nat) (runner : Fin 8)
  /-- R112: the timeout of a runner's AWAIT. -/
  | awaitTimeout (t : Nat) (runner : Fin 8)
  /-- R113: the timeout of an AWAITLINE, which only runner 0's scripts hold. -/
  | awaitlineTimeout (t : Nat)
  /-- R120: a tremulant group's phase 0. -/
  | phase0 (t : Nat) (group : Fin 4)
  /-- R120: a tremulant group's phase W. -/
  | phaseW (t : Nat) (group : Fin 4)
  /-- R123: a follower's follow-loss timer. -/
  | followLossExpiry (t : Nat) (group : Fin 4)
  /-- R127: a shutter set's owner-hold timer. -/
  | ownerHoldExpiry (t : Nat) (set : Fin 2)
  /-- R129: a shutter set's step timer. -/
  | stepTimerExpiry (t : Nat) (set : Fin 2)
  /-- R142: the sync timer. -/
  | syncTimeout (t : Nat)
  /-- R144: the rest timer. -/
  | restTimerExpiry (t : Nat)
  /-- R177: the raw level of a local line's pin becomes `level`. -/
  | lineRawChange (t : Nat) (line : Fin 12) (level : Bool)
  /-- R177: an input line's debounce timer. -/
  | debounceExpiry (t : Nat) (line : Fin 12)
  /-- R164: the 200 ms presence period. -/
  | presencePeriodExpiry (t : Nat)
  /-- R159: the line has been idle for the gap and LI may begin a frame. -/
  | txStart (t : Nat)
  /-- R156: the frame in flight loses the claim. -/
  | claimLost (t : Nat)
  /-- R157: a bit after the claim reads back different. -/
  | txMismatch (t : Nat)
  /-- R161: the frame in flight has been sent whole. -/
  | txComplete (t : Nat)
  /-- R180: the header's bytes 4 and 5 have been read as `tag`. -/
  | profileHeaderRead (t : Nat) (tag : BitVec 16)
  /-- R180: NRST returns high. -/
  | endOfPinReset (t : Nat)
  deriving DecidableEq, Repr

/-- The moment at which a command reaches the part. -/
def Instr.moment : Instr → Nat
  | .powerOn t _ | .pinReset t _ | .profileLoadEnd t _ | .lineCheck t _ _ | .alloff t _ | .restart t _ _ _
  | .keys t _ _ _ | .snap t _ _ _ | .shoe t _ _ | .beat t _ _ | .mark t _ _ | .stops t _ _
  | .chamberWake t _ _ | .chamberRest t _ _ | .chamberDark t _ _ | .tune t _ _ _ | .clear t _ _ | .ask t _ _
  | .presence t _ _ _ _ _ | .reportReceived t _ _ | .silenceTimerExpiry t _ | .pizzicatoExpiry t _ _
  | .reiterationClockEdge t _ | .pullInEnd t _ | .strikeEnd t _ | .shiftEnd t _ _ | .refreshTimerExpiry t _
  | .waitEnd t _ | .awaitTimeout t _ | .awaitlineTimeout t | .phase0 t _ | .phaseW t _ | .followLossExpiry t _
  | .ownerHoldExpiry t _ | .stepTimerExpiry t _ | .syncTimeout t | .restTimerExpiry t | .lineRawChange t _ _
  | .debounceExpiry t _ | .presencePeriodExpiry t | .txStart t | .claimLost t | .txMismatch t | .txComplete t
  | .profileHeaderRead t _ | .endOfPinReset t => t

/-- The station whose checked frame the command is: the frames that PT hears (R155, R166). -/
def Instr.sender : Instr → Option Station
  | .alloff _ a | .restart _ a _ _ | .keys _ a _ _ | .snap _ a _ _ | .shoe _ a _ | .beat _ a _ | .mark _ a _
  | .stops _ a _ | .chamberWake _ a _ | .chamberRest _ a _ | .chamberDark _ a _ | .tune _ a _ _ | .clear _ a _
  | .ask _ a _ | .presence _ a _ _ _ _ | .reportReceived _ a _ => some a
  | .powerOn _ _ | .pinReset _ _ | .profileLoadEnd _ _ | .lineCheck _ _ _ | .silenceTimerExpiry _ _
  | .pizzicatoExpiry _ _ _ | .reiterationClockEdge _ _ | .pullInEnd _ _ | .strikeEnd _ _ | .shiftEnd _ _ _
  | .refreshTimerExpiry _ _ | .waitEnd _ _ | .awaitTimeout _ _ | .awaitlineTimeout _ | .phase0 _ _ | .phaseW _ _
  | .followLossExpiry _ _ | .ownerHoldExpiry _ _ | .stepTimerExpiry _ _ | .syncTimeout _ | .restTimerExpiry _
  | .lineRawChange _ _ _ | .debounceExpiry _ _ | .presencePeriodExpiry _ | .txStart _ | .claimLost _
  | .txMismatch _ | .txComplete _ | .profileHeaderRead _ _ | .endOfPinReset _ => none

end Sys2Proof
end

