-- ==== Sys2Proof/Decode.lean ====
section
/-! DEFINITION. Commands from words. spec/opcode_table.json gives none of its 46 rows any bits, so a word spells no
command. (The bytes of the line's frames, which the spec does lay out, are read in Machine/LineFrames.lean.) -/

namespace Sys2Proof

/-- The command that a word spells by the table's bits: none, since no row has bits. -/
def decodeTableWord (_nbits _w : Nat) : Option Instr := none

end Sys2Proof
end

