-- ==== Sys2Proof/Config.lean ====
section
/-! DEFINITION. What the spec leaves free: the order of two or more things inside one event, where a rule says that
they may be taken in any order and the order shows (log 3). Nothing can be proved about the value. -/

namespace Sys2Proof

/-- The free order. At the model's `n`-th choice among `k` candidates the candidate `freePick n k % k` is taken first.
It has no body: a statement that holds, holds for every order. -/
opaque Config.freePick : Nat → Nat → Nat

end Sys2Proof
end

