-- ==== Sys2Proof/Machine/Profile.lean ====
section
/-! DEFINITION. The accepted profile: the tables and parameters that PF hands to the blocks (R183), already clamped. -/

namespace Sys2Proof.Machine

/-- `n` clamped into `lo` to `hi`. -/
def clamp (lo hi n : Nat) : Nat := max lo (min hi n)

/-- Milliseconds in microseconds, the unit of the model's clock. -/
def ms (n : Nat) : Nat := n * 1000

/-- R1: what drives the outputs of a window. -/
inductive WindowKind where
  | pipe | bar | trap | aux
  deriving DecidableEq, Repr, Inhabited

/-- R1, R3: a rank window. -/
structure Window where
  kind : WindowKind
  first : Nat
  size : Nat
  firstNote : Nat
  weight : Nat
  pullIn : Nat
  strikeWidth : Nat
  reiteration : Nat
  claimGroup : Nat
  deriving DecidableEq, Repr, Inhabited

/-- R4: a division as this chamber sees it. -/
structure Division where
  keyCount : Nat
  baseNote : Nat
  deriving DecidableEq, Repr, Inhabited

/-- R8: when an entry contributes. -/
inductive TouchCondition where
  | first | second | pizz
  deriving DecidableEq, Repr, Inhabited

/-- R5: how a BAR entry strikes. -/
inductive StrikeMode where
  | single | reiterate
  deriving DecidableEq, Repr, Inhabited

/-- R10, R11: what becomes of a note outside the window (the spec's BREAK is `breakBack`). -/
inductive Policy where
  | breakBack | silent
  deriving DecidableEq, Repr, Inhabited

/-- R5: what a stop entry feeds. -/
inductive EntryKind where
  | voice (window : Nat) (offset : Int) (mode : StrikeMode) (top bottom : Policy) (condition : TouchCondition)
  | trem (group : Nat)
  | trap (effect : Nat) (condition : TouchCondition)
  deriving DecidableEq, Repr, Inhabited

/-- R5: a stop entry. -/
structure StopEntry where
  stop : Nat
  division : Nat
  kind : EntryKind
  deriving DecidableEq, Repr, Inhabited

/-- R83: an effect's mode. -/
inductive EffectMode where
  | edge | level
  deriving DecidableEq, Repr, Inhabited

/-- R80: an effect record. -/
structure Effect where
  mode : EffectMode
  priority : Nat
  group : Nat
  onEntry : Nat
  offEntry : Option Nat
  stud : Option Nat
  cueLine : Option Nat
  deriving DecidableEq, Repr, Inhabited

/-- R117: how a tremulant group is timed. -/
inductive TremMode where
  | free | lead | follow
  deriving DecidableEq, Repr, Inhabited

/-- R117: a tremulant group. -/
structure TremGroup where
  output : Nat
  period : Nat
  width : Nat
  mode : TremMode
  tag : Fin 16
  leader : Station
  deriving DecidableEq, Repr, Inhabited

/-- R125: a shutter set. -/
structure ShutterSet where
  shoe : Nat
  first : Nat
  stages : Nat
  hysteresis : Nat
  interval : Nat
  ownerHold : Nat
  deriving DecidableEq, Repr, Inhabited

/-- R176: a local line's function. -/
inductive LineFunction where
  | none | pressure | power | cue | alloff | blower | supply | readyLamp | general
  deriving DecidableEq, Repr, Inhabited

/-- R176: the input functions. -/
def LineFunction.isInput : LineFunction → Bool
  | .pressure | .power | .cue | .alloff => true
  | .none | .blower | .supply | .readyLamp | .general => false

/-- R176: the output functions. -/
def LineFunction.isOutput : LineFunction → Bool
  | .blower | .supply | .readyLamp | .general => true
  | .none | .pressure | .power | .cue | .alloff => false

/-- R176: a local line's record. -/
structure LineRecord where
  function : LineFunction
  debounceCode : Nat
  effect : Nat
  deriving DecidableEq, Repr, Inhabited

/-- R176: the debounce time of a code, in ms. -/
def debounceTime : Nat → Nat
  | 0 => 0 | 1 => 2 | 2 => 5 | 3 => 10 | 4 => 20 | 5 => 50 | 6 => 100 | _ => 200

/-- R110: a loop register. -/
inductive Register where
  | a | b
  deriving DecidableEq, Repr, Inhabited

/-- R107 to R115: a script step. -/
inductive ScriptStep where
  | wait (duration : Nat)
  | strike (output width : Nat)
  | hold (output : Nat)
  | lift (output : Nat)
  | loop (target count : Nat) (register : Register)
  | mark (mark : Fin 64)
  | await (mark : Fin 64) (timeout : Nat)
  | awaitLine (line : Nat) (level : Bool) (timeout : Nat)
  | setLine (line : Nat) (level : Bool)
  | rearm
  | done
  deriving DecidableEq, Repr, Inhabited

/-- R134: the causes that may wake the chamber. -/
structure WakeMask where
  start : Bool
  line : Bool
  localPower : Bool
  play : Bool
  deriving DecidableEq, Repr, Inhabited

/-- R181 section 1: the station parameters. The refresh interval 0 is refresh off (R170), the rest delay 0 never (R134). -/
structure StationParams where
  pizzicatoWindow : Nat
  budget : Nat
  actionRunLimit : Nat
  chainLengths : List Nat
  refreshInterval : Nat
  wakeMask : WakeMask
  syncSet : BitVec 16
  syncTimeout : Nat
  restDelay : Nat
  deriving DecidableEq, Repr, Inhabited

/-- The accepted profile. -/
structure Profile where
  params : StationParams
  divisions : List Division
  windows : List Window
  entries : List StopEntry
  effects : List Effect
  groups : List TremGroup
  sets : List ShutterSet
  lines : List LineRecord
  wakeEntry : Option Nat
  restEntry : Option Nat
  darkEntry : Option Nat
  steps : List ScriptStep
  deriving DecidableEq, Repr, Inhabited

/-- R2: output `o` lies in the window. -/
def Window.contains (w : Window) (o : Nat) : Bool := decide (w.first ≤ o ∧ o < w.first + w.size)

/-- R2: the window of output `o`. -/
def Profile.windowOf (p : Profile) (o : Nat) : Option Window := p.windows.find? (·.contains o)

/-- R2: the chain of an output. -/
def chainOf (o : Nat) : Nat := o / 384

/-- R4: the key count of a division. -/
def Profile.keyCount (p : Profile) (d : Nat) : Nat := ((p.divisions[d]?).map (·.keyCount)).getD 0

/-- R4: the base note of a division. -/
def Profile.baseNote (p : Profile) (d : Nat) : Nat := ((p.divisions[d]?).map (·.baseNote)).getD 0

/-- R176: the function of a local line. -/
def Profile.lineFunction (p : Profile) (l : Nat) : LineFunction := ((p.lines[l]?).map (·.function)).getD .none

/-- R7: the stop number appears in the stop table. -/
def Profile.hasStop (p : Profile) (n : Nat) : Bool := p.entries.any (fun e => e.stop == n)

/-- R170: the configured length of a chain. -/
def Profile.chainLength (p : Profile) (c : Nat) : Nat := (p.params.chainLengths[c]?).getD 0

/-- A window put into a list ordered by first output. -/
def insertByFirst (w : Window) : List Window → List Window
  | [] => [w]
  | v :: rest => if w.first ≤ v.first then w :: v :: rest else v :: insertByFirst w rest

/-- The windows by rising first output. -/
def windowsByOutput (ws : List Window) : List Window := ws.foldr insertByFirst []

/-- The outputs of one window, ascending. -/
def Window.outputs (w : Window) : List Nat := (List.range w.size).map (w.first + ·)

/-- The outputs, ascending, of the windows that `keep` keeps (R2: windows share no output). -/
def Profile.outputsOf (p : Profile) (keep : Window → Bool) : List Nat :=
  ((windowsByOutput (p.windows.filter keep)).map Window.outputs).flatten

end Sys2Proof.Machine
end

