-- ==== Sys2Proof/Machine/Table.lean ====
section
/-! DEFINITION. A table over natural numbers, held sparsely: the entries that differ from the default, by rising key.
Every table of the state that the spec sets to one value at reset (touches, counts, output states, ...) is one, with
that value as its default, so equal contents are equal data. -/

namespace Sys2Proof.Machine

/-- A sparse table: (key, value) pairs. An unlisted key holds the default. -/
structure Table (α : Type) where
  entries : List (Nat × α)
  deriving DecidableEq, Repr, Inhabited

/-- The table that holds the default everywhere. -/
def Table.empty {α : Type} : Table α := ⟨[]⟩

/-- The value an entry list gives a key. -/
def lookupIn {α : Type} [Inhabited α] : List (Nat × α) → Nat → α
  | [], _ => default
  | (k', v) :: rest, k => if k' = k then v else lookupIn rest k

/-- The value of key `k`. -/
def Table.get {α : Type} [Inhabited α] (m : Table α) (k : Nat) : α := lookupIn m.entries k

/-- An entry put before the first greater key. -/
def putIn {α : Type} (k : Nat) (v : α) : List (Nat × α) → List (Nat × α)
  | [] => [(k, v)]
  | (k', v') :: rest => if k < k' then (k, v) :: (k', v') :: rest else (k', v') :: putIn k v rest

/-- The entries without those of key `k`. -/
def eraseIn {α : Type} (k : Nat) (l : List (Nat × α)) : List (Nat × α) := l.filter (fun e => e.1 != k)

/-- The table with key `k` set to `v`; the default is not listed. -/
def Table.set {α : Type} [Inhabited α] [DecidableEq α] (m : Table α) (k : Nat) (v : α) : Table α :=
  if v = default then ⟨eraseIn k m.entries⟩ else ⟨putIn k v (eraseIn k m.entries)⟩

/-- The table with key `k` changed by `f`. -/
def Table.modify {α : Type} [Inhabited α] [DecidableEq α] (m : Table α) (k : Nat) (f : α → α) : Table α :=
  m.set k (f (m.get k))

/-- The canonical form: keys rise strictly, and no entry holds the default. -/
abbrev Table.wf {α : Type} [Inhabited α] (m : Table α) : Prop :=
  m.entries.Pairwise (fun a b => a.1 < b.1) ∧ ∀ e ∈ m.entries, e.2 ≠ default

end Sys2Proof.Machine
end

