-- ==== Sys2Proof/Machine/State.lean ====
section
/-! DEFINITION. The state of the CV24, block by block (00, The blocks), as plain data, and the state after a power-on
reset. Every record is built so that its `default` is the reset value its rule gives. A timer is the moment, in
microseconds on the model's clock, at which it runs out, or none while it is stopped (log 1). -/

namespace Sys2Proof.Machine

/-- What can stop a step. Nothing does: every event of the table has the effect its rules give, and the spec's faults
are records of PF (R186), not stops. No one raises it. -/
inductive Fault where
  deriving DecidableEq, Repr

/-- Why a command is refused. -/
inductive Refusal where
  /-- Raised by an arm of `exec` whose command has no meaning yet (safe: the run stops). No arm raises it now. -/
  | notModelled (mnemonic : String)
  deriving DecidableEq, Repr

/-! ### KM -/

/-- R20: a touch. -/
inductive Touch where
  | up | first | second
  deriving DecidableEq, Repr, Inhabited

/-- R20: a console slot, with the touch of each (division, key) under `cell`. -/
structure Slot where
  station : Option Station
  touch : Table Touch
  deriving DecidableEq, Repr, Inhabited

/-- R30: an entry of the pizzicato list. -/
structure PizzEntry where
  division : Nat
  key : Nat
  expiry : Nat
  deriving DecidableEq, Repr, Inhabited

/-- R20: Keyboard Merge. `slots` holds slots 0 to 3, `stopOn` the stop state by stop number, `refused` the
refused-station set. -/
structure Km where
  slots : Table Slot
  merged : Table Touch
  stopOn : Table Bool
  pizzicato : List PizzEntry
  refused : Table Bool
  deriving DecidableEq, Repr, Inhabited

/-! ### DT -/

/-- R54: the tuning hold. -/
structure Hold where
  output : Nat
  setter : Station
  deriving DecidableEq, Repr, Inhabited

/-- R40: the Demand Table. Counts by output, sets and clocks by BAR window. -/
structure Dt where
  pipe : Table Nat
  single : Table Nat
  reiterate : Table Nat
  tuning : Option Hold
  sets : Table (List Nat)
  clocks : Table (Option Nat)
  deriving DecidableEq, Repr, Inhabited

/-! ### PA -/

/-- R63: the state of an output; `ends` is when its pull-in or strike ends, `stay` the stay-energized mark. -/
inductive OutState where
  | off
  | waiting
  | pulling (ends : Nat)
  | holding
  | striking (ends : Nat) (stay : Bool)
  deriving DecidableEq, Repr, Inhabited

/-- R64: what an action queue entry waits for. -/
inductive ActionKind where
  | strike (width : Nat)
  | hold
  deriving DecidableEq, Repr, Inhabited

/-- R64: an action queue entry. -/
structure ActionEntry where
  output : Nat
  kind : ActionKind
  deriving DecidableEq, Repr, Inhabited

/-- R62: the Pull-in Arbiter. Both queues stand oldest first. -/
structure Pa where
  outs : Table OutState
  speech : List Nat
  action : List ActionEntry
  units : Nat
  runCount : Nat
  deriving DecidableEq, Repr, Inhabited

/-! ### CC -/

/-- R170: a chain's status. -/
inductive ChainStatus where
  | good | suspect | failed
  deriving DecidableEq, Repr, Inhabited

/-- R172: a shift in progress, with the positions it sends on and the moment it ends. -/
structure Shift where
  pattern : List Nat
  ends : Nat
  deriving DecidableEq, Repr, Inhabited

/-- R170: a chain. A pattern is the list of its positions that are on, ascending. `released` is set once the blanking
output has been released. -/
structure Chain where
  latched : List Nat
  status : ChainStatus
  mismatches : Nat
  refresh : Option Nat
  shift : Option Shift
  changeWaiting : Bool
  released : Bool
  deriving DecidableEq, Repr, Inhabited

/-! ### CH's states, which PT and LI also carry -/

/-- R135: the chamber states. -/
inductive ChamberState where
  | loading | profileFault | dark | winding | gathering | ready | settling | resting | darkening
  deriving DecidableEq, Repr, Inhabited

/-- R134: where the wake now in progress began. -/
inductive Origin where
  | dark | other
  deriving DecidableEq, Repr, Inhabited

/-- R134: Chamber Control. -/
structure Ch where
  state : ChamberState
  origin : Origin
  sync : Option Nat
  rest : Option Nat
  deriving DecidableEq, Repr, Inhabited

/-! ### PF -/

/-- R185: the restart cause. -/
inductive Cause where
  | powerOn | pin | line
  deriving DecidableEq, Repr, Inhabited

/-- R186: the fault kinds. -/
inductive FaultKind where
  | lineCheck | dupStation | txOverrun | consoleExcess | consoleLost | strikeOverrun | stackFull | scriptRunaway
  | syncShort | windTimeout | pressureLost | chainFault | followLost | profileRefusal
  deriving DecidableEq, Repr, Inhabited

/-- R186: what the first-fault record holds. -/
structure FaultEntry where
  kind : FaultKind
  source : Nat
  detail : Nat
  deriving DecidableEq, Repr, Inhabited

/-- R180, R185, R186: Profile Loader and Fault Record. `seen` is the seen-kinds set, bit k - 1 for code k (R162).
`held` is set while NRST is low (log 5), and `resetAt` is the moment of the last reset, which a pin reset of that same
moment does not repeat (R185). -/
structure Pf where
  station : Station
  tag : BitVec 16
  cause : Cause
  record : Option FaultEntry
  later : Bool
  seen : BitVec 16
  held : Bool
  resetAt : Option Nat
  deriving DecidableEq, Repr, Inhabited

/-! ### LI -/

/-- R162, R188: what a REPORT carries. -/
structure Report where
  state : ChamberState
  cause : Cause
  later : Bool
  chains : List ChainStatus
  tag : BitVec 16
  record : Option FaultEntry
  seen : BitVec 16
  sounding : Nat
  speechDepth : Nat
  actionDepth : Nat
  units : Nat
  holders : List Bool
  deriving DecidableEq, Repr, Inhabited

/-- R164: the frames that the part sends. A MARK keeps the runner that handed it over (R160). -/
inductive Frame where
  | presence (state : ChamberState) (faultPresent : Bool) (tag : BitVec 16)
  | report (content : Report)
  | beat (tag : Fin 16)
  | mark (mark : Fin 64) (runner : Nat)
  deriving DecidableEq, Repr, Inhabited

/-- R159: a waiting frame with its age, the moment it joined. -/
structure Queued where
  frame : Frame
  age : Nat
  deriving DecidableEq, Repr, Inhabited

/-- R157 to R164: the Line Interface. -/
structure Li where
  queue : List Queued
  inFlight : Option Queued
  mute : Bool
  duplicates : Nat
  presencePeriod : Option Nat
  deriving DecidableEq, Repr, Inhabited

/-! ### PT -/

/-- R166: the state of a peer entry. -/
inductive PeerState where
  | unheard | heard | lost
  deriving DecidableEq, Repr, Inhabited

/-- R37, R59: a frame was taken at `moment` while the silence timer had run out, so that the loss which PT declares at
that moment may still reach KM after the frame; `presence` says that the frames of that moment announced a state (R168). -/
structure Crossing where
  moment : Nat
  presence : Bool
  deriving DecidableEq, Repr, Inhabited

/-- R166: a peer table entry. `crossed` is the last moment at which a frame met the silence timer's end (log 21). -/
structure Peer where
  state : PeerState
  announced : Option ChamberState
  silence : Option Nat
  crossed : Option Crossing
  deriving DecidableEq, Repr, Inhabited

/-! ### The runners and EE -/

/-- R104: the script a context runs. -/
inductive Script where
  | effectOn (effect : Nat)
  | effectOff (effect : Nat)
  | wake
  | rest
  | dark
  deriving DecidableEq, Repr, Inhabited

/-- R94, R104: a context's timer runs to a moment, or, in a saved context, stands with the time left. -/
inductive Timer where
  | due (moment : Nat)
  | left (time : Nat)
  deriving DecidableEq, Repr, Inhabited

/-- R104: what a context is waiting for; `running` is a context whose pass is due. -/
inductive Waiting where
  | running
  | wait (timer : Timer)
  | await (mark : Fin 64) (timer : Timer)
  | awaitLine (line : Nat) (level : Bool) (timer : Timer)
  deriving DecidableEq, Repr, Inhabited

/-- R104: a context. A loop register is none while idle. -/
structure Context where
  script : Script
  index : Nat
  waiting : Waiting
  registerA : Option Nat
  registerB : Option Nat
  held : List Nat
  rearmed : Bool
  tally : Nat
  deriving DecidableEq, Repr, Inhabited

/-- R82: the three parts of an effect's trigger count. -/
structure Trigger where
  trap : Nat
  stud : Bool
  cue : Bool
  deriving DecidableEq, Repr, Inhabited

/-- R81, R87: a claim group; the stack stands top first. -/
structure Group where
  holder : Option Nat
  stack : List Context
  pending : Option Nat
  deriving DecidableEq, Repr, Inhabited

/-- R81, R104: the Effect Engine and the eight runners. -/
structure Ee where
  triggers : Table Trigger
  groups : Table Group
  runners : Table (Option Context)
  deriving DecidableEq, Repr, Inhabited

/-! ### TSU -/

/-- R117: a tremulant group. `locked` is the follow status LOCKED. -/
structure Trem where
  onCount : Nat
  running : Bool
  phase0 : Option Nat
  phaseW : Option Nat
  locked : Bool
  loss : Option Nat
  deriving DecidableEq, Repr, Inhabited

/-- R125: a shutter set; `owner` is a console slot. -/
structure Shutter where
  stage : Nat
  target : Nat
  pref : Nat
  owner : Option Nat
  ownerHold : Option Nat
  stepTimer : Option Nat
  deriving DecidableEq, Repr, Inhabited

/-- The Tremulant and Shutter Unit. -/
structure Tsu where
  trems : Table Trem
  shutters : Table Shutter
  deriving DecidableEq, Repr, Inhabited

/-! ### LL -/

/-- R176, R177: a local line. -/
structure Line where
  raw : Bool
  debounced : Bool
  debounce : Option Nat
  driven : Bool
  deriving DecidableEq, Repr, Inhabited

/-! ### The whole machine -/

/-- The state: the clock, the accepted profile, the blocks, the number of free orders taken, and the commands that
wait, first in, first out. -/
structure State where
  now : Nat
  profile : Option Profile
  km : Km
  dt : Dt
  pa : Pa
  cc : Table Chain
  li : Li
  pt : Table Peer
  ee : Ee
  tsu : Tsu
  ch : Ch
  ll : Table Line
  pf : Pf
  choices : Nat
  pending : List Instr
  deriving DecidableEq, Repr, Inhabited

/-- The machine right after a power-on reset (R185) at moment 0 with the straps at 0 (log 4): every block at the values
its chapter gives, and the LOADING PRESENCE of R164 handed over and its 200 ms period begun (log 6). -/
def State.reset : State where
  now := 0
  profile := none
  km := { slots := .empty, merged := .empty, stopOn := .empty, pizzicato := [], refused := .empty }
  dt := { pipe := .empty, single := .empty, reiterate := .empty, tuning := none, sets := .empty, clocks := .empty }
  pa := { outs := .empty, speech := [], action := [], units := 0, runCount := 0 }
  cc := .empty
  li :=
    { queue := [{ frame := .presence .loading false 0, age := 0 }], inFlight := none, mute := false, duplicates := 0,
      presencePeriod := some (ms 200) }
  pt := .empty
  ee := { triggers := .empty, groups := .empty, runners := .empty }
  tsu := { trems := .empty, shutters := .empty }
  ch := { state := .loading, origin := .dark, sync := none, rest := none }
  ll := .empty
  pf :=
    { station := 0, tag := 0, cause := .powerOn, record := none, later := false, seen := 0, held := false,
      resetAt := some 0 }
  choices := 0
  pending := []

end Sys2Proof.Machine
end

