-- ==== Sys2Proof/Machine/Ops.lean ====
section
/-! DEFINITION. The named operations over the state that every block uses: reading the profile and the chamber state,
changing one record of a table, the clock, PF's taking of a fault (R186) and LI's taking of a frame (R160). -/

namespace Sys2Proof.Machine

/-- The profile's tables; there are none until a profile is accepted (R183). -/
def State.prof (s : State) : Profile := s.profile.getD default

/-- R135: the chamber is READY. -/
def State.isReady (s : State) : Bool := s.ch.state == .ready

/-- The moment an event reaches the part: the clock never runs back (log 1). -/
def State.arrive (t : Nat) (s : State) : State := { s with now := max s.now t }

/-- The moment a timer set at `s` for `d` microseconds runs out. -/
def State.after (s : State) (d : Nat) : Option Nat := some (s.now + d)

/-- A timer has run out: it is running and its moment has come. -/
def State.expired (s : State) : Option Nat → Bool
  | some due => decide (due ≤ s.now)
  | none => false

/-! ### One record of a table -/

/-- The state of output `o`. -/
def State.out (s : State) (o : Nat) : OutState := s.pa.outs.get o

/-- Output `o` takes a state. -/
def State.setOut (o : Nat) (v : OutState) (s : State) : State := { s with pa := { s.pa with outs := s.pa.outs.set o v } }

/-- Chain `c`. -/
def State.chain (s : State) (c : Nat) : Chain := s.cc.get c

/-- Chain `c` becomes `v`. -/
def State.setChain (c : Nat) (v : Chain) (s : State) : State := { s with cc := s.cc.set c v }

/-- The peer table entry of station `a`. -/
def State.peer (s : State) (a : Station) : Peer := s.pt.get a.val

/-- The peer table entry of station `a` becomes `v`. -/
def State.setPeer (a : Station) (v : Peer) (s : State) : State := { s with pt := s.pt.set a.val v }

/-- Local line `l`. -/
def State.line (s : State) (l : Nat) : Line := s.ll.get l

/-- Local line `l` becomes `v`. -/
def State.setLine (l : Nat) (v : Line) (s : State) : State := { s with ll := s.ll.set l v }

/-- Tremulant group `g`. -/
def State.trem (s : State) (g : Nat) : Trem := s.tsu.trems.get g

/-- Tremulant group `g` becomes `v`. -/
def State.setTrem (g : Nat) (v : Trem) (s : State) : State :=
  { s with tsu := { s.tsu with trems := s.tsu.trems.set g v } }

/-- Shutter set `x`. -/
def State.shutter (s : State) (x : Nat) : Shutter := s.tsu.shutters.get x

/-- Shutter set `x` becomes `v`. -/
def State.setShutter (x : Nat) (v : Shutter) (s : State) : State :=
  { s with tsu := { s.tsu with shutters := s.tsu.shutters.set x v } }

/-- The trigger count parts of effect `e`. -/
def State.trigger (s : State) (e : Nat) : Trigger := s.ee.triggers.get e

/-- The trigger count parts of effect `e` become `v`. -/
def State.setTrigger (e : Nat) (v : Trigger) (s : State) : State :=
  { s with ee := { s.ee with triggers := s.ee.triggers.set e v } }

/-- Claim group `g`. -/
def State.group (s : State) (g : Nat) : Group := s.ee.groups.get g

/-- Claim group `g` becomes `v`. -/
def State.setGroup (g : Nat) (v : Group) (s : State) : State :=
  { s with ee := { s.ee with groups := s.ee.groups.set g v } }

/-- The context of runner `r`. -/
def State.runner (s : State) (r : Nat) : Option Context := s.ee.runners.get r

/-- Runner `r` takes a context, or becomes idle. -/
def State.setRunner (r : Nat) (v : Option Context) (s : State) : State :=
  { s with ee := { s.ee with runners := s.ee.runners.set r v } }

/-! ### Free orders (log 3) -/

/-- Two things that may be taken in either order. -/
def eitherOrder (f g : State → State) (s : State) : State :=
  let s' := { s with choices := s.choices + 1 }
  if Config.freePick s.choices 2 % 2 = 0 then g (f s') else f (g s')

/-- `f` taken for every member of a list, in any order; a list of one leaves nothing to choose. -/
def inAnyOrder (f : Nat → State → State) : Nat → List Nat → State → State
  | _, [], s => s
  | _, [r], s => f r s
  | 0, _ :: _ :: _, s => s
  | n + 1, l@(first :: _ :: _), s =>
    let i := Config.freePick s.choices l.length % l.length
    inAnyOrder f n (l.eraseIdx i) (f (l.getD i first) { s with choices := s.choices + 1 })

/-! ### PF: the fault record -/

/-- R186: the code of a fault kind. -/
def FaultKind.code : FaultKind → Nat
  | .lineCheck => 1 | .dupStation => 2 | .txOverrun => 3 | .consoleExcess => 4 | .consoleLost => 5
  | .strikeOverrun => 6 | .stackFull => 7 | .scriptRunaway => 8 | .syncShort => 9 | .windTimeout => 10
  | .pressureLost => 11 | .chainFault => 12 | .followLost => 13 | .profileRefusal => 14

/-- R162: the bit of a kind in the seen-kinds set; the refusal entry has none (R184). -/
def FaultKind.seenBit (k : FaultKind) : BitVec 16 :=
  if k = .profileRefusal then 0 else 1#16 <<< (k.code - 1)

/-- R186: PF takes one report. -/
def reportFault (k : FaultKind) (source detail : Nat) (s : State) : State :=
  { s with pf :=
    { s.pf with
      record := some (s.pf.record.getD { kind := k, source := source, detail := detail }),
      later := s.pf.later || s.pf.record.isSome,
      seen := s.pf.seen ||| k.seenBit } }

/-- R164: the fault-present flag. -/
def State.faultPresent (s : State) : Bool := s.pf.record.isSome

/-! ### LI: the transmit queue -/

/-- R154: the class of a frame that the part sends. -/
def Frame.classNo : Frame → Nat
  | .beat _ | .mark _ _ => 1
  | .presence _ _ _ | .report _ => 3

/-- R159, R160: the frames of which at most one waits: a PRESENCE, a REPORT, a BEAT of one tag. -/
def Frame.sameSlot : Frame → Frame → Bool
  | .presence _ _ _, .presence _ _ _ => true
  | .report _, .report _ => true
  | .beat a, .beat b => a == b
  | _, _ => false

/-- A frame takes the place of the waiting frame of its slot, and its age. -/
def replaceIn (f : Frame) (l : List Queued) : List Queued :=
  l.map (fun q => if f.sameSlot q.frame then { q with frame := f } else q)

/-- R158, R160: a frame is handed to LI. A newer PRESENCE, REPORT or BEAT that finds eight other frames waiting is dropped
even at the moment at which the one of its slot in flight loses the claim, and the older one then goes back and waits:
R160 drops the newer, R169 has it end waiting in either order; the model follows R160 (log 25, the model's reading). -/
def handOver (f : Frame) (s : State) : State :=
  if s.li.mute then s
  else if s.li.queue.any (fun q => f.sameSlot q.frame) then
    { s with li := { s.li with queue := replaceIn f s.li.queue } }
  else if s.li.queue.length < 8 then
    { s with li := { s.li with queue := s.li.queue ++ [{ frame := f, age := s.now }] } }
  else
    match f with
    | .mark m r => reportFault .txOverrun r m.val s
    | .presence _ _ _ | .report _ | .beat _ => s

/-- R164: a PRESENCE carrying what the part holds is handed to LI. -/
def handPresence (s : State) : State := handOver (.presence s.ch.state s.faultPresent s.pf.tag) s

end Sys2Proof.Machine
end

