-- ==== Sys2Proof/Machine/Chains.lean ====
section
/-! DEFINITION. CC: shifts, the notices of PA and the loopback check (10, R170 to R175). -/

namespace Sys2Proof.Machine

/-- R63: the energized states. -/
def OutState.energized : OutState → Bool
  | .off | .waiting => false
  | .pulling _ | .holding | .striking _ _ => true

/-- R171: the positions of chain `c` that PA holds energized, ascending. -/
def State.truePattern (s : State) (c : Nat) : List Nat :=
  (List.range (s.prof.chainLength c)).filter (fun j => (s.out (c * 384 + j)).energized)

/-- R175: the pattern of a shift of chain `c`; a FAILED chain is driven all off. -/
def State.shiftPattern (s : State) (c : Nat) : List Nat :=
  if (s.chain c).status = .failed then [] else s.truePattern c

/-- R171: the bits of a pattern as they go down a chain of length `n`, `true` for high: position n - 1 first and
position 0 last, and a position that is on is sent high. -/
def serialBits (n : Nat) (pattern : List Nat) : List Bool := (List.range n).reverse.map fun j => pattern.contains j

/-- R171: the positions, ascending, whose bit the loopback of a chain of length `n` returned high: the bits come back
highest position first, and a high level reads as on. A bit that is not given reads low (log 18). -/
def returnedPositions (n : Nat) (bits : List Bool) : List Nat :=
  (List.range n).filter fun j => bits.getD (n - 1 - j) false

/-- R171: the bits that the shift in progress on chain `c` sends. -/
def State.bitsShifting (s : State) (c : Nat) : Option (List Bool) :=
  (s.chain c).shift.map fun x => serialBits (s.prof.chainLength c) x.pattern

/-- R172: how long a shift of a chain of length `n` takes, in microseconds; lengths are multiples of 8 (R170). -/
def shiftTime (n : Nat) : Nat := n / 2 + 1

/-- R172: a shift of chain `c` starts. A chain of length 0 is never shifted (R170). -/
def startShift (c : Nat) (s : State) : State :=
  if s.prof.chainLength c = 0 then s
  else
    s.setChain c { s.chain c with
      shift := some { pattern := s.shiftPattern c, ends := s.now + shiftTime (s.prof.chainLength c) },
      changeWaiting := false,
      refresh := none }

/-- R172, R173: a notice or a refresh: a shift starts at once, or a change waits for the one in progress. -/
def shiftWanted (c : Nat) (s : State) : State :=
  if (s.chain c).shift.isSome then s.setChain c { s.chain c with changeWaiting := true }
  else startShift c s

/-- R78, R172: PA tells CC that output `o` has entered or left the energized set. -/
def energizedNotice (o : Nat) (s : State) : State := shiftWanted (chainOf o) s

/-- R174: the lowest position below `n` at which the returned pattern differs from the latched one. -/
def firstDifference (n : Nat) (returned latched : List Nat) : Option Nat :=
  (List.range n).find? (fun j => returned.contains j != latched.contains j)

/-- R174: the loopback is judged on chain `c`: its status, its mismatch count and CHAIN_FAULT. -/
def judgeLoopback (c : Nat) (returned : List Nat) (s : State) : State :=
  match firstDifference (s.prof.chainLength c) returned (s.chain c).latched with
  | none => s.setChain c { s.chain c with status := .good, mismatches := 0 }
  | some j =>
    let n := min 3 ((s.chain c).mismatches + 1)
    reportFault .chainFault c j
      (s.setChain c { s.chain c with status := if n = 3 then .failed else .suspect, mismatches := n })

/-- R172, R174, R175: the end of a shift of chain `c`. The first shift since reset is not judged and releases the
blanking (R170). -/
def endShift (c : Nat) (returned : List Nat) (s : State) : State :=
  match (s.chain c).shift with
  | none => s
  | some sh =>
    let before := s.chain c
    let s := if before.released then judgeLoopback c returned s else s
    let recovered := before.status = .failed ∧ (s.chain c).status = .good
    let s := s.setChain c { s.chain c with
      latched := sh.pattern,
      shift := none,
      released := true,
      refresh := if s.prof.params.refreshInterval = 0 then none else s.after (ms s.prof.params.refreshInterval) }
    if before.changeWaiting ∨ recovered then startShift c s else s

end Sys2Proof.Machine
end

