-- ==== Sys2Proof/Machine/Arbiter.lean ====
section
/-! DEFINITION. PA: the four requests, the budget, the grant, the ends of pull-in and strike, and the exit from READY
(04, R62 to R79). -/

namespace Sys2Proof.Machine

/-- R3: the magnet weight of output `o`. -/
def State.weight (s : State) (o : Nat) : Nat := ((s.prof.windowOf o).map (·.weight)).getD 0

/-- R3: the pull-in time of output `o`, in microseconds. -/
def State.pullInTime (s : State) (o : Nat) : Nat := ms (((s.prof.windowOf o).map (·.pullIn)).getD 0)

/-- R70: the free units. -/
def State.freeUnits (s : State) : Nat := s.prof.params.budget - s.pa.units

/-- What PA may grant next (R71). -/
inductive Candidate where
  | speech (output : Nat)
  | action (entry : ActionEntry)
  deriving DecidableEq, Repr

/-- The output a candidate names. -/
def Candidate.output : Candidate → Nat
  | .speech o => o
  | .action e => e.output

/-- R71: the candidate: the head of the action queue while the speech queue is empty or the run count is below the
limit, and otherwise the head of the speech queue. -/
def State.candidate (s : State) : Option Candidate :=
  match s.pa.action, s.pa.speech with
  | [], [] => none
  | [], o :: _ => some (.speech o)
  | e :: _, [] => some (.action e)
  | e :: _, o :: _ => if s.pa.runCount < s.prof.params.actionRunLimit then some (.action e) else some (.speech o)

/-- R72, R73: the queues, the output, the units and the run count after a grant. -/
def grantPa (s : State) : Candidate → Pa
  | .speech o =>
    { s.pa with
      outs := s.pa.outs.set o (.pulling (s.now + s.pullInTime o)),
      speech := s.pa.speech.tail,
      units := s.pa.units + s.weight o,
      runCount := 0 }
  | .action e =>
    { s.pa with
      outs := s.pa.outs.set e.output
        (match e.kind with
          | .hold => .pulling (s.now + s.pullInTime e.output)
          | .strike width => .striking (s.now + ms width) false),
      action := s.pa.action.tail,
      units := s.pa.units + s.weight e.output,
      runCount := if s.pa.speech.isEmpty then 0 else s.pa.runCount + 1 }

/-- R72: a grant, with PA's notice to CC (R78). -/
def grant (c : Candidate) (s : State) : State := energizedNotice c.output { s with pa := grantPa s c }

/-- R71: PA chooses, and grants while the candidate fits; `n` bounds the number of grants. -/
def chooseUpTo : Nat → State → State
  | 0, s => s
  | n + 1, s =>
    match s.candidate with
    | none => s
    | some c => if s.weight c.output ≤ s.freeUnits then chooseUpTo n (grant c s) else s

/-- R71: PA chooses at the end of an event. Every grant takes an entry off a queue. -/
def chooseGrants (s : State) : State := chooseUpTo (s.pa.speech.length + s.pa.action.length) s

/-- R65, R71: an event at PA: ignored outside READY, and in READY followed by the choice. -/
def paEvent (f : State → State) (s : State) : State := if s.isReady then chooseGrants (f s) else s

/-- R66: OPEN. -/
def paOpen (o : Nat) : State → State :=
  paEvent fun s =>
    if s.out o = .off then
      { s with pa := { s.pa with outs := s.pa.outs.set o .waiting, speech := s.pa.speech ++ [o] } }
    else s

/-- R67, R68: an OFF output joins the tail of the action queue, or the request is dropped at 128 entries and
STRIKE_OVERRUN recorded with detail 0 for STRIKE and 1 for HOLD (R186). -/
def joinAction (o : Nat) (k : ActionKind) (s : State) : State :=
  if s.pa.action.length < 128 then
    { s with pa :=
      { s.pa with
        outs := s.pa.outs.set o .waiting, action := s.pa.action ++ [{ output := o, kind := k }] } }
  else reportFault .strikeOverrun o (if k = .hold then 1 else 0) s

/-- R67: HOLD. -/
def paHold (o : Nat) : State → State :=
  paEvent fun s =>
    match s.out o with
    | .off => joinAction o .hold s
    | .waiting =>
      { s with pa := { s.pa with action := s.pa.action.map (fun e => if e.output = o then { e with kind := .hold } else e) } }
    | .striking ends _ => s.setOut o (.striking ends true)
    | .pulling _ | .holding => s

/-- R68: STRIKE, with its width in ms. -/
def paStrike (o width : Nat) : State → State :=
  paEvent fun s => if s.out o = .off then joinAction o (.strike width) s else s

/-- R69: what RELEASE does in READY, before PA chooses. -/
def releaseOut (o : Nat) (s : State) : State :=
  match s.out o with
  | .off => s
  | .waiting =>
    let speech := s.pa.speech.filter (· != o)
    { s with pa :=
      { s.pa with
        outs := s.pa.outs.set o .off,
        speech := speech,
        action := s.pa.action.filter (fun e => e.output != o),
        runCount := if speech.isEmpty then 0 else s.pa.runCount } }
  | .pulling _ =>
    energizedNotice o { s with pa := { s.pa with outs := s.pa.outs.set o .off, units := s.pa.units - s.weight o } }
  | .holding => energizedNotice o (s.setOut o .off)
  | .striking ends _ => s.setOut o (.striking ends false)

/-- R69: RELEASE. -/
def paRelease (o : Nat) : State → State := paEvent (releaseOut o)

/-- R74: the pull-in of output `o` has run its time. -/
def State.pullInOver (s : State) (o : Nat) : Bool :=
  match s.out o with
  | .pulling ends => decide (ends ≤ s.now)
  | .off | .waiting | .holding | .striking _ _ => false

/-- R74: the end of a pull-in; one that finds its output no longer PULLING does nothing. -/
def pullInEnds (o : Nat) (s : State) : State :=
  if s.pullInOver o then
    paEvent (fun s =>
      { s with pa := { s.pa with outs := s.pa.outs.set o .holding, units := s.pa.units - s.weight o } }) s
  else s

/-- R74: the strike of output `o` has run its width; the answer is its stay-energized mark. -/
def State.strikeOver (s : State) (o : Nat) : Option Bool :=
  match s.out o with
  | .striking ends stay => if ends ≤ s.now then some stay else none
  | .off | .waiting | .holding | .pulling _ => none

/-- R74: the end of a strike; one that finds its output no longer STRIKING does nothing. -/
def strikeEnds (o : Nat) (s : State) : State :=
  match s.strikeOver o with
  | none => s
  | some stay =>
    paEvent (fun s =>
      if stay then
        { s with pa := { s.pa with outs := s.pa.outs.set o .holding, units := s.pa.units - s.weight o } }
      else
        energizedNotice o
          { s with pa := { s.pa with outs := s.pa.outs.set o .off, units := s.pa.units - s.weight o } }) s

/-- R62: PA's values at reset, which are also those after an exit from READY (R77). -/
def Pa.cleared : Pa := { outs := .empty, speech := [], action := [], units := 0, runCount := 0 }

/-- The outputs that PA holds energized, in the table's order. -/
def Pa.energized (pa : Pa) : List Nat := (pa.outs.entries.filter (fun e => e.2.energized)).map (·.1)

/-- R77, R78: PA empties itself at the exit from READY, and tells CC of every output that was energized. -/
def paExit (s : State) : State :=
  s.pa.energized.foldl (fun s o => energizedNotice o s) { s with pa := .cleared }

end Sys2Proof.Machine
end

