-- ==== Sys2Proof/Machine/LocalLines.lean ====
section
/-! DEFINITION. LL: what a local line's level is, driving an output line, and offering a line's edge to runner 0
(10, R176 to R179; 06, R113). -/

namespace Sys2Proof.Machine

/-- R113: the level that AWAITLINE tests. A line of function NONE counts as LOW. -/
def State.lineLevel (s : State) (l : Nat) : Bool :=
  if (s.prof.lineFunction l).isInput then (s.line l).debounced
  else if (s.prof.lineFunction l).isOutput then (s.line l).driven
  else false

/-- R113: the context waits on line `l` for `level`. -/
def Context.awaitsLine (c : Context) (l : Nat) (level : Bool) : Bool :=
  match c.waiting with
  | .awaitLine l' v _ => l' == l && v == level
  | _ => false

/-- R113: the context goes on at the next step; its pass is due. -/
def Context.resumed (c : Context) : Context := { c with index := c.index + 1, waiting := .running }

/-- R113, R178: a change of line `l` to `level` is offered to runner 0; a satisfied AWAITLINE makes its pass due. -/
def offerLine (l : Nat) (level : Bool) (s : State) : State :=
  match s.runner 0 with
  | some c => if c.awaitsLine l level then s.setRunner 0 (some c.resumed) else s
  | none => s

/-- R114, R179: an output line drives a level; a setting that leaves it unchanged issues no edge. -/
def driveLine (l : Nat) (level : Bool) (s : State) : State :=
  if (s.prof.lineFunction l).isOutput then
    let changed := (s.line l).driven != level
    let s := s.setLine l { s.line l with driven := level }
    if changed then offerLine l level s else s
  else s

/-- R143, R149: CH drives every READY_LAMP line. -/
def driveLamps (level : Bool) (s : State) : State :=
  (List.range 12).foldl (fun s l => if s.prof.lineFunction l = .readyLamp then driveLine l level s else s) s

end Sys2Proof.Machine
end

