-- ==== Sys2Proof/Machine/Runner.lean ====
section
/-! DEFINITION. The runners: one step, and one pass (06, R104 to R115). -/

namespace Sys2Proof.Machine

/-- R104: the effect whose script a context runs. -/
def Script.effect : Script → Option Nat
  | .effectOn e | .effectOff e => some e
  | .wake | .rest | .dark => none

/-- R86, R104: a fresh context of a script at an entry; its pass is due. -/
def freshContext (script : Script) (entry : Nat) : Context :=
  { script := script, index := entry, waiting := .running, registerA := none, registerB := none, held := [],
    rearmed := false, tally := 0 }

/-- R110: the mode of the effect that a context runs, if it runs one. -/
def State.modeOf (s : State) (c : Context) : Option EffectMode :=
  c.script.effect.bind fun e => (s.prof.effects[e]?).map (·.mode)

/-- How a step leaves the pass: it goes on, it waits, or the script has ended. -/
inductive PassEnd where
  | going | waits | ended
  deriving DecidableEq, Repr

/-- R106: a non-waiting step has been taken; the sixteenth is a runaway and ends the script. -/
def tallied (r : Nat) (step : Nat) (c : Context) (s : State) : PassEnd × Context × State :=
  let c := { c with tally := c.tally + 1 }
  if c.tally < 16 then (.going, c, s) else (.ended, c, reportFault .scriptRunaway r step s)

/-- R107, R112, R113: a waiting step begins to wait; the tally returns to 0. -/
def beginsToWait (w : Waiting) (c : Context) (s : State) : PassEnd × Context × State :=
  (.waits, { c with waiting := w, tally := 0 }, s)

/-- The register that a LOOP step names. -/
def Context.register (c : Context) : Register → Option Nat
  | .a => c.registerA
  | .b => c.registerB

/-- A register takes a value, or goes idle. -/
def Context.setRegister (c : Context) (v : Option Nat) : Register → Context
  | .a => { c with registerA := v }
  | .b => { c with registerB := v }

/-- R110: LOOP on the context; `endless` says that it stands in an effect of mode LEVEL. -/
def Context.loop (c : Context) (target count : Nat) (reg : Register) (endless : Bool) : Context :=
  let next := { c with index := c.index + 1 }
  let jump := { c with index := target }
  if count = 0 then if endless then jump else next
  else
    match c.register reg with
    | none => if count = 1 then next else jump.setRegister (some (count - 1)) reg
    | some v => if 1 < v then jump.setRegister (some (v - 1)) reg else next.setRegister none reg

/-- R115: REARM sets the flag in the ON part of an EDGE effect. -/
def State.rearms (s : State) (c : Context) : Bool :=
  match c.script with
  | .effectOn _ => s.modeOf c == some .edge
  | .effectOff _ | .wake | .rest | .dark => false

/-- R107 to R115: runner `r` takes the step its context stands at. A profile that passed R103 has a step there; were
there none, the script would end. -/
def takeStep (r : Nat) (c : Context) (s : State) : PassEnd × Context × State :=
  let next := { c with index := c.index + 1 }
  match s.prof.steps[c.index]? with
  | none => (.ended, c, s)
  | some (.wait d) => beginsToWait (.wait (.due (s.now + ms d))) c s
  | some (.strike o w) => tallied r c.index next (paStrike o w s)
  | some (.hold o) =>
    if o ∈ c.held then tallied r c.index next (paHold o s)
    else if c.held.length < 4 then tallied r c.index { next with held := c.held ++ [o] } (paHold o s)
    else tallied r c.index next s
  | some (.lift o) => tallied r c.index { next with held := c.held.filter (· != o) } (paRelease o s)
  | some (.loop target count reg) =>
    tallied r c.index (c.loop target count reg (s.modeOf c == some .level)) s
  | some (.mark m) => tallied r c.index next (handOver (.mark m r) s)
  | some (.await m d) => beginsToWait (.await m (.due (s.now + ms d))) c s
  | some (.awaitLine l v d) =>
    if s.lineLevel l = v then tallied r c.index next s
    else beginsToWait (.awaitLine l v (.due (s.now + ms d))) c s
  | some (.setLine l v) => tallied r c.index next (driveLine l v s)
  | some .rearm => tallied r c.index { next with rearmed := c.rearmed || s.rearms c } s
  | some .done => (.ended, c, s)

/-- R105: steps taken one after the other at one instant, at most `n` of them. -/
def takeSteps (r : Nat) : Nat → Context → State → PassEnd × Context × State
  | 0, c, s => (.going, c, s)
  | n + 1, c, s =>
    match takeStep r c s with
    | (.going, c', s') => takeSteps r n c' s'
    | other => other

/-- R105: a pass. The tally ends it within sixteen non-waiting steps (R106) and the step after them. -/
def runPass (r : Nat) (c : Context) (s : State) : PassEnd × Context × State := takeSteps r 17 c s

/-- R94: a running context's timer is frozen with the time left. -/
def Timer.freeze (now : Nat) : Timer → Timer
  | .due m => .left (m - now)
  | .left d => .left d

/-- R94: a frozen timer runs again. -/
def Timer.thaw (now : Nat) : Timer → Timer
  | .due m => .due m
  | .left d => .due (now + d)

/-- A context's timer. -/
def Waiting.timer : Waiting → Option Timer
  | .running => none
  | .wait t | .await _ t | .awaitLine _ _ t => some t

/-- What a context waits for, its timer changed. -/
def Waiting.mapTimer (f : Timer → Timer) : Waiting → Waiting
  | .running => .running
  | .wait t => .wait (f t)
  | .await m t => .await m (f t)
  | .awaitLine l v t => .awaitLine l v (f t)

/-- A running timer has run out at `now`. -/
def Timer.expired (now : Nat) : Timer → Bool
  | .due m => decide (m ≤ now)
  | .left _ => false

/-- R94: a context saved when its effect is suspended. -/
def Context.saved (now : Nat) (c : Context) : Context := { c with waiting := c.waiting.mapTimer (Timer.freeze now) }

/-- R94, R105: a saved context taken back: its wait goes on with what was left, or, with nothing left, its pass is due
at the next step. -/
def Context.takenBack (now : Nat) (c : Context) : Context :=
  if c.waiting.timer = some (.left 0) then c.resumed
  else { c with waiting := c.waiting.mapTimer (Timer.thaw now) }

end Sys2Proof.Machine
end

