-- ==== Sys2Proof/Machine/EffectEngine.lean ====
section
/-! DEFINITION. EE: trigger counts, triggers, pre-emption, pending effects, the end of a holder, LEVEL release, ALL-OFF
and the exit from READY (05, R80 to R101). -/

namespace Sys2Proof.Machine

/-- Effect `e` of the effect table (R80). -/
def State.effect (s : State) (e : Nat) : Option Effect := s.prof.effects[e]?

/-- R83: the mode of effect `e`. -/
def State.effectMode (s : State) (e : Nat) : Option EffectMode := (s.effect e).map (·.mode)

/-- R80: the priority of an effect. -/
def State.priority (s : State) (e : Nat) : Nat := ((s.effect e).map (·.priority)).getD 0

/-- R80: the claim group of an effect. -/
def State.groupOf (s : State) (e : Nat) : Nat := ((s.effect e).map (·.group)).getD 0

/-- R82: the trigger count. -/
def Trigger.count (x : Trigger) : Nat := x.trap + x.stud.toNat + x.cue.toNat

/-- R144, R85: CH restarts the rest timer in READY; a rest delay of 0 leaves it stopped. -/
def restartRest (s : State) : State :=
  if s.isReady then
    { s with ch := { s.ch with
        rest := if s.prof.params.restDelay = 0 then none else s.after (ms (60000 * s.prof.params.restDelay)) } }
  else s

/-- R86: the runners 1 to 7. -/
def effectRunners : List Nat := [1, 2, 3, 4, 5, 6, 7]

/-- R86: the lowest-numbered free runner. -/
def State.freeRunner (s : State) : Option Nat := effectRunners.find? (fun r => (s.runner r).isNone)

/-- R86: the runner that an effect occupies. -/
def State.runnerOf (s : State) (e : Nat) : Option Nat :=
  effectRunners.find? (fun r => ((s.runner r).bind (·.script.effect)) == some e)

/-- R88: the outputs of every TRAP window of claim group `g`, ascending. -/
def State.groupOutputs (s : State) (g : Nat) : List Nat :=
  s.prof.outputsOf (fun w => w.kind == .trap && w.claimGroup == g)

/-- Requests of one kind for a list of outputs, in list order. -/
def forOutputs (request : Nat → State → State) (l : List Nat) (s : State) : State :=
  l.foldl (fun s o => request o s) s

/-- R88: the held list of a runner's context, if it runs an effect of group `g`, is emptied. -/
def emptyHeld (g : Nat) (s : State) (r : Nat) : State :=
  match s.runner r with
  | some c => if (c.script.effect.map s.groupOf) = some g then s.setRunner r (some { c with held := [] }) else s
  | none => s

/-- R88: EE clears claim group `g`. -/
def clearGroup (g : Nat) (s : State) : State :=
  effectRunners.foldl (emptyHeld g) (forOutputs paRelease (s.groupOutputs g) s)

/-- R86: effect `e` becomes the holder of its group, with a fresh context at its ON entry; the pass is still to come. -/
def becomeHolder (e : Nat) (s : State) : Context × State :=
  let g := s.groupOf e
  (freshContext (.effectOn e) (((s.effect e).map (·.onEntry)).getD 0),
    s.setGroup g { s.group g with holder := some e })

/-- R94: the effect of a saved context becomes the holder of group `g` again; HOLD is sent for its held list. -/
def resumeHolder (g : Nat) (c : Context) (rest : List Context) (s : State) : Context × State :=
  (c.takenBack s.now,
    forOutputs paHold c.held (s.setGroup g { s.group g with holder := c.script.effect, stack := rest }))

/-- R95: among the groups without a holder, the pending effect of the highest priority, the lowest group number first
on ties. -/
def State.freePending (s : State) : Option (Nat × Nat) :=
  (List.range 16).foldl (fun best g =>
    match (s.group g).holder, (s.group g).pending with
    | none, some e =>
      match best with
      | none => some (g, e)
      | some (g', e') => if s.priority e' < s.priority e then some (g, e) else some (g', e')
    | _, _ => best) none

/-- R93, R95: the work that the runner of an ended holder of group `g` goes on to. -/
def nextWork (g : Nat) (s : State) : Option (Context × State) :=
  let group := s.group g
  match group.pending, group.stack with
  | some e, [] => some (becomeHolder e (s.setGroup g { group with pending := none }))
  | some e, c :: rest =>
    if ((c.script.effect.map s.priority).getD 0) < s.priority e then
      some (becomeHolder e (s.setGroup g { group with pending := none }))
    else some (resumeHolder g c rest s)
  | none, c :: rest => some (resumeHolder g c rest s)
  | none, [] =>
    let s := s.setGroup g { group with holder := none }
    s.freePending.map fun (g', e) => becomeHolder e (s.setGroup g' { s.group g' with pending := none })

/-- R93: the holder whose context `c` stood on runner `r` ends: its held outputs are released and the runner's next
work is found. The runner is free where there is none. -/
def endHolder (r : Nat) (c : Context) (s : State) : Option Context × State :=
  let s := (forOutputs paRelease c.held s).setRunner r none
  match nextWork ((c.script.effect.map s.groupOf).getD 0) s with
  | some (c', s') => (some c', s')
  | none => (none, s.setGroup ((c.script.effect.map s.groupOf).getD 0)
      { s.group ((c.script.effect.map s.groupOf).getD 0) with holder := none })

/-- A runner takes a context whose pass is due, and goes on from ended holders to their next work, at most `n` times. -/
def runOn : Nat → Nat → Context → State → State
  | 0, r, c, s => s.setRunner r (some c)
  | n + 1, r, c, s =>
    match runPass r c (s.setRunner r (some c)) with
    | (.ended, c', s') =>
      match endHolder r c' s' with
      | (none, s'') => s''
      | (some c'', s'') => if c''.waiting = .running then runOn n r c'' s'' else s''.setRunner r (some c'')
    | (_, c', s') => s'.setRunner r (some c')

/-- The most contexts that can come one after the other on a runner within one event: 16 pending effects, 48 saved
contexts and the one that ends. -/
def handOns : Nat := 65

/-- R105: runner `r` takes context `c` and its pass, if one is due. -/
def runEffect (r : Nat) (c : Context) (s : State) : State :=
  if c.waiting = .running then runOn handOns r c s else s.setRunner r (some c)

/-- R93: the holder on runner `r` ends (END, runaway or a LEVEL release without an OFF entry). -/
def holderEnds (r : Nat) (c : Context) (s : State) : State :=
  match endHolder r c s with
  | (none, s') => s'
  | (some c', s') => runEffect r c' s'

/-- R86: effect `e` starts on runner `r`. -/
def startEffect (e r : Nat) (s : State) : State :=
  let x := becomeHolder e s
  runEffect r x.1 x.2

/-- R92: effect `e` is made pending on its group, replaces the pending effect, or is dropped. -/
def makePending (e : Nat) (s : State) : State :=
  let g := s.groupOf e
  match (s.group g).pending with
  | none => s.setGroup g { s.group g with pending := some e }
  | some q => if s.priority q ≤ s.priority e then s.setGroup g { s.group g with pending := some e } else s

/-- R91: effect `e` pre-empts the holder of its group, which runs `c` on runner `r`. -/
def preempt (e r : Nat) (c : Context) (s : State) : State :=
  let g := s.groupOf e
  if 3 ≤ (s.group g).stack.length then reportFault .stackFull e g s
  else
    let s := s.setGroup g { s.group g with stack := c.saved s.now :: (s.group g).stack }
    startEffect e r (clearGroup g s)

/-- R97: a rearmed holder restarts in place on runner `r`. -/
def restartInPlace (e r : Nat) (s : State) : State := startEffect e r (clearGroup (s.groupOf e) s)

/-- R89: effect `e` is suspended in the group's stack. -/
def Group.suspends (g : Group) (e : Nat) : Bool := g.stack.any (fun c => c.script.effect == some e)

/-- R89 to R92: a trigger taken in READY. -/
def triggerInReady (e : Nat) (s : State) : State :=
  let g := s.group (s.groupOf e)
  if g.suspends e ∨ g.pending = some e then s
  else
    match g.holder with
    | none =>
      match s.freeRunner with
      | some r => startEffect e r s
      | none => makePending e s
    | some h =>
      match s.runnerOf h with
      | none => s
      | some r =>
        match s.runner r with
        | none => s
        | some c =>
          if h = e then if c.rearmed then restartInPlace e r s else s
          else if s.priority h < s.priority e then preempt e r c s
          else makePending e s

/-- R85: a trigger; outside READY it starts nothing, and in READY it is reported to CH. -/
def trigger (e : Nat) (s : State) : State :=
  if s.isReady then triggerInReady e (restartRest s) else s

/-- R96: the context jumps to the OFF entry: its wait and loop registers are abandoned, its held list and rearmed flag
kept. -/
def Context.jumpedOff (c : Context) (e off : Nat) : Context :=
  { c with
    script := .effectOff e
    index := off
    waiting := .running
    registerA := none
    registerB := none
    tally := 0 }

/-- R96: the LEVEL release of effect `e`. -/
def levelRelease (e : Nat) (s : State) : State :=
  let gn := s.groupOf e
  let g := s.group gn
  if g.holder = some e then
    match s.runnerOf e with
    | none => s
    | some r =>
      match s.runner r with
      | none => s
      | some c =>
        if c.script = .effectOn e then
          match (s.effect e).bind (·.offEntry) with
          | some off =>
            runEffect r (c.jumpedOff e off) s
          | none => holderEnds r c s
        else s
  else if g.pending = some e then s.setGroup gn { g with pending := none }
  else s.setGroup gn { g with stack := g.stack.filter (fun c => c.script != Script.effectOn e) }

/-- R82 to R84: the trigger count of an effect has moved from `before`; `rise` says that it received a +1. -/
def countMoved (e before : Nat) (rise : Bool) (s : State) : State :=
  match s.effectMode e with
  | some .edge => if rise then trigger e s else s
  | some .level =>
    let after := (s.trigger e).count
    if before = 0 ∧ 0 < after then trigger e s
    else if 0 < before ∧ after = 0 then levelRelease e s
    else s
  | none => s

/-- R84: a stud delta from KM. -/
def studDelta (e : Nat) (up : Bool) (s : State) : State :=
  let before := (s.trigger e).count
  countMoved e before up (s.setTrigger e { s.trigger e with stud := up })

/-- R84: a debounced edge of the cue line of effect `e`. -/
def cueEdge (e : Nat) (level : Bool) (s : State) : State :=
  match s.effectMode e with
  | some .edge => if level then trigger e s else s
  | some .level =>
    let before := (s.trigger e).count
    countMoved e before level (s.setTrigger e { s.trigger e with cue := level })
  | none => s

/-- R81: at profile acceptance EE takes the cue part of effect `e`. -/
def takeCueLevel (s : State) (e : Nat) : State :=
  match s.effect e with
  | some x =>
    match x.mode, x.cueLine with
    | .level, some l => s.setTrigger e { s.trigger e with cue := s.lineLevel l }
    | _, _ => s
  | none => s

/-- R98, R99: every claim group is cleared, in ascending group order. -/
def clearAllGroups (s : State) : State := (List.range 16).foldl (fun s g => clearGroup g s) s

/-- R98, R99: every holder stops, every saved context and pending effect is dropped, and runners 1 to 7 become free. -/
def stopEffects (s : State) : State :=
  { s with ee := { s.ee with
      groups := .empty,
      runners := effectRunners.foldl (fun m r => m.set r none) s.ee.runners } }

/-- R98: the trap and stud parts of every count become 0; the cue part stays. -/
def zeroKeyParts (s : State) : State :=
  { s with ee := { s.ee with
      triggers := (List.range 32).foldl
        (fun m e => m.set e { trap := 0, stud := false, cue := (m.get e).cue }) s.ee.triggers } }

/-- R98: ALL-OFF at EE. -/
def eeAllOff (s : State) : State := zeroKeyParts (stopEffects (clearAllGroups s))

/-- R99: the chamber has left READY. -/
def eeExit (s : State) : State := stopEffects (clearAllGroups s)

/-- R101: an effect is running while any runner 1 to 7 is occupied. -/
def State.effectRunning (s : State) : Bool := effectRunners.any (fun r => (s.runner r).isSome)

/-- R101, R188: effect `e` is a holder. -/
def State.isHolder (s : State) (e : Nat) : Bool := (List.range 16).any (fun g => (s.group g).holder == some e)

end Sys2Proof.Machine
end

