-- ==== Sys2Proof/Machine/Resolution.lean ====
section
/-! DEFINITION. RE: pitch resolution and the deltas of each kind of change (01, R8 to R19). RE keeps no state: each
change gives its list of deltas, in order. -/

namespace Sys2Proof.Machine

/-- R10, R11, R12: a folded index, if it lies in the window. -/
def Window.atIndex (w : Window) (i : Int) : Option Nat :=
  if 0 ≤ i ∧ i < (w.size : Int) then some (w.first + i.toNat) else none

/-- The exact ceiling of `n / 12` for `n` not negative. -/
def ceil12 (n : Int) : Int := (n + 11) / 12

/-- R9 to R12: the output of window `w` that sounds for key `k` of a division with base note `b`. A note below the window
may be folded up to a position whose own note lies above 127; R11 resolves it, R3 has no stop and key reach it, and the
model follows R11 (log 26, the model's reading). -/
def resolve (b k : Nat) (offset : Int) (w : Window) (top bottom : Policy) : Option Nat :=
  let t : Int := (b : Int) + k + offset
  if t < 0 ∨ 127 < t then none
  else
    let i := t - w.firstNote
    if 0 ≤ i ∧ i < (w.size : Int) then some (w.first + i.toNat)
    else if (w.size : Int) ≤ i then
      match top with
      | .silent => none
      | .breakBack => w.atIndex (i - 12 * ceil12 (i - w.size + 1))
    else
      match bottom with
      | .silent => none
      | .breakBack => w.atIndex (i + 12 * ceil12 (-i))

/-- R8: the contribution condition on a merged touch and the presence of a pizzicato entry. -/
def TouchCondition.holds (c : TouchCondition) (touch : Touch) (pizz : Bool) : Bool :=
  match c, touch with
  | .first, .first | .first, .second | .second, .second => true
  | .pizz, .second => pizz
  | _, .up | .second, .first | .pizz, .first => false

/-- Which count of DT a delta moves (R15). -/
inductive CountKind where
  | pipe | single | reiterate
  deriving DecidableEq, Repr, Inhabited

/-- R13: what RE delivers; `up` is +1. -/
inductive Delta where
  | count (kind : CountKind) (window output : Nat) (up : Bool)
  | effect (effect : Nat) (up : Bool)
  | group (group : Nat) (up : Bool)
  deriving DecidableEq, Repr, Inhabited

/-- R15: the count that a VOICE entry moves on a window of this kind. -/
def countKind (k : WindowKind) (m : StrikeMode) : CountKind :=
  match k, m with
  | .bar, .single => .single
  | .bar, .reiterate => .reiterate
  | _, _ => .pipe

/-- R15, R17: what a VOICE or TRAP entry delivers for key `k` when its condition changes to `up`. -/
def StopEntry.keyDelta (p : Profile) (e : StopEntry) (k : Nat) (up : Bool) : List Delta :=
  match e.kind with
  | .voice wn offset mode top bottom _ =>
    match p.windows[wn]? with
    | none => []
    | some w =>
      match resolve (p.baseNote e.division) k offset w top bottom with
      | none => []
      | some o => [.count (countKind w.kind mode) wn o up]
  | .trap effect _ => [.effect effect up]
  | .trem _ => []

/-- R8: the entry's condition holds; a TREM entry has none. -/
def StopEntry.holds (e : StopEntry) (touch : Touch) (pizz : Bool) : Bool :=
  match e.kind with
  | .voice _ _ _ _ _ c | .trap _ c => c.holds touch pizz
  | .trem _ => false

/-- R15, R16: the deltas of the merged change (d, k, old, new); `before` and `after` say whether the pizzicato list
holds the key's entry at the two judgements. -/
def mergedDeltas (p : Profile) (on : Table Bool) (d k : Nat) (old new : Touch) (before after : Bool) : List Delta :=
  (p.entries.map fun e =>
    if e.division = d ∧ on.get e.stop = true then
      match e.holds old before, e.holds new after with
      | false, true => e.keyDelta p k true
      | true, false => e.keyDelta p k false
      | _, _ => []
    else []).flatten

/-- R17: the deltas of the stop change (n, up). `touch` and `pizz` read the merged touch and the pizzicato list. -/
def stopDeltas (p : Profile) (touch : Nat → Nat → Touch) (pizz : Nat → Nat → Bool) (n : Nat) (up : Bool) :
    List Delta :=
  (p.entries.map fun e =>
    if e.stop = n then
      match e.kind with
      | .trem g => [.group g up]
      | .voice _ _ _ _ _ _ | .trap _ _ =>
        ((List.range (p.keyCount e.division)).map fun k =>
          if e.holds (touch e.division k) (pizz e.division k) then e.keyDelta p k up else []).flatten
    else []).flatten

/-- The entry is a VOICE entry with the touch condition PIZZ; a TRAP entry has none (R6). -/
def StopEntry.isPizz (e : StopEntry) : Bool :=
  match e.kind with
  | .voice _ _ _ _ _ .pizz => true
  | _ => false

/-- R18: the deltas of the pizzicato expiry (d, k). -/
def pizzDeltas (p : Profile) (on : Table Bool) (d k : Nat) : List Delta :=
  (p.entries.map fun e =>
    if e.division = d ∧ on.get e.stop = true ∧ e.isPizz = true then e.keyDelta p k false else []).flatten

/-- The index of the window of output `o`. -/
def Profile.windowIndex (p : Profile) (o : Nat) : Nat := p.windows.findIdx (·.contains o)

/-- R19: the delta of one end of a TUNE application: the demand count, or a bar's single count. -/
def tuneDelta (p : Profile) (o : Nat) (up : Bool) : List Delta :=
  match p.windowOf o with
  | none => []
  | some w => [.count (countKind w.kind .single) (p.windowIndex o) o up]

/-- R19: the deltas of a TUNE application from `old` to `new`. -/
def tuneDeltas (p : Profile) (old new : Option Nat) : List Delta :=
  ((old.map fun o => tuneDelta p o false).getD []) ++ ((new.map fun o => tuneDelta p o true).getD [])

end Sys2Proof.Machine
end

