-- ==== Sys2Proof/Machine/Tremulants.lean ====
section
/-! DEFINITION. TSU: the tremulant groups and the shutter sets (07, R117 to R133). -/

namespace Sys2Proof.Machine

/-- R117: the settings of group `g`, if the profile defines it. -/
def State.tremGroup (s : State) (g : Nat) : Option TremGroup := s.prof.groups[g]?

/-- R125: the settings of set `x`, if the profile defines it. -/
def State.shutterSet (s : State) (x : Nat) : Option ShutterSet := s.prof.sets[x]?

/-- R120, R121: phase 0 of group `g` at moment `t`. -/
def phase0At (t g : Nat) (s : State) : State :=
  match s.tremGroup g with
  | none => s
  | some x =>
    let s := s.setTrem g
      { s.trem g with phaseW := some (t + ms x.width), phase0 := some (t + ms x.period) }
    let s := paHold x.output s
    if x.mode = .lead then handOver (.beat x.tag) s else s

/-- R119: a stopped group starts, at phase 0 and with follow status FREE. -/
def startGroup (g : Nat) (s : State) : State :=
  phase0At s.now g (s.setTrem g { s.trem g with running := true, locked := false, loss := none })

/-- R119: a group's timers are cancelled and its follow status is FREE. -/
def stoppedTrem (x : Trem) : Trem :=
  { x with running := false, phase0 := none, phaseW := none, locked := false, loss := none }

/-- R119: a running group whose on-count has fallen to 0 stops. -/
def stopGroup (g : Nat) (s : State) : State :=
  let s := s.setTrem g (stoppedTrem (s.trem g))
  match s.tremGroup g with
  | none => s
  | some x => paRelease x.output s

/-- R118, R119: a delta on the on-count of group `g`. -/
def groupDelta (g : Nat) (up : Bool) (s : State) : State :=
  let x := s.trem g
  if up then
    let s := s.setTrem g { x with onCount := x.onCount + 1 }
    if x.onCount = 0 ∧ x.running = false ∧ s.isReady = true then startGroup g s else s
  else
    let s := s.setTrem g { x with onCount := x.onCount - 1 }
    if x.onCount ≤ 1 ∧ x.running = true then stopGroup g s else s

/-- R122: group `g` takes a beat of `tag` from station `a`. -/
def takeBeat (a : Station) (tag : Fin 16) (s : State) (g : Nat) : State :=
  match s.tremGroup g with
  | none => s
  | some x =>
    if x.mode = .follow ∧ x.leader = a ∧ x.tag = tag ∧ (s.trem g).running = true then
      phase0At s.now g (s.setTrem g { s.trem g with locked := true, loss := s.after (3 * ms x.period) })
    else s

/-- R122: a BEAT is offered to the groups in ascending order. -/
def offerBeat (a : Station) (tag : Fin 16) (s : State) : State := (List.range 4).foldl (takeBeat a tag) s

/-- R129: set `x` takes one step toward its target and starts its step timer. -/
def shutterStep (x : Nat) (s : State) : State :=
  match s.shutterSet x with
  | none => s
  | some cfg =>
    let v := s.shutter x
    if v.stage < v.target then
      paHold (cfg.first + v.stage)
        (s.setShutter x { v with stage := v.stage + 1, stepTimer := s.after (ms cfg.interval) })
    else if v.target < v.stage then
      paRelease (cfg.first + v.stage - 1)
        (s.setShutter x { v with stage := v.stage - 1, stepTimer := s.after (ms cfg.interval) })
    else s

/-- R128: the target stage of position `p` in a set of `n` stages. -/
def stageOf (p n : Nat) : Nat := (p * n + 64) / 128

/-- R128: position `p` is adopted against `pref` with hysteresis `h`. -/
def adopts (p pref h : Nat) : Bool := decide (h ≤ (p - pref) + (pref - p)) || p == 0 || p == 127

/-- R128, R129: a position taken from the owner of set `x` is judged. -/
def judgePosition (x p : Nat) (cfg : ShutterSet) (s : State) : State :=
  let v := s.shutter x
  if adopts p v.pref cfg.hysteresis then
    let s := s.setShutter x { v with pref := p, target := stageOf p cfg.stages }
    if s.isReady = true ∧ v.stepTimer = none then shutterStep x s else s
  else s

/-- R126: set `x` takes a pair (shoe, position) from slot `c`. -/
def takePair (c shoe p : Nat) (s : State) (x : Nat) : State :=
  match s.shutterSet x with
  | none => s
  | some cfg =>
    let v := s.shutter x
    if cfg.shoe = shoe ∧ (v.owner = none ∨ v.owner = some c) then
      judgePosition x (min p 127) cfg
        (s.setShutter x { v with owner := some c, ownerHold := s.after (ms cfg.ownerHold) })
    else s

/-- R126: the pairs of a SHOE frame, in frame order, each taken by the sets in ascending order. -/
def takePairs (c : Nat) (pairs : List (Fin 8 × Byte)) (s : State) : State :=
  pairs.foldl (fun s pair => (List.range 2).foldl (takePair c pair.1.val pair.2.toNat) s) s

/-- R127: set `x` is released if slot `c` owns it. -/
def releaseOwner (c : Nat) (s : State) (x : Nat) : State :=
  let v := s.shutter x
  if v.owner = some c then s.setShutter x { v with owner := none, ownerHold := none } else s

/-- R127: every set whose owner is slot `c` is released. -/
def releaseShoes (c : Nat) (s : State) : State := (List.range 2).foldl (releaseOwner c) s

/-- R36: slot `c` owns a shoe. -/
def State.ownsShoe (s : State) (c : Nat) : Bool := (List.range 2).any (fun x => (s.shutter x).owner == some c)

/-- R119: at READY entry group `g` starts if its on-count is above 0. -/
def enterGroup (s : State) (g : Nat) : State :=
  if 0 < (s.trem g).onCount ∧ (s.trem g).running = false then startGroup g s else s

/-- R119, R131: the chamber has entered READY. -/
def tsuEnter (s : State) : State :=
  (List.range 2).foldl (fun s x => shutterStep x s) ((List.range 4).foldl enterGroup s)

/-- R119, R131: at READY entry TSU has something to ask of PA. -/
def State.tsuAsks (s : State) : Bool :=
  (List.range 4).any (fun g => decide (0 < (s.trem g).onCount) && (s.tremGroup g).isSome) ||
    (List.range 2).any (fun x => decide (0 < (s.shutter x).target) && (s.shutterSet x).isSome)

/-- R119, R131: the chamber has left READY; TSU sends no request. -/
def tsuExit (s : State) : State :=
  let s := (List.range 4).foldl (fun s g => s.setTrem g (stoppedTrem (s.trem g))) s
  (List.range 2).foldl (fun s x => s.setShutter x { s.shutter x with stage := 0, stepTimer := none }) s

end Sys2Proof.Machine
end

