-- ==== Sys2Proof/Machine/Demand.lean ====
section
/-! DEFINITION. DT: an application taken whole (03, R40 to R53), and what READY entry and exit do to DT. -/

namespace Sys2Proof.Machine

/-- R46, R83: what an application has met so far: the bars to strike at its close, and the effects whose counts moved
with the count before and whether a +1 came, both in the order first met. -/
structure AppLog where
  bars : List Nat
  effects : List (Nat × Nat × Bool)
  deriving DecidableEq, Repr, Inhabited

/-- A number put into an ascending list without duplicates (R40). -/
def insertAscending (n : Nat) : List Nat → List Nat
  | [] => [n]
  | m :: rest => if n < m then n :: m :: rest else if n = m then m :: rest else m :: insertAscending n rest

/-- R46: a bar is noted for a strike at the close, once. -/
def AppLog.bar (log : AppLog) (o : Nat) : AppLog := if o ∈ log.bars then log else { log with bars := log.bars ++ [o] }

/-- R83: a delta on effect `e`, whose count was `before`, is noted. -/
def AppLog.effect (log : AppLog) (e before : Nat) (up : Bool) : AppLog :=
  if log.effects.any (fun x => x.1 == e) then
    { log with effects := log.effects.map (fun x => if x.1 = e then (x.1, x.2.1, x.2.2 || up) else x) }
  else { log with effects := log.effects ++ [(e, before, up)] }

/-- A count after one delta. -/
def moved (up : Bool) (n : Nat) : Nat := if up then n + 1 else n - 1

/-- R42, R44, R45, R46, R48, R83, R118: one delta is taken. `ready` is DT's judgement of R43; `withhold` withholds TRAP
deltas (R38). -/
def takeDelta (ready withhold : Bool) (x : State × AppLog) (d : Delta) : State × AppLog :=
  let s := x.1
  let log := x.2
  match d with
  | .count .pipe _ o up =>
    let n := s.dt.pipe.get o
    let s := { s with dt := { s.dt with pipe := s.dt.pipe.set o (moved up n) } }
    if ready = true ∧ up = true ∧ n = 0 then (paOpen o s, log)
    else if ready = true ∧ up = false ∧ n = 1 then (paRelease o s, log)
    else (s, log)
  | .count .single _ o up =>
    let s := { s with dt := { s.dt with single := s.dt.single.set o (moved up (s.dt.single.get o)) } }
    (s, if up then log.bar o else log)
  | .count .reiterate w o up =>
    let n := s.dt.reiterate.get o
    let set := s.dt.sets.get w
    let set := if up then insertAscending o set else if n = 1 then set.filter (· != o) else set
    let s := { s with dt :=
      { s.dt with reiterate := s.dt.reiterate.set o (moved up n), sets := s.dt.sets.set w set } }
    (s, if up = true ∧ n = 0 then log.bar o else log)
  | .effect e up =>
    if withhold then x
    else
      (s.setTrigger e { s.trigger e with trap := moved up (s.trigger e).trap },
        log.effect e (s.trigger e).count up)
  | .group g up => (groupDelta g up s, log)

/-- R46: DT strikes a bar, at its window's strike width. -/
def strikeBar (o : Nat) (s : State) : State := paStrike o (((s.prof.windowOf o).map (·.strikeWidth)).getD 0) s

/-- R83: EE acts on the effects whose counts the application moved. -/
def actOnEffects (l : List (Nat × Nat × Bool)) (s : State) : State :=
  l.foldl (fun s x => countMoved x.1 x.2.1 x.2.2 s) s

/-- R13, R46, R83: the closing mark. The strikes of DT and the triggers of EE may reach PA in either order (log 3). -/
def closeApplication (ready : Bool) (log : AppLog) (s : State) : State :=
  let strikes := if ready then log.bars else []
  if strikes ≠ [] ∧ log.effects ≠ [] then eitherOrder (forOutputs strikeBar strikes) (actOnEffects log.effects) s
  else actOnEffects log.effects (forOutputs strikeBar strikes s)

/-- R13, R42, R43: an application is taken whole. -/
def application (withhold : Bool) (deltas : List Delta) (s : State) : State :=
  let ready := s.isReady
  let x := deltas.foldl (takeDelta ready withhold) (s, { bars := [], effects := [] })
  closeApplication ready x.2 x.1

/-- R51: the PIPE outputs that are called, ascending. -/
def State.calledPipes (s : State) : List Nat :=
  (s.prof.outputsOf (fun w => w.kind == .pipe)).filter (fun o => decide (0 < s.dt.pipe.get o))

/-- R49: every BAR window's clock starts. -/
def startClocks (s : State) : State :=
  (List.range s.prof.windows.length).foldl (fun s i =>
    match s.prof.windows[i]? with
    | some w =>
      if w.kind = .bar then
        { s with dt := { s.dt with clocks := s.dt.clocks.set i (s.after (ms w.reiteration)) } }
      else s
    | none => s) s

/-- R49, R51: the chamber has entered READY. -/
def dtEnter (s : State) : State := forOutputs paOpen s.calledPipes (startClocks s)

/-- R49, R52: the chamber has left READY: the clocks stop, all else stands. -/
def dtExit (s : State) : State := { s with dt := { s.dt with clocks := .empty } }

/-- R60: every PIPE demand count is 0. -/
def State.noPipeCalled (s : State) : Bool := s.dt.pipe.entries.all (fun e => e.2 == 0)

/-- R56, R58: the tuning hold moves to `new` by a TUNE application. -/
def moveHold (new : Option Hold) (s : State) : State :=
  let old := s.dt.tuning
  application false (tuneDeltas s.prof (old.map (·.output)) (new.map (·.output)))
    { s with dt := { s.dt with tuning := new } }

/-- R58: the tuning hold ends; an ending that finds none does nothing. -/
def endHold (s : State) : State := if s.dt.tuning = none then s else moveHold none s

end Sys2Proof.Machine
end

