-- ==== Sys2Proof/Machine/Chamber.lean ====
section
/-! DEFINITION. CH: the chamber state, runner 0's scripts, waking, gathering, resting, going dark and losing wind
(08, R134 to R151). -/

namespace Sys2Proof.Machine

/-- R162: the chamber state codes. -/
def ChamberState.code : ChamberState → Nat
  | .loading => 0 | .profileFault => 1 | .dark => 2 | .winding => 3 | .gathering => 4 | .ready => 5
  | .settling => 6 | .resting => 7 | .darkening => 8

/-- R137: the wake causes. -/
inductive WakeCause where
  | start | line | localPower | play
  deriving DecidableEq, Repr

/-- R137: a cause is in the wake mask. -/
def WakeMask.allows (m : WakeMask) : WakeCause → Bool
  | .start => m.start
  | .line => m.line
  | .localPower => m.localPower
  | .play => m.play

/-- The chamber state becomes `st`, with nothing else. -/
def State.withChamber (st : ChamberState) (s : State) : State := { s with ch := { s.ch with state := st } }

/-- R149: the notices of an exit from READY, taken after the new state has been set. -/
def exitNotices (s : State) : State :=
  let s := dtExit (tsuExit (eeExit (paExit s)))
  driveLamps false { s with ch := { s.ch with rest := none } }

/-- R135, R149, R150: the chamber changes to a state other than READY, leaving READY if it was there, and queues its
PRESENCE. -/
def moveTo (st : ChamberState) (s : State) : State :=
  let wasReady := s.isReady
  let s := s.withChamber st
  handPresence (if wasReady then exitNotices s else s)

/-- R143: the notices of an entry to READY. DT's and TSU's requests may reach PA in either order (log 3). -/
def readyNotices (s : State) : State :=
  let s := s.withChamber .ready
  let s := if s.calledPipes ≠ [] ∧ s.tsuAsks = true then eitherOrder dtEnter tsuEnter s else tsuEnter (dtEnter s)
  driveLamps true (restartRest s)

/-- R143, R150: the chamber enters READY and queues its PRESENCE. -/
def enterReady (s : State) : State := handPresence (readyNotices s)

/-- R141: station `a` is a member of the sync set other than this station. -/
def State.syncMember (s : State) (a : Station) : Bool := s.prof.params.syncSet.getLsbD a.val && a != s.pf.station

/-- R141: station `a` meets the gathering condition. -/
def State.gathered (s : State) (a : Station) : Bool :=
  (s.peer a).state == .heard && ((s.peer a).announced == some .gathering || (s.peer a).announced == some .ready)

/-- R141, R142: the members that fail the gathering condition, ascending. -/
def State.missing (s : State) : List Station :=
  (List.finRange 16).filter (fun a => s.syncMember a && !s.gathered a)

/-- The sync timer stops. -/
def stopSync (s : State) : State := { s with ch := { s.ch with sync := none } }

/-- R141, R142: the chamber enters GATHERING, and goes on to READY if the condition holds. -/
def enterGathering (s : State) : State :=
  let s := moveTo .gathering s
  if s.missing = [] then enterReady s
  else { s with ch := { s.ch with sync := s.after (ms (1000 * s.prof.params.syncTimeout)) } }

/-- R141: CH judges the condition at a PRESENCE while the chamber is GATHERING. -/
def judgeGathering (s : State) : State :=
  if s.ch.state = .gathering ∧ s.missing = [] then enterReady (stopSync s) else s

/-- R139, R140, R146, R147: the completion of a chamber script. -/
def chamberEnded (script : Script) (s : State) : State :=
  match script with
  | .wake =>
    if s.ch.state = .winding then if s.ch.origin = .dark then enterGathering s else enterReady s else s
  | .rest => if s.ch.state = .settling then moveTo .resting s else s
  | .dark =>
    if s.ch.state = .darkening then moveTo .dark { s with ch := { s.ch with origin := .dark } } else s
  | .effectOn _ | .effectOff _ => s

/-- R105: runner 0 takes its pass, if one is due. -/
def runChamber (s : State) : State :=
  match s.runner 0 with
  | none => s
  | some c =>
    if c.waiting = .running then
      match runPass 0 c s with
      | (.ended, c', s') => chamberEnded c'.script (s'.setRunner 0 none)
      | (_, c', s') => s'.setRunner 0 (some c')
    else s

/-- R104, R139: CH starts a chamber script; an absent entry completes at once. -/
def startScript (script : Script) (entry : Option Nat) (s : State) : State :=
  match entry with
  | none => chamberEnded script (s.setRunner 0 none)
  | some e => runChamber (s.setRunner 0 (some (freshContext script e)))

/-- R147: the chamber enters DARKENING: any chamber script is abandoned and the DARK script starts. -/
def enterDarkening (s : State) : State :=
  let s := moveTo .darkening (stopSync (s.setRunner 0 none))
  startScript .dark s.prof.darkEntry s

/-- R138: an admitted wake. -/
def admitWake (s : State) : State :=
  let origin := if s.ch.state = .dark then Origin.dark else .other
  let s := { s.setRunner 0 none with ch := { s.ch with origin := origin } }
  let s := moveTo .winding s
  startScript .wake s.prof.wakeEntry s

/-- R137: a wake cause is offered; it is admitted in DARK, SETTLING and RESTING if it is in the mask. -/
def offerWake (cause : WakeCause) (s : State) : State :=
  if s.prof.params.wakeMask.allows cause = true ∧
      (s.ch.state = .dark ∨ s.ch.state = .settling ∨ s.ch.state = .resting) then
    admitWake s
  else s

/-- R144, R146: the chamber goes to rest. -/
def enterSettling (s : State) : State :=
  let s := moveTo .settling s
  startScript .rest s.prof.restEntry s

/-- R140: a WAKE timeout: WIND_TIMEOUT with the line and the step, and DARKENING. -/
def wakeTimeout (line step : Nat) (s : State) : State := enterDarkening (reportFault .windTimeout line step s)

/-- R148: a pressure loss on line `l`. -/
def pressureLoss (l : Nat) (s : State) : State :=
  if s.ch.state = .ready then
    let s := reportFault .pressureLost l (ChamberState.code .ready) s
    let s := moveTo .winding { s with ch := { s.ch with origin := .other } }
    startScript .wake s.prof.wakeEntry s
  else if s.ch.state = .gathering then
    let s := moveTo .winding (stopSync (reportFault .pressureLost l (ChamberState.code .gathering) s))
    startScript .wake s.prof.wakeEntry s
  else s

/-- R142: the sync timer runs out in GATHERING. -/
def syncShort (s : State) : State :=
  match s.missing with
  | [] => enterReady (stopSync s)
  | a :: rest => handPresence (reportFault .syncShort a.val (rest.length + 1) (readyNotices (stopSync s)))

/-- R144: the rest timer runs out in READY. -/
def restExpires (s : State) : State :=
  if s.noPipeCalled = true ∧ s.effectRunning = false then enterSettling s else restartRest s

end Sys2Proof.Machine
end

