-- ==== Sys2Proof/Machine/Keyboard.lean ====
section
/-! DEFINITION. KM: slots, merged touch, the pizzicato list, stops, console loss and ALL-OFF (02, R20 to R39). -/

namespace Sys2Proof.Machine

/-- The number of (division, key) in a touch map. -/
def cell (d k : Nat) : Nat := d * 64 + k

/-- R23: UP < FIRST < SECOND. -/
def Touch.rank : Touch → Nat
  | .up => 0 | .first => 1 | .second => 2

/-- R23: the higher of two touches. -/
def Touch.higher (a b : Touch) : Touch := if a.rank < b.rank then b else a

/-- R24: a touch code; 3 is taken as SECOND. -/
def touchOfCode (c : BitVec 2) : Touch :=
  if c = 0 then .up else if c = 1 then .first else .second

/-- Slot `c`. -/
def State.slot (s : State) (c : Nat) : Slot := s.km.slots.get c

/-- Slot `c` becomes `v`. -/
def State.setSlot (c : Nat) (v : Slot) (s : State) : State := { s with km := { s.km with slots := s.km.slots.set c v } }

/-- R20: the touch that slot `c` holds for a key. -/
def State.slotTouch (s : State) (c d k : Nat) : Touch := (s.slot c).touch.get (cell d k)

/-- Slot `c` takes a touch for a key. -/
def State.setSlotTouch (c d k : Nat) (v : Touch) (s : State) : State :=
  s.setSlot c { s.slot c with touch := (s.slot c).touch.set (cell d k) v }

/-- R20: the merged touch of a key. -/
def State.mergedTouch (s : State) (d k : Nat) : Touch := s.km.merged.get (cell d k)

/-- R23: the highest touch that any slot holds for a key; a free slot's maps are all UP. -/
def State.highest (s : State) (d k : Nat) : Touch :=
  (List.range 4).foldl (fun m c => m.higher (s.slotTouch c d k)) .up

/-- R30: the pizzicato list holds an entry for a key. -/
def State.hasPizz (s : State) (d k : Nat) : Bool := s.km.pizzicato.any (fun e => e.division == d && e.key == k)

/-- The entry of a key leaves the pizzicato list. -/
def removePizz (d k : Nat) (s : State) : State :=
  { s with km := { s.km with pizzicato := s.km.pizzicato.filter (fun e => !(e.division == d && e.key == k)) } }

/-- R18, R33: the pizzicato expiry (d, k): one application, in which the entry is removed. -/
def pizzExpiry (d k : Nat) (s : State) : State :=
  removePizz d k (application false (pizzDeltas s.prof s.km.stopOn d k) s)

/-- R32: of the entries, the one with the earliest expiry, the one created first on a tie. -/
def earliestPizz : List PizzEntry → Option PizzEntry
  | [] => none
  | e :: rest =>
    match earliestPizz rest with
    | none => some e
    | some f => if f.expiry < e.expiry then some f else some e

/-- R32: a full list makes room by an eviction. -/
def makeRoom (s : State) : State :=
  if 64 ≤ s.km.pizzicato.length then
    match earliestPizz s.km.pizzicato with
    | some e => pizzExpiry e.division e.key s
    | none => s
  else s

/-- R31: the entry of a key is created. -/
def createPizz (d k : Nat) (s : State) : State :=
  let s := makeRoom s
  { s with km := { s.km with
      pizzicato := s.km.pizzicato ++ [{ division := d, key := k, expiry := s.now + ms s.prof.params.pizzicatoWindow }] } }

/-- R28: the effects that name a stud, ascending. -/
def Profile.studEffects (p : Profile) (k : Nat) : List Nat :=
  (List.range p.effects.length).filter (fun e => ((p.effects[e]?).bind (·.stud)) == some k)

/-- R28: the stud deltas of a merged change on division 7. -/
def studDeltas (k : Nat) (old new : Touch) (s : State) : State :=
  if old = .up ∧ new ≠ .up then (s.prof.studEffects k).foldl (fun s e => studDelta e true s) s
  else if old ≠ .up ∧ new = .up then (s.prof.studEffects k).foldl (fun s e => studDelta e false s) s
  else s

/-- R27: the merged change (d, k, old, new) and all it hands on. `allOff` withholds the TRAP and stud deltas (R38). -/
def mergedChange (allOff : Bool) (d k : Nat) (old new : Touch) (s : State) : State :=
  let s := { s with km := { s.km with merged := s.km.merged.set (cell d k) new } }
  let before := s.hasPizz d k
  let s := if new = .second then createPizz d k s else s
  let s := if old = .second then removePizz d k s else s
  let s := application allOff (mergedDeltas s.prof s.km.stopOn d k old new before (s.hasPizz d k)) s
  let s := if d = 7 ∧ allOff = false then studDeltas k old new s else s
  let s := restartRest s
  if old.rank < new.rank then offerWake .play s else s

/-- R23: after a slot's touch has changed, the merged touch is formed again, and a move is handed on. -/
def remerge (allOff : Bool) (d k : Nat) (s : State) : State :=
  let old := s.mergedTouch d k
  let new := s.highest d k
  if old = new then s else mergedChange allOff d k old new s

/-- R23, R24: a slot's touch for a key is set, and moves the merged touch or not. -/
def setTouch (c d k : Nat) (v : Touch) (s : State) : State :=
  if s.slotTouch c d k = v then s else remerge false d k (s.setSlotTouch c d k v)

/-- R21: the slot to which a station is bound. -/
def State.slotOf (s : State) (a : Station) : Option Nat := (List.range 4).find? (fun c => (s.slot c).station == some a)

/-- R21: the lowest-numbered free slot. -/
def State.freeSlot (s : State) : Option Nat := (List.range 4).find? (fun c => (s.slot c).station == none)

/-- R22: a frame is refused; CONSOLE_EXCESS is recorded once per station, with class x 8 + kind code as detail. -/
def refuseConsole (a : Station) (detail : Nat) (s : State) : State :=
  if s.km.refused.get a.val then s
  else
    reportFault .consoleExcess a.val detail { s with km := { s.km with refused := s.km.refused.set a.val true } }

/-- R21, R22: a playing frame finds or binds its sender's slot and is applied to it, or is refused. -/
def withSlot (a : Station) (detail : Nat) (apply : Nat → State → State) (s : State) : State :=
  match s.slotOf a with
  | some c => apply c s
  | none =>
    match s.freeSlot with
    | some c => apply c (s.setSlot c { station := some a, touch := .empty })
    | none => refuseConsole a detail s

/-- R24: one change of a KEYS frame. -/
def keyChange (c d : Nat) (s : State) (x : Fin 64 × BitVec 2) : State :=
  if x.1.val < s.prof.keyCount d then setTouch c d x.1.val (touchOfCode x.2) s else s

/-- R25: a SNAP frame on a slot. -/
def snapKeys (c d : Nat) (codes : List (BitVec 2)) (s : State) : State :=
  (List.range (s.prof.keyCount d)).foldl (fun s k => setTouch c d k (touchOfCode (codes.getD k 0)) s) s

/-- R17, R29: one change of a STOPS frame. -/
def stopChange (s : State) (x : Fin 1024 × Bool) : State :=
  let n := x.1.val
  if s.prof.hasStop n = true ∧ s.km.stopOn.get n ≠ x.2 then
    let s := { s with km := { s.km with stopOn := s.km.stopOn.set n x.2 } }
    restartRest (application false (stopDeltas s.prof s.mergedTouch s.hasPizz n x.2) s)
  else s

/-- R35: the keys of one division of a lost console fall. -/
def dropDivision (c : Nat) (s : State) (d : Nat) : State :=
  (List.range (s.prof.keyCount d)).foldl (fun s k => setTouch c d k .up s) s

/-- R36: the console in slot `c`, station `a`, holds something that its loss takes away. -/
def State.holdsSomething (s : State) (a : Station) (c : Nat) : Bool :=
  (s.slot c).touch.entries.any (fun e => e.2 != .up) || s.ownsShoe c ||
    s.dt.tuning.any (fun h => h.setter == a)

/-- R58: the tuning hold ends if station `a` set it. -/
def endHoldOf (a : Station) (s : State) : State :=
  if s.dt.tuning.any (fun h => h.setter == a) then endHold s else s

/-- R35: the loss of the console bound to slot `c`. -/
def consoleLoss (a : Station) (c : Nat) (s : State) : State :=
  let held := s.holdsSomething a c
  let s := (List.range 8).foldl (dropDivision c) s
  let s := endHoldOf a (releaseShoes c s)
  let s := s.setSlot c { station := none, touch := .empty }
  if held then reportFault .consoleLost a.val c s else s

/-- R22, R35, R36: PT has declared a station lost. A station leaves the refused set at its loss. -/
def stationLost (a : Station) (s : State) : State :=
  let s := { s with km := { s.km with refused := s.km.refused.set a.val false } }
  match s.slotOf a with
  | some c => consoleLoss a c s
  | none => endHoldOf a s

/-- R38: one key of the ALL-OFF walk. -/
def allOffKey (d : Nat) (s : State) (k : Nat) : State :=
  if s.mergedTouch d k = .up then s
  else remerge true d k ((List.range 4).foldl (fun s c => s.setSlotTouch c d k .up) s)

/-- R38: the ALL-OFF walk over the keys of one division. -/
def allOffDivision (s : State) (d : Nat) : State := (List.range (s.prof.keyCount d)).foldl (allOffKey d) s

/-- R38, R39: ALL-OFF. -/
def allOff (s : State) : State := endHold ((List.range 8).foldl allOffDivision (eeAllOff s))

end Sys2Proof.Machine
end

