-- ==== Sys2Proof/Machine/Crc.lean ====
section
/-! DEFINITION. The check of R154, which frames and the profile image's body (R182) share. -/

namespace Sys2Proof.Machine

/-- R154: one data bit: the remainder shifts toward its top, and bits 12, 5 and 0 invert where the bit shifted out
differs from the data bit. -/
def checkBit (r : BitVec 16) (b : Bool) : BitVec 16 :=
  if r.msb != b then (r <<< 1) ^^^ 0x1021#16 else r <<< 1

/-- R154: one byte, most significant bit first. -/
def checkByte (r : BitVec 16) (b : Byte) : BitVec 16 :=
  [7, 6, 5, 4, 3, 2, 1, 0].foldl (fun r i => checkBit r (b.getLsbD i)) r

/-- R154: the remainder over a run of bytes, from all ones. -/
def checkOf (bytes : List Byte) : BitVec 16 := bytes.foldl checkByte 0xFFFF#16

end Sys2Proof.Machine
end

