-- ==== Sys2Proof/Machine/ProfileImage.lean ====
section
/-! DEFINITION. The profile image: its layout (R181), the checks in reading order (R182 with R2, R6, R80, R103, R117,
R125, R176) and the clamping of its fields (R3, R4, R5, R62, R80, R103, R117, R125, R134, R170). -/

namespace Sys2Proof.Machine

/-- R182: a structural fault: the section (0 for the header), the code and the faulty record. -/
structure LoadFault where
  sectionNo : Nat
  code : Nat
  source : Nat
  deriving DecidableEq, Repr, Inhabited

/-- A byte of the memory; what does not answer reads as all ones (R180). -/
def byteAt (m : List Byte) (i : Nat) : Nat := (m.getD i 0xFF#8).toNat

/-- R181: a two-byte field, most significant byte first. -/
def wordAt (m : List Byte) (i : Nat) : Nat := byteAt m i * 256 + byteAt m (i + 1)

/-- `n` bytes of the memory from byte `i`. -/
def bytesAt (m : List Byte) (i n : Nat) : List Byte :=
  let have_ := (m.drop i).take n
  have_ ++ List.replicate (n - have_.length) 0xFF#8

/-- R180: the profile tag, bytes 4 and 5 of the header. -/
def imageTag (m : List Byte) : BitVec 16 := BitVec.ofNat 16 (wordAt m 4)

/-- A record as the list of its bytes. -/
abbrev Record := List Nat

/-- Byte `i` of a record. -/
def Record.byte (r : Record) (i : Nat) : Nat := r.getD i 0

/-- The two-byte field at byte `i` of a record. -/
def Record.word (r : Record) (i : Nat) : Nat := r.byte i * 256 + r.byte (i + 1)

/-- Bit `i` of byte `b`. -/
def bitOf (b i : Nat) : Bool := b / 2 ^ i % 2 == 1

/-- `count` records of `size` bytes from byte `i`. -/
def recordsAt (m : List Byte) (i size count : Nat) : List Record :=
  (List.range count).map fun n => (List.range size).map fun j => byteAt m (i + n * size + j)

/-- R181: an absent entry or field. -/
def absentAt (none' v : Nat) : Option Nat := if v = none' then none else some v

/-! ### Reading a record, its fields clamped -/

/-- R170: a chain's length: whole stages of 8, at most 384. -/
def roundLength (n : Nat) : Nat := min 384 ((n + 7) / 8 * 8)

/-- R170: the refresh interval: 0 is off, 1 to 3 are taken as 4. -/
def clampRefresh (n : Nat) : Nat := if n = 0 then 0 else max 4 n

/-- R134: the wake mask's bits. -/
def readWakeMask (b : Nat) : WakeMask :=
  { start := bitOf b 0, line := bitOf b 1, localPower := bitOf b 2, play := bitOf b 3 }

/-- R181 section 1. -/
def readParams (r : Record) : StationParams :=
  { pizzicatoWindow := clamp 30 500 (r.word 0)
    budget := clamp 8 255 (r.byte 2)
    actionRunLimit := clamp 1 15 (r.byte 3)
    chainLengths := [roundLength (r.word 4), roundLength (r.word 6), roundLength (r.word 8), roundLength (r.word 10)]
    refreshInterval := clampRefresh (r.byte 12)
    wakeMask := readWakeMask (r.byte 13)
    syncSet := BitVec.ofNat 16 (r.word 14)
    syncTimeout := clamp 1 30 (r.byte 16)
    restDelay := min 120 (r.byte 17) }

/-- R4: division `d`. -/
def readDivision (d : Nat) (r : Record) : Division :=
  { keyCount := clamp 1 (if d = 7 then 32 else 64) (r.byte 0), baseNote := min 96 (r.byte 1) }

/-- R181: a window's kind. -/
def windowKindOf : Nat → WindowKind
  | 0 => .pipe | 1 => .bar | 2 => .trap | _ => .aux

/-- R3: a window; a field that its kind does not carry is not read (R1). -/
def readWindow (r : Record) : Window :=
  let kind := windowKindOf (r.byte 0 / 64)
  { kind := kind
    first := r.word 1
    size := r.word 3
    firstNote := if kind = .pipe ∨ kind = .bar then min 127 (r.byte 5) else 0
    weight := clamp 1 4 (r.byte 6)
    pullIn := clamp 4 40 (r.byte 7)
    strikeWidth := if kind = .bar then clamp 4 40 (r.byte 8) else 0
    reiteration := if kind = .bar then clamp 40 250 (r.byte 9) else 0
    claimGroup := if kind = .trap then r.byte 0 % 16 else 0 }

/-- R181: a stop entry's kind number, division and stop number. -/
def entryKindNo (r : Record) : Nat := r.word 0 / 16384
/-- The division of a stop entry. -/
def entryDivision (r : Record) : Nat := r.word 0 / 2048 % 8
/-- The stop number of a stop entry. -/
def entryStop (r : Record) : Nat := r.word 0 % 1024
/-- The touch condition number of a stop entry. -/
def entryCondition (r : Record) : Nat := r.byte 4 % 4

/-- R181: a touch condition. -/
def conditionOf : Nat → TouchCondition
  | 0 => .first | 1 => .second | _ => .pizz

/-- R181: a signed byte. -/
def signedByte (b : Nat) : Int := if b < 128 then b else (b : Int) - 256

/-- R5: the pitch offset, clamped. -/
def clampOffset (n : Int) : Int := max (-36) (min 48 n)

/-- R5: a stop entry that has passed R6. -/
def readEntry (r : Record) : StopEntry :=
  { stop := entryStop r
    division := entryDivision r
    kind :=
      match entryKindNo r with
      | 0 =>
        .voice (r.byte 2) (clampOffset (signedByte (r.byte 3))) (if bitOf (r.byte 4) 2 then .reiterate else .single)
          (if bitOf (r.byte 4) 3 then .silent else .breakBack) (if bitOf (r.byte 4) 4 then .silent else .breakBack)
          (conditionOf (entryCondition r))
      | 1 => .trem (r.byte 2)
      | _ => .trap (r.byte 2) (conditionOf (entryCondition r)) }

/-- R80: an effect. An ON entry is never absent: 65535 there is an entry beyond the stored length (log 24, the model's
reading). -/
def readEffect (r : Record) : Effect :=
  { mode := if bitOf (r.byte 0) 0 then .level else .edge
    priority := min 7 (r.byte 1)
    group := r.byte 2
    onEntry := r.word 3
    offEntry := absentAt 65535 (r.word 5)
    stud := absentAt 255 (r.byte 7)
    cueLine := absentAt 255 (r.byte 8) }

/-- R181: a tremulant mode. -/
def tremModeOf : Nat → TremMode
  | 0 => .free | 1 => .lead | _ => .follow

/-- R117: a tremulant group; the width is clamped with the clamped period. -/
def readGroup (r : Record) : TremGroup :=
  let period := clamp 60 400 (r.word 2)
  { output := r.word 0
    period := period
    width := clamp 10 (period - 10) (r.word 4)
    mode := tremModeOf (r.byte 6)
    tag := Fin.ofNat 16 (r.byte 7)
    leader := Fin.ofNat 16 (r.byte 8) }

/-- R125: a shutter set. -/
def readSet (r : Record) : ShutterSet :=
  { shoe := r.byte 0 % 8
    first := r.word 1
    stages := clamp 1 16 (r.byte 3)
    hysteresis := min 8 (r.byte 4)
    interval := clamp 10 200 (r.byte 5)
    ownerHold := clamp 500 5000 (r.word 6) }

/-- R181: a line function. -/
def lineFunctionOf : Nat → LineFunction
  | 0 => .none | 1 => .pressure | 2 => .power | 3 => .cue | 4 => .alloff | 5 => .blower | 6 => .supply
  | 7 => .readyLamp | _ => .general

/-- R176: a local line. -/
def readLine (r : Record) : LineRecord :=
  { function := lineFunctionOf (r.byte 0), debounceCode := r.byte 1 % 8, effect := r.byte 2 }

/-- R181: the output that a STRIKE, HOLD or LIFT step names. -/
def stepOutput (r : Record) : Nat := r.byte 1 % 8 * 256 + r.byte 2

/-- R103, R181: a step. -/
def readStep (r : Record) : ScriptStep :=
  match r.byte 0 with
  | 0 => .wait (clamp 1 60000 (r.word 1))
  | 1 => .strike (stepOutput r) (clamp 4 250 (r.byte 3))
  | 2 => .hold (stepOutput r)
  | 3 => .lift (stepOutput r)
  | 4 => .loop (r.byte 1 % 2 * 256 + r.byte 2) (r.byte 3) (if bitOf (r.byte 1) 7 then .b else .a)
  | 5 => .mark (Fin.ofNat 64 (min 63 (r.byte 1)))
  | 6 => .await (Fin.ofNat 64 (min 63 (r.byte 1))) (clamp 1 10000 (r.word 2))
  | 7 => .awaitLine (r.byte 1 % 16) (bitOf (r.byte 1) 7) (clamp 1 60000 (r.word 2))
  | 8 => .setLine (r.byte 1 % 16) (bitOf (r.byte 1) 7)
  | 9 => .rearm
  | _ => .done

/-! ### The checks -/

/-- A structural fault stops the reading. -/
def require (ok : Bool) (sectionNo code source : Nat) : Except LoadFault Unit :=
  if ok then .ok () else .error { sectionNo := sectionNo, code := code, source := source }

/-- The records of a section checked in order, each with those before it; the first fault found is the one reported. -/
def checkRecords {α : Type} (sectionNo : Nat) (fault : List α → Nat → α → Option Nat) :
    List α → List α → Except LoadFault Unit
  | _, [] => .ok ()
  | before, r :: rest =>
    match fault before before.length r with
    | some code => .error { sectionNo := sectionNo, code := code, source := before.length }
    | none => checkRecords sectionNo fault (before ++ [r]) rest

/-- A fault code where a condition holds. -/
def codeIf (bad : Bool) (code : Nat) : Option Nat := if bad then some code else none

/-- R2: the windows share an output. -/
def Window.overlaps (v w : Window) : Bool := decide (v.first < w.first + w.size ∧ w.first < v.first + v.size)

/-- R2: the window is badly placed. -/
def windowFault (p : StationParams) (before : List Window) (w : Window) : Option Nat :=
  let last := w.first + w.size - 1
  codeIf
    (w.size == 0 || decide (1535 < w.first) || decide (1535 < last) || chainOf w.first != chainOf last ||
      decide ((p.chainLengths[chainOf w.first]?).getD 0 ≤ last % 384) || before.any (·.overlaps w)) 5

/-- R6, R182: a stop entry's faults that need no later section. -/
def entryFault (ws : List Window) (r : Record) : Option Nat :=
  codeIf
    (match entryKindNo r with
      | 0 =>
        entryCondition r == 3 || entryDivision r == 7 ||
          (match ws[r.byte 2]? with
            | some w => w.kind == .trap || w.kind == .aux
            | none => true)
      | 1 => entryDivision r == 7
      | 2 => entryCondition r == 3 || entryCondition r == 2
      | _ => true) 6

/-- R80, R182: an effect's fields out of range. -/
def effectFault (e : Effect) : Option Nat :=
  codeIf (decide (15 < e.group) || e.stud.any (fun x => decide (31 < x)) || e.cueLine.any (fun x => decide (11 < x))) 6

/-- R117: output `o` lies in an AUX window. -/
def inAux (ws : List Window) (o : Nat) : Bool := ws.any (fun w => w.kind == .aux && w.contains o)

/-- R117, R182: a tremulant group's faults. -/
def groupFault (ws : List Window) (before : List Record) (r : Record) : Option Nat :=
  codeIf
    (decide (2 < r.byte 6) || !inAux ws (readGroup r).output ||
      before.any (fun b => (readGroup b).output == (readGroup r).output)) 6

/-- R125: the outputs of a shutter set. -/
def ShutterSet.uses (x : ShutterSet) (o : Nat) : Bool := decide (x.first ≤ o ∧ o < x.first + x.stages)

/-- R125: two shutter sets share an output. -/
def ShutterSet.shares (x y : ShutterSet) : Bool :=
  decide (x.first < y.first + y.stages ∧ y.first < x.first + x.stages)

/-- R125: a shutter set's faults. -/
def setFault (ws : List Window) (groups : List TremGroup) (before : List ShutterSet) (x : ShutterSet) : Option Nat :=
  codeIf
    (!ws.any (fun w => w.kind == .aux && w.contains x.first && w.contains (x.first + x.stages - 1)) ||
      groups.any (fun g => x.uses g.output) || before.any (·.shares x)) 6

/-- R176, R182: line `l`'s faults. -/
def lineFault (effects : List Effect) (l : Nat) (r : Record) : Option Nat :=
  codeIf
    (decide (8 < r.byte 0) ||
      (r.byte 0 == 3 &&
        (match effects[r.byte 2]? with
          | some e => e.cueLine != some l
          | none => true))) 6

/-- R80: effect `e` names a cue line that does not name it. -/
def cueFault (lines : List LineRecord) (e : Nat) (x : Effect) : Option Nat :=
  match x.cueLine with
  | none => none
  | some l =>
    codeIf
      (match lines[l]? with
        | some r => r.function != .cue || r.effect != e
        | none => true) 6

/-- R103, R182: a step's faults that no reachability is needed for; `n` is the stored length. -/
def stepFault (n : Nat) (r : Record) : Option Nat :=
  if 10 < r.byte 0 ∨ ((r.byte 0 = 7 ∨ r.byte 0 = 8) ∧ 11 < r.byte 1 % 16) then some 6
  else codeIf (r.byte 0 == 4 && decide (n ≤ r.byte 1 % 2 * 256 + r.byte 2)) 7

/-- R80, R103: an entry at or beyond the stored length. -/
def entryBeyond (n : Nat) (e : Option Nat) : Bool := e.any (fun x => decide (n ≤ x))

/-- R102: where execution goes from a step. -/
def successors (steps : List ScriptStep) (i : Nat) : List Nat :=
  match steps[i]? with
  | some .done | none => []
  | some (.loop target _ _) => [target, i + 1]
  | some _ => [i + 1]

/-- R102: the steps reached from a worklist; each step is expanded once. -/
def reachFrom (steps : List ScriptStep) : Nat → List Nat → List Nat → List Nat
  | 0, _, seen => seen
  | _ + 1, [], seen => seen
  | n + 1, i :: work, seen =>
    if i ∈ seen ∨ steps.length ≤ i then reachFrom steps n work seen
    else reachFrom steps n (successors steps i ++ work) (i :: seen)

/-- R102: the steps reachable from an entry. -/
def reachable (steps : List ScriptStep) (entry : Option Nat) : List Nat :=
  match entry with
  | none => []
  | some e => reachFrom steps (2 * steps.length + 1) [e] []

/-- R103: output `o` lies in a TRAP window of claim group `g`. -/
def inTrapOf (ws : List Window) (g o : Nat) : Bool :=
  ws.any (fun w => w.kind == .trap && w.claimGroup == g && w.contains o)

/-- The function of a line in the image. -/
def functionIn (lines : List LineRecord) (l : Nat) : LineFunction := ((lines[l]?).map (·.function)).getD .none

/-- R103: what an effect of group `g` may not reach. -/
def effectStepFault (ws : List Window) (lines : List LineRecord) (g : Nat) (st : ScriptStep) : Option Nat :=
  match st with
  | .strike o _ | .hold o | .lift o => codeIf (!inTrapOf ws g o) 8
  | .awaitLine _ _ _ => some 6
  | .setLine l _ => codeIf (functionIn lines l != .general) 6
  | .wait _ | .loop _ _ _ | .mark _ | .await _ _ | .rearm | .done => none

/-- R103: what a chamber entry may not reach. -/
def chamberStepFault (lines : List LineRecord) (st : ScriptStep) : Option Nat :=
  match st with
  | .strike _ _ | .hold _ | .lift _ => some 6
  | .setLine l _ => codeIf (!(functionIn lines l).isOutput) 6
  | .wait _ | .loop _ _ _ | .mark _ | .await _ _ | .awaitLine _ _ _ | .rearm | .done => none

/-- R103: the fault of step `i` that its entries give it, in the order of R103's list (log 8). `effects` lists each
effect's group with the steps its entries reach, `chamber` the steps that the chamber entries reach. -/
def reachFault (ws : List Window) (lines : List LineRecord) (n : Nat) (effects : List (Nat × List Nat))
    (chamber : List Nat) (i : Nat) (st : ScriptStep) : Option Nat :=
  let reached := effects.filter (fun x => x.2.contains i)
  if (reached ≠ [] ∨ i ∈ chamber) ∧ st ≠ .done ∧ i + 1 = n then some 7
  else
    match reached.findSome? (fun x => effectStepFault ws lines x.1 st) with
    | some code => some code
    | none => if i ∈ chamber then chamberStepFault lines st else none

/-- R182, R183: the sections of an image whose body has `body` bytes, checked in reading order and clamped into the
profile. -/
def loadSections (m : List Byte) (body : Nat) : Except LoadFault Profile := do
  let params := readParams ((recordsAt m 8 18 1).getD 0 [])
  let divisions := (recordsAt m 26 2 8).mapIdx readDivision
  -- section 3
  let nw := wordAt m 42
  require (decide (nw ≤ 32)) 3 4 0
  let windows := (recordsAt m 44 10 nw).map readWindow
  checkRecords 3 (fun before _ w => windowFault params before w) [] windows
  -- section 4
  let at4 := 44 + 10 * nw
  let ns := wordAt m at4
  require (decide (ns ≤ 256)) 4 4 0
  let rawEntries := recordsAt m (at4 + 2) 5 ns
  checkRecords 4 (fun _ _ r => entryFault windows r) [] rawEntries
  -- section 5, and the TRAP entries of section 4 that waited for it
  let at5 := at4 + 2 + 5 * ns
  let ne := wordAt m at5
  require (decide (ne ≤ 32)) 5 4 0
  let effects := (recordsAt m (at5 + 2) 9 ne).map readEffect
  checkRecords 5 (fun _ _ e => effectFault e) [] effects
  checkRecords 4 (fun _ _ r => codeIf (entryKindNo r == 2 && decide (ne ≤ r.byte 2)) 6) [] rawEntries
  -- section 6, and the TREM entries of section 4
  let at6 := at5 + 2 + 9 * ne
  let ng := wordAt m at6
  require (decide (ng ≤ 4)) 6 4 0
  let rawGroups := recordsAt m (at6 + 2) 9 ng
  checkRecords 6 (fun before _ r => groupFault windows before r) [] rawGroups
  checkRecords 4 (fun _ _ r => codeIf (entryKindNo r == 1 && decide (ng ≤ r.byte 2)) 6) [] rawEntries
  let groups := rawGroups.map readGroup
  -- section 7
  let at7 := at6 + 2 + 9 * ng
  let nx := wordAt m at7
  require (decide (nx ≤ 2)) 7 4 0
  let sets := (recordsAt m (at7 + 2) 8 nx).map readSet
  checkRecords 7 (fun before _ x => setFault windows groups before x) [] sets
  -- section 8, and the cue lines of section 5
  let at8 := at7 + 2 + 8 * nx
  let rawLines := recordsAt m at8 3 12
  checkRecords 8 (fun _ l r => lineFault effects l r) [] rawLines
  let lines := rawLines.map readLine
  checkRecords 5 (fun _ e x => cueFault lines e x) [] effects
  -- sections 9 and 10
  let at9 := at8 + 36
  let entries := (recordsAt m at9 6 1).getD 0 []
  let wakeEntry := absentAt 65535 (entries.word 0)
  let restEntry := absentAt 65535 (entries.word 2)
  let darkEntry := absentAt 65535 (entries.word 4)
  let at10 := at9 + 6
  let n := wordAt m at10
  require (decide (n ≤ 512)) 10 4 0
  let rawSteps := recordsAt m (at10 + 2) 4 n
  checkRecords 10 (fun _ _ r => stepFault n r) [] rawSteps
  let steps := rawSteps.map readStep
  checkRecords 5 (fun _ _ e => codeIf (entryBeyond n (some e.onEntry) || entryBeyond n e.offEntry) 7) [] effects
  require (!(entryBeyond n wakeEntry || entryBeyond n restEntry || entryBeyond n darkEntry)) 9 7 0
  let effectReach := effects.map fun e =>
    (e.group, reachable steps (some e.onEntry) ++ reachable steps e.offEntry)
  let chamberReach := reachable steps wakeEntry ++ reachable steps restEntry ++ reachable steps darkEntry
  checkRecords 10 (fun _ i st => reachFault windows lines n effectReach chamberReach i st) [] steps
  require (at10 + 2 + 4 * n == 8 + body) 0 3 0
  return {
    params := params, divisions := divisions, windows := windows, entries := rawEntries.map readEntry,
    effects := effects, groups := groups, sets := sets, lines := lines, wakeEntry := wakeEntry,
    restEntry := restEntry, darkEntry := darkEntry, steps := steps }

/-- R182: PF checks the image in reading order and stops at the first structural fault: the identifier, the body's length,
the body's check, and then its sections. R183: an image that passes is clamped into the profile. -/
def loadImage (m : List Byte) : Except LoadFault Profile := do
  require (wordAt m 0 == 3624) 0 1 0
  require (decide (wordAt m 2 ≤ 16376)) 0 3 0
  require ((checkOf (bytesAt m 8 (wordAt m 2))).toNat == wordAt m 6) 0 2 0
  loadSections m (wordAt m 2)

end Sys2Proof.Machine
end

