-- ==== Sys2Proof/Machine/Startup.lean ====
section
/-! DEFINITION. Resets, loading and the record: the commands POWER_ON, PIN_RESET, END_OF_PIN_RESET,
PROFILE_HEADER_READ, PROFILE_LOAD_END and PRESENCE_PERIOD_EXPIRY (11, R180 to R185; 09, R164), and the shape that every
other command's meaning has. -/

namespace Sys2Proof.Machine

/-- The outcome of a step of this machine. -/
abbrev Result := Host.Outcome State Fault Refusal

/-- A command that reaches the part at moment `t`. While NRST is low the part takes nothing (log 5). After the command,
runner 0 takes the pass that a driven line may have made due (R113). -/
def taken (t : Nat) (f : State → State) (s : State) : Result :=
  .next (if (s.arrive t).pf.held then s.arrive t else runChamber (f (s.arrive t)))

/-- From acceptance onward (R20, R40, R55, R145): before it, and in PROFILE_FAULT, nothing is taken. -/
def accepted (f : State → State) (s : State) : State := if s.profile.isSome then f s else s

/-- Every block at its reset values (R7, R20, R40, R62, R81, R104, R117, R125, R134, R159, R166, R170, R176), the straps
read and the tag 0 (R180). The clock, the raw levels of the local lines' pins, the count of free orders and the queue of
commands are not the part's to reset. -/
def resetBlocks (cause : Cause) (straps : Station) (s : State) : State :=
  { State.reset with
    now := s.now
    ll := ⟨s.ll.entries.filterMap fun e =>
      if e.2.raw then some (e.1, { raw := true, debounced := false, debounce := none, driven := false }) else none⟩
    li := { State.reset.li with queue := [], presencePeriod := none }
    pf := { s.pf with station := straps, tag := 0, cause := cause, held := false, resetAt := some s.now }
    choices := s.choices
    pending := s.pending }

/-- R185: a power-on reset also empties the fault record and the seen-kinds set. -/
def emptyRecord (s : State) : State := { s with pf := { s.pf with record := none, later := false, seen := 0 } }

/-- R164, R180: the end of a reset: PRESENCE carrying LOADING is handed over and the 200 ms period starts. -/
def endReset (s : State) : State :=
  let s := handPresence s
  { s with li := { s.li with presencePeriod := s.after (ms 200) } }

/-- POWER_ON (R185). -/
def execPowerOn (t : Nat) (straps : Station) (s : State) : Result :=
  .next (endReset (emptyRecord (resetBlocks .powerOn straps (s.arrive t))))

/-- R185: the cause of a pin reset: PIN, but a reset taken at this same moment (a RESTART, or power coming up) leaves its
cause, since the two restart the part once. -/
def State.pinCause (s : State) : Cause := if s.pf.resetAt = some s.now then s.pf.cause else .pin

/-- PIN_RESET (R185): the part is held in reset until NRST returns high. -/
def execPinReset (t : Nat) (straps : Station) (s : State) : Result :=
  let s := s.arrive t
  let u := resetBlocks s.pinCause straps s
  .next { u with pf := { u.pf with held := true } }

/-- END_OF_PIN_RESET (R180, R164). -/
def execEndOfPinReset (t : Nat) (s : State) : Result :=
  let s := s.arrive t
  .next (if s.pf.held then endReset { s with pf := { s.pf with held := false } } else s)

/-- R185: a RESTART names this station in its mask. -/
def State.named (s : State) (mask : BitVec 16) : Bool := mask.getLsbD s.pf.station.val

/-- PROFILE_HEADER_READ (R180): PF takes the tag as soon as it has read it. -/
def execProfileHeaderRead (t : Nat) (tag : BitVec 16) : State → Result :=
  taken t fun s => if s.ch.state = .loading then { s with pf := { s.pf with tag := tag } } else s

/-- R176: what acceptance makes of local line `l`. -/
def acceptLine (s : State) (l : Nat) : State :=
  let raw := (s.line l).raw
  s.setLine l
    { raw := raw, debounced := (s.prof.lineFunction l).isInput && raw, debounce := none, driven := false }

/-- R183: acceptance: LL sets its lines, EE reads the cue levels, CC starts its all-off shifts, and the chamber enters
DARK and is offered START. -/
def acceptProfile (p : Profile) (s : State) : State :=
  let s := (List.range 12).foldl acceptLine { s with profile := some p }
  let s := (List.range p.effects.length).foldl takeCueLevel s
  let s := (List.range 4).foldl (fun s c => startShift c s) s
  offerWake .start (moveTo .dark s)

/-- R182, R184: refusal: PROFILE_FAULT, with the code-14 report. That the report is recorded before the PRESENCE of the
entry is handed over, so that this PRESENCE carries the fault-present flag, is the model's reading (log 12). -/
def refuseProfile (x : LoadFault) (s : State) : State :=
  handPresence (reportFault .profileRefusal x.source (x.sectionNo * 256 + x.code) (s.withChamber .profileFault))

/-- R182: the image has been read and is checked. -/
def loadEnds (image : List Byte) (s : State) : State :=
  let s := { s with pf := { s.pf with tag := imageTag image } }
  match loadImage image with
  | .ok p => acceptProfile p s
  | .error x => refuseProfile x s

/-- PROFILE_LOAD_END (R182). -/
def execProfileLoadEnd (t : Nat) (image : List Byte) : State → Result :=
  taken t fun s => if s.ch.state = .loading then loadEnds image s else s

/-- PRESENCE_PERIOD_EXPIRY (R164): the period runs on its own, in every state. -/
def execPresencePeriodExpiry (t : Nat) : State → Result :=
  taken t fun s =>
    if s.expired s.li.presencePeriod then
      handPresence { s with li := { s.li with presencePeriod := s.li.presencePeriod.map (· + ms 200) } }
    else s

end Sys2Proof.Machine
end

