-- ==== Sys2Proof/Machine/Frames.lean ====
section
/-! DEFINITION. The commands that are received frames (09, R155, R163, R166, and the rules of the blocks that take
them). -/

namespace Sys2Proof.Machine

/-- R167: the silence timer of station `a`, a HEARD one, has run out. -/
def State.silenceOver (s : State) (a : Station) : Bool :=
  decide ((s.peer a).state = .heard) && s.expired (s.peer a).silence

/-- R166: PT hears the sender of a checked frame. A frame that finds the silence timer run out starts it afresh (R168);
the loss of that moment may still reach KM after the frame (R37, R59; log 21, the model's reading). -/
def heard (a : Station) (s : State) : State :=
  s.setPeer a
    { s.peer a with
      state := .heard, silence := s.after (ms 600),
      crossed := if s.silenceOver a then some { moment := s.now, presence := false } else (s.peer a).crossed }

/-- R155: a checked frame: PT hears its sender and LI hands it on; in PROFILE_FAULT neither happens. -/
def frame (t : Nat) (a : Station) (f : State → State) : State → Result :=
  taken t fun s => if s.ch.state = .profileFault then s else f (heard a s)

/-- R155: the detail code of a reason. -/
def CheckReason.code : CheckReason → Nat
  | .framing => 1 | .length => 2 | .kind => 3 | .check => 4

/-- LINE_CHECK (R155): recorded, but not in PROFILE_FAULT. -/
def execLineCheck (t : Nat) (sender : Station) (reason : CheckReason) : State → Result :=
  taken t fun s =>
    if s.ch.state = .profileFault then s else reportFault .lineCheck sender.val (CheckReason.code reason) s

/-- ALLOFF (R38, R39). -/
def execAlloff (t : Nat) (sender : Station) : State → Result := frame t sender (accepted allOff)

/-- RESTART (R185). -/
def execRestart (t : Nat) (sender : Station) (mask : BitVec 16) (straps : Station) : State → Result :=
  frame t sender fun s => if s.named mask then endReset (resetBlocks .line straps s) else s

/-- R22, R186: class x 8 + kind code of the frames that bind. -/
def keysDetail : Nat := 8
/-- The detail of a refused SNAP. -/
def snapDetail : Nat := 9
/-- The detail of a refused SHOE. -/
def shoeDetail : Nat := 10
/-- The detail of a refused STOPS. -/
def stopsDetail : Nat := 16

/-- KEYS (R21 to R24). -/
def execKeys (t : Nat) (sender : Station) (division : Fin 8) (changes : List (Fin 64 × BitVec 2)) : State → Result :=
  frame t sender (accepted (withSlot sender keysDetail fun c s => changes.foldl (keyChange c division.val) s))

/-- SNAP (R25). -/
def execSnap (t : Nat) (sender : Station) (division : Fin 8) (codes : List (BitVec 2)) : State → Result :=
  frame t sender (accepted (withSlot sender snapDetail fun c s => snapKeys c division.val codes s))

/-- SHOE (R126). -/
def execShoe (t : Nat) (sender : Station) (pairs : List (Fin 8 × Byte)) : State → Result :=
  frame t sender (accepted (withSlot sender shoeDetail fun c s => takePairs c pairs s))

/-- STOPS (R29). -/
def execStops (t : Nat) (sender : Station) (changes : List (Fin 1024 × Bool)) : State → Result :=
  frame t sender (accepted (withSlot sender stopsDetail fun _ s => changes.foldl stopChange s))

/-- BEAT (R122). -/
def execBeat (t : Nat) (sender : Station) (tag : Fin 16) : State → Result :=
  frame t sender (accepted (offerBeat sender tag))

/-- R112: the context awaits mark `m`. -/
def Context.awaitsMark (c : Context) (m : Fin 64) : Bool :=
  match c.waiting with
  | .await m' (.due _) => m' == m
  | _ => false

/-- R105: a runner whose wait is over takes its pass from the next step. -/
def resumePass (r : Nat) (c : Context) (s : State) : State :=
  if r = 0 then runChamber (s.setRunner 0 (some c.resumed)) else runEffect r c.resumed s

/-- R112: runner `r` takes mark `m` if it awaits it. -/
def takeMark (m : Fin 64) (r : Nat) (s : State) : State :=
  match s.runner r with
  | some c => if c.awaitsMark m then resumePass r c s else s
  | none => s

/-- R116: the runners whose AWAIT for mark `m` has begun. -/
def State.awaiting (s : State) (m : Fin 64) : List Nat :=
  (List.range 8).filter (fun r => (s.runner r).any (·.awaitsMark m))

/-- R116: mark `m` satisfies every runner that awaits it; the passes may be taken in any order (log 3). -/
def offerMark (m : Fin 64) (s : State) : State := inAnyOrder (takeMark m) 8 (s.awaiting m) s

/-- MARK (R116). -/
def execMark (t : Nat) (sender : Station) (mark : Fin 64) : State → Result :=
  frame t sender (accepted (offerMark mark))

/-- CHAMBER_WAKE (R145). -/
def execChamberWake (t : Nat) (sender : Station) (mask : BitVec 16) : State → Result :=
  frame t sender (accepted fun s => if s.named mask then offerWake .line s else s)

/-- CHAMBER_REST (R145, R146). -/
def execChamberRest (t : Nat) (sender : Station) (mask : BitVec 16) : State → Result :=
  frame t sender (accepted fun s => if s.named mask = true ∧ s.ch.state = .ready then enterSettling s else s)

/-- R145: the states in which the command DARK is taken. -/
def ChamberState.takesDark : ChamberState → Bool
  | .winding | .gathering | .ready | .settling | .resting => true
  | .loading | .profileFault | .dark | .darkening => false

/-- CHAMBER_DARK (R145, R147). -/
def execChamberDark (t : Nat) (sender : Station) (mask : BitVec 16) : State → Result :=
  frame t sender (accepted fun s => if s.named mask = true ∧ s.ch.state.takesDark = true then enterDarkening s else s)

/-- R55: the output may be held: it lies in a PIPE or BAR window. -/
def State.holdable (s : State) (o : Nat) : Bool :=
  decide (o ≤ 1535) && (s.prof.windowOf o).any (fun w => w.kind == .pipe || w.kind == .bar)

/-- R55, R56: a TUNE frame naming this station. -/
def takeTune (sender : Station) (output : BitVec 16) (s : State) : State :=
  let o := output.toNat
  if o = 65535 then endHold s
  else if s.holdable o then
    if s.dt.tuning.map (·.output) = some o then
      { s with dt := { s.dt with tuning := some { output := o, setter := sender } } }
    else moveHold (some { output := o, setter := sender }) s
  else s

/-- TUNE (R55, R56, R163). -/
def execTune (t : Nat) (sender : Station) (station : Station) (output : BitVec 16) : State → Result :=
  frame t sender (accepted fun s => if station = s.pf.station then takeTune sender output s else s)

/-- CLEAR (R187): one that finds the record empty is ignored. -/
def execClear (t : Nat) (sender : Station) (mask : BitVec 16) : State → Result :=
  frame t sender fun s => if s.named mask = true ∧ s.pf.record.isSome = true then emptyRecord s else s

/-- R188: the output is PULLING or HOLDING. -/
def OutState.sounds : OutState → Bool
  | .pulling _ | .holding => true
  | .off | .waiting | .striking _ _ => false

/-- R188: the number of PIPE outputs PULLING or HOLDING. -/
def State.sounding (s : State) : Nat :=
  (s.pa.outs.entries.filter fun e =>
    ((s.prof.windowOf e.1).any (fun w => w.kind == .pipe)) && e.2.sounds).length

/-- R188: a REPORT of what the blocks hold. -/
def State.report (s : State) : Report :=
  { state := s.ch.state
    cause := s.pf.cause
    later := s.pf.later
    chains := (List.range 4).map (fun c => (s.chain c).status)
    tag := s.pf.tag
    record := s.pf.record
    seen := s.pf.seen
    sounding := s.sounding
    speechDepth := s.pa.speech.length
    actionDepth := s.pa.action.length
    units := s.pa.units
    holders := (List.range 32).map s.isHolder }

/-- ASK (R188): answered in every state; in PROFILE_FAULT PT is not told (R155). -/
def execAsk (t : Nat) (sender : Station) (station : Station) : State → Result :=
  taken t fun s =>
    let s := if s.ch.state = .profileFault then s else heard sender s
    if station = s.pf.station then handOver (.report s.report) s else s

/-- R163: the announced chamber state of a PRESENCE's state byte. -/
def announcedOf (b : Byte) : Option ChamberState :=
  match b.toNat with
  | 0 => some .loading | 1 => some .profileFault | 2 => some .dark | 3 => some .winding | 4 => some .gathering
  | 5 => some .ready | 6 => some .settling | 7 => some .resting | 8 => some .darkening | _ => none

/-- R166, R168: PT records the state that a PRESENCE announces. -/
def Peer.announcing (p : Peer) (st : Option ChamberState) : Peer :=
  { p with announced := st, crossed := p.crossed.map fun x => { x with presence := true } }

/-- PRESENCE (R166, R141). PT keeps neither the role nor the flags nor the tag (R165). -/
def execPresence (t : Nat) (sender : Station) (_role state _flags : Byte) (_tag : BitVec 16) : State → Result :=
  frame t sender fun s => judgeGathering (s.setPeer sender ((s.peer sender).announcing (announcedOf state)))

/-- REPORT_RECEIVED (R155): heard, and no more. -/
def execReportReceived (t : Nat) (sender : Station) (_payload : List Byte) : State → Result :=
  frame t sender fun s => s

end Sys2Proof.Machine
end

