-- ==== Sys2Proof/Machine/Timers.lean ====
section
/-! DEFINITION. The commands that are timers running out in KM, PT, DT, PA, the runners, TSU and CH. A timer's command
takes effect when the timer is running and its moment has come, and otherwise does nothing (log 1). -/

namespace Sys2Proof.Machine

/-- R167: the entry of a station that PT declares lost. -/
def Peer.declaredLost : Peer := { state := .lost, announced := none, silence := none, crossed := none }

/-- R37, R59, R168: the entry when the loss of the moment `now` is taken after a frame of that moment: PT declared the
station lost and then heard it again, so a state announced before stands no longer (log 21). -/
def Peer.crossedLoss (p : Peer) (now : Nat) : Option Peer :=
  match p.crossed with
  | some x =>
    if x.moment = now then some { p with announced := if x.presence then p.announced else none, crossed := none }
    else none
  | none => none

/-- R167: the entry of station `a` after its loss, if PT declares one now: the silence timer has run out, or a frame of
this same moment met its end (R37, R59). -/
def State.entryAtLoss (s : State) (a : Station) : Option Peer :=
  if s.silenceOver a then some .declaredLost else (s.peer a).crossedLoss s.now

/-- SILENCE_TIMER_EXPIRY (R167, R37, R59). KM takes no loss before acceptance (R20). -/
def execSilenceTimerExpiry (t : Nat) (station : Station) : State → Result :=
  taken t fun s =>
    if s.ch.state = .profileFault then s
    else
      match s.entryAtLoss station with
      | some entry => accepted (stationLost station) (s.setPeer station entry)
      | none => s

/-- R33: the pizzicato list holds an entry of the key whose time has come. -/
def State.pizzDue (s : State) (d k : Nat) : Bool :=
  s.km.pizzicato.any (fun e => e.division == d && e.key == k && decide (e.expiry ≤ s.now))

/-- PIZZICATO_EXPIRY (R33). -/
def execPizzicatoExpiry (t : Nat) (division : Fin 8) (key : Fin 64) : State → Result :=
  taken t fun s => if s.pizzDue division.val key.val then pizzExpiry division.val key.val s else s

/-- R49: an edge of the clock of window `w`. -/
def clockEdge (w : Nat) (s : State) : State :=
  let period := ms (((s.prof.windows[w]?).map (·.reiteration)).getD 0)
  let s := { s with dt := { s.dt with clocks := s.dt.clocks.set w ((s.dt.clocks.get w).map (· + period)) } }
  forOutputs strikeBar (s.dt.sets.get w) s

/-- REITERATION_CLOCK_EDGE (R49). -/
def execReiterationClockEdge (t : Nat) (window : Fin 32) : State → Result :=
  taken t fun s =>
    if s.isReady = true ∧ s.expired (s.dt.clocks.get window.val) = true then clockEdge window.val s else s

/-- PULL_IN_END (R74). -/
def execPullInEnd (t : Nat) (output : Fin 1536) : State → Result := taken t (pullInEnds output.val)

/-- STRIKE_END (R74). -/
def execStrikeEnd (t : Nat) (output : Fin 1536) : State → Result := taken t (strikeEnds output.val)

/-- R107, R112: the timer of a context's WAIT has run out. -/
def Context.waitOver (c : Context) (now : Nat) : Bool :=
  match c.waiting with
  | .wait x => x.expired now
  | .running | .await _ _ | .awaitLine _ _ _ => false

/-- WAIT_END (R107). -/
def execWaitEnd (t : Nat) (runner : Fin 8) : State → Result :=
  taken t fun s =>
    match s.runner runner.val with
    | some c => if c.waitOver s.now then resumePass runner.val c s else s
    | none => s

/-- R112: the timeout of a context's AWAIT has run out. -/
def Context.awaitOver (c : Context) (now : Nat) : Bool :=
  match c.waiting with
  | .await _ x => x.expired now
  | .running | .wait _ | .awaitLine _ _ _ => false

/-- AWAIT_TIMEOUT (R112). -/
def execAwaitTimeout (t : Nat) (runner : Fin 8) : State → Result :=
  taken t fun s =>
    match s.runner runner.val with
    | some c => if c.awaitOver s.now then resumePass runner.val c s else s
    | none => s

/-- R113: the line of a context's AWAITLINE whose timeout has run out. -/
def Context.lineOver (c : Context) (now : Nat) : Option Nat :=
  match c.waiting with
  | .awaitLine l _ x => if x.expired now then some l else none
  | .running | .wait _ | .await _ _ => none

/-- AWAITLINE_TIMEOUT (R113, R140): a WAKE script hands CH a timeout, a REST or DARK script goes on. -/
def execAwaitlineTimeout (t : Nat) : State → Result :=
  taken t fun s =>
    match s.runner 0 with
    | some c =>
      match c.lineOver s.now with
      | some l => if c.script = .wake then wakeTimeout l c.index s else resumePass 0 c s
      | none => s
    | none => s

/-- PHASE_0 (R120). -/
def execPhase0 (t : Nat) (group : Fin 4) : State → Result :=
  taken t fun s =>
    match (s.trem group.val).phase0 with
    | some due => if (s.trem group.val).running = true ∧ due ≤ s.now then phase0At due group.val s else s
    | none => s

/-- R120: phase W of group `g`. -/
def phaseWAt (g : Nat) (s : State) : State :=
  match s.tremGroup g with
  | none => s
  | some x => paRelease x.output (s.setTrem g { s.trem g with phaseW := none })

/-- PHASE_W (R120). -/
def execPhaseW (t : Nat) (group : Fin 4) : State → Result :=
  taken t fun s =>
    if (s.trem group.val).running = true ∧ s.expired (s.trem group.val).phaseW = true then phaseWAt group.val s else s

/-- R123: the follow-loss timer of group `g` runs out. -/
def followLost (g : Nat) (s : State) : State :=
  reportFault .followLost g (((s.tremGroup g).map (·.leader.val)).getD 0)
    (s.setTrem g { s.trem g with locked := false, loss := none })

/-- FOLLOW_LOSS_EXPIRY (R123). -/
def execFollowLossExpiry (t : Nat) (group : Fin 4) : State → Result :=
  taken t fun s =>
    if (s.trem group.val).locked = true ∧ s.expired (s.trem group.val).loss = true then followLost group.val s else s

/-- OWNER_HOLD_EXPIRY (R127). -/
def execOwnerHoldExpiry (t : Nat) (set : Fin 2) : State → Result :=
  taken t fun s =>
    if s.expired (s.shutter set.val).ownerHold then
      s.setShutter set.val { s.shutter set.val with owner := none, ownerHold := none }
    else s

/-- R129: the step timer of set `x` runs out. -/
def stepTimerEnds (x : Nat) (s : State) : State :=
  if s.isReady = true ∧ (s.shutter x).stage ≠ (s.shutter x).target then shutterStep x s
  else s.setShutter x { s.shutter x with stepTimer := none }

/-- STEP_TIMER_EXPIRY (R129). -/
def execStepTimerExpiry (t : Nat) (set : Fin 2) : State → Result :=
  taken t fun s => if s.expired (s.shutter set.val).stepTimer then stepTimerEnds set.val s else s

/-- SYNC_TIMEOUT (R142). -/
def execSyncTimeout (t : Nat) : State → Result :=
  taken t fun s => if s.ch.state = .gathering ∧ s.expired s.ch.sync = true then syncShort s else s

/-- REST_TIMER_EXPIRY (R144). -/
def execRestTimerExpiry (t : Nat) : State → Result :=
  taken t fun s => if s.isReady = true ∧ s.expired s.ch.rest = true then restExpires s else s

end Sys2Proof.Machine
end

