-- ==== Sys2Proof/Machine/Wiring.lean ====
section
/-! DEFINITION. The commands of the driver chains and the local lines (10, R172 to R178). -/

namespace Sys2Proof.Machine

/-- R172: the shift of chain `c` has run its time. -/
def State.shiftOver (s : State) (c : Nat) : Bool := (s.chain c).shift.any (fun x => decide (x.ends ≤ s.now))

/-- SHIFT_END (R171, R172, R174, R175). -/
def execShiftEnd (t : Nat) (chain : Fin 4) (returned : List Bool) : State → Result :=
  taken t fun s =>
    if s.shiftOver chain.val then
      endShift chain.val (returnedPositions (s.prof.chainLength chain.val) returned) s
    else s

/-- REFRESH_TIMER_EXPIRY (R173). -/
def execRefreshTimerExpiry (t : Nat) (chain : Fin 4) : State → Result :=
  taken t fun s => if s.expired (s.chain chain.val).refresh then shiftWanted chain.val s else s

/-- R178: an edge of this level on a line of this function does something in the block that the function names. -/
def LineFunction.acts (f : LineFunction) (level : Bool) : Bool :=
  match f with
  | .pressure => !level
  | .power | .alloff => level
  | .cue => true
  | .none | .blower | .supply | .readyLamp | .general => false

/-- R176: the effect that CUE line `l` names. -/
def Profile.cueEffect (p : Profile) (l : Nat) : Nat := ((p.lines[l]?).map (·.effect)).getD 0

/-- R178: the block that the line's function names takes the edge. -/
def edgeBlock (l : Nat) (level : Bool) (s : State) : State :=
  match s.prof.lineFunction l with
  | .pressure => if level then s else pressureLoss l s
  | .power => if level then offerWake .localPower s else s
  | .cue => cueEdge (s.prof.cueEffect l) level s
  | .alloff => if level then allOff s else s
  | .none | .blower | .supply | .readyLamp | .general => s

/-- R113, R178: runner 0 takes the edge. -/
def edgeRunner (l : Nat) (level : Bool) (s : State) : State := runChamber (offerLine l level s)

/-- R177, R178: a debounced edge. The block and runner 0 may take it in either order (log 3). -/
def debouncedEdge (l : Nat) (level : Bool) (s : State) : State :=
  let s := s.setLine l { s.line l with debounced := level, debounce := none }
  if (s.prof.lineFunction l).acts level then
    if (s.runner 0).any (fun c => c.awaitsLine l level) then eitherOrder (edgeBlock l level) (edgeRunner l level) s
    else edgeBlock l level s
  else edgeRunner l level s

/-- R177: the raw level of an input line has changed. -/
def rawChanged (l : Nat) (level : Bool) (s : State) : State :=
  if (s.prof.lineFunction l).isInput then
    if level = (s.line l).debounced then s.setLine l { s.line l with debounce := none }
    else
      let time := debounceTime (((s.prof.lines[l]?).map (·.debounceCode)).getD 0)
      if time = 0 then debouncedEdge l level s else s.setLine l { s.line l with debounce := s.after (ms time) }
  else s

/-- A pin's level, which the part does not choose. -/
def pinLevel (l : Nat) (level : Bool) (s : State) : State := s.setLine l { s.line l with raw := level }

/-- LINE_RAW_CHANGE (R177). The pin's level is outside the part and changes in every state; before acceptance, in
PROFILE_FAULT and under NRST it is not watched (R176). -/
def execLineRawChange (t : Nat) (line : Fin 12) (level : Bool) (s : State) : Result :=
  if (s.line line.val).raw = level then .next (s.arrive t)
  else taken t (accepted (rawChanged line.val level)) (pinLevel line.val level s)

/-- DEBOUNCE_EXPIRY (R177). -/
def execDebounceExpiry (t : Nat) (line : Fin 12) : State → Result :=
  taken t fun s =>
    if s.expired (s.line line.val).debounce then debouncedEdge line.val (s.line line.val).raw s else s

end Sys2Proof.Machine
end

