-- ==== Sys2Proof/Machine/Transmission.lean ====
section
/-! DEFINITION. The commands of the part's own transmissions (09, R156 to R161). -/

namespace Sys2Proof.Machine

/-- R159: `a` is chosen before `b`: the lower class, and within a class the older. -/
def Queued.before (a b : Queued) : Bool :=
  decide (a.frame.classNo < b.frame.classNo ∨ (a.frame.classNo = b.frame.classNo ∧ a.age < b.age))

/-- R159: the waiting frame that LI takes next; of two that came at one moment, the one that joined first. -/
def nextFrame : List Queued → Option Queued
  | [] => none
  | q :: rest =>
    match nextFrame rest with
    | none => some q
    | some r => if r.before q then some r else some q

/-- R159: LI takes a frame in flight. -/
def beginFrame (s : State) : State :=
  match s.li.inFlight, nextFrame s.li.queue with
  | none, some q => { s with li := { s.li with queue := s.li.queue.erase q, inFlight := some q } }
  | _, _ => s

/-- TX_START (R156, R159): a MUTE station transmits nothing (R158). -/
def execTxStart (t : Nat) : State → Result := taken t fun s => if s.li.mute then s else beginFrame s

/-- R159: the frame in flight goes back with its age, or is discarded where a newer one of its slot waits. -/
def returnFrame (s : State) : State :=
  match s.li.inFlight with
  | none => s
  | some q =>
    { s with li :=
      { s.li with
        queue := if s.li.queue.any (fun x => q.frame.sameSlot x.frame) then s.li.queue else q :: s.li.queue,
        inFlight := none } }

/-- CLAIM_LOST (R156). The winner's frame is a command of its own. -/
def execClaimLost (t : Nat) : State → Result := taken t returnFrame

/-- R158: the station becomes MUTE. -/
def becomeMute (s : State) : State := { s with li := { s.li with queue := [], inFlight := none, mute := true } }

/-- R157: a mismatch of the frame in flight. -/
def mismatch (s : State) : State :=
  let n := s.li.duplicates + 1
  let s := returnFrame
    (reportFault .dupStation s.pf.station.val n { s with li := { s.li with duplicates := n } })
  if 3 ≤ n then becomeMute s else s

/-- TX_MISMATCH (R157). -/
def execTxMismatch (t : Nat) : State → Result := taken t fun s => if s.li.inFlight.isSome then mismatch s else s

/-- R161: an own frame, sent whole, is offered to the part's own runners or groups. -/
def ownFrame (f : Frame) (s : State) : State :=
  match f with
  | .mark m _ => offerMark m s
  | .beat tag => offerBeat s.pf.station tag s
  | .presence _ _ _ | .report _ => s

/-- TX_COMPLETE (R161). -/
def execTxComplete (t : Nat) : State → Result :=
  taken t fun s =>
    match s.li.inFlight with
    | none => s
    | some q => ownFrame q.frame { s with li := { s.li with inFlight := none, duplicates := 0 } }

end Sys2Proof.Machine
end

