-- ==== Sys2Proof/Machine/Dispatch.lean ====
section
/-! DEFINITION. One arm for each command of the table. -/

namespace Sys2Proof.Machine

def exec (i : Instr) (s : State) : Host.Outcome State Fault Refusal :=
  match i with
  | .powerOn t straps => Sys2Proof.Machine.execPowerOn t straps s
  | .pinReset t straps => Sys2Proof.Machine.execPinReset t straps s
  | .profileLoadEnd t image => Sys2Proof.Machine.execProfileLoadEnd t image s
  | .lineCheck t sender reason => Sys2Proof.Machine.execLineCheck t sender reason s
  | .alloff t sender => Sys2Proof.Machine.execAlloff t sender s
  | .restart t sender mask straps => Sys2Proof.Machine.execRestart t sender mask straps s
  | .keys t sender division changes => Sys2Proof.Machine.execKeys t sender division changes s
  | .snap t sender division codes => Sys2Proof.Machine.execSnap t sender division codes s
  | .shoe t sender pairs => Sys2Proof.Machine.execShoe t sender pairs s
  | .beat t sender tag => Sys2Proof.Machine.execBeat t sender tag s
  | .mark t sender mark => Sys2Proof.Machine.execMark t sender mark s
  | .stops t sender changes => Sys2Proof.Machine.execStops t sender changes s
  | .chamberWake t sender mask => Sys2Proof.Machine.execChamberWake t sender mask s
  | .chamberRest t sender mask => Sys2Proof.Machine.execChamberRest t sender mask s
  | .chamberDark t sender mask => Sys2Proof.Machine.execChamberDark t sender mask s
  | .tune t sender station output => Sys2Proof.Machine.execTune t sender station output s
  | .clear t sender mask => Sys2Proof.Machine.execClear t sender mask s
  | .ask t sender station => Sys2Proof.Machine.execAsk t sender station s
  | .presence t sender role state flags tag => Sys2Proof.Machine.execPresence t sender role state flags tag s
  | .reportReceived t sender payload => Sys2Proof.Machine.execReportReceived t sender payload s
  | .silenceTimerExpiry t station => Sys2Proof.Machine.execSilenceTimerExpiry t station s
  | .pizzicatoExpiry t division key => Sys2Proof.Machine.execPizzicatoExpiry t division key s
  | .reiterationClockEdge t window => Sys2Proof.Machine.execReiterationClockEdge t window s
  | .pullInEnd t output => Sys2Proof.Machine.execPullInEnd t output s
  | .strikeEnd t output => Sys2Proof.Machine.execStrikeEnd t output s
  | .shiftEnd t chain returned => Sys2Proof.Machine.execShiftEnd t chain returned s
  | .refreshTimerExpiry t chain => Sys2Proof.Machine.execRefreshTimerExpiry t chain s
  | .waitEnd t runner => Sys2Proof.Machine.execWaitEnd t runner s
  | .awaitTimeout t runner => Sys2Proof.Machine.execAwaitTimeout t runner s
  | .awaitlineTimeout t => Sys2Proof.Machine.execAwaitlineTimeout t s
  | .phase0 t group => Sys2Proof.Machine.execPhase0 t group s
  | .phaseW t group => Sys2Proof.Machine.execPhaseW t group s
  | .followLossExpiry t group => Sys2Proof.Machine.execFollowLossExpiry t group s
  | .ownerHoldExpiry t set => Sys2Proof.Machine.execOwnerHoldExpiry t set s
  | .stepTimerExpiry t set => Sys2Proof.Machine.execStepTimerExpiry t set s
  | .syncTimeout t => Sys2Proof.Machine.execSyncTimeout t s
  | .restTimerExpiry t => Sys2Proof.Machine.execRestTimerExpiry t s
  | .lineRawChange t line level => Sys2Proof.Machine.execLineRawChange t line level s
  | .debounceExpiry t line => Sys2Proof.Machine.execDebounceExpiry t line s
  | .presencePeriodExpiry t => Sys2Proof.Machine.execPresencePeriodExpiry t s
  | .txStart t => Sys2Proof.Machine.execTxStart t s
  | .claimLost t => Sys2Proof.Machine.execClaimLost t s
  | .txMismatch t => Sys2Proof.Machine.execTxMismatch t s
  | .txComplete t => Sys2Proof.Machine.execTxComplete t s
  | .profileHeaderRead t tag => Sys2Proof.Machine.execProfileHeaderRead t tag s
  | .endOfPinReset t => Sys2Proof.Machine.execEndOfPinReset t s

end Sys2Proof.Machine
end

