-- ==== Sys2Proof/Machine/LineFrames.lean ====
section
/-! DEFINITION. The bits and bytes of the Relay Line's frames: the ten bits of a byte and how a frame is read from them
(09, R152), how LI reads the command that a received frame is, with the check of R155 (R153 to R155, R162, R163), how a
frame with a given content is laid out, and the frames that the part sends (R162 to R164). -/

namespace Sys2Proof.Machine

/-- The number whose bit `i` says whether the list's member `i` is set. -/
def bitsNumber : List Bool → Nat
  | [] => 0
  | b :: rest => b.toNat + 2 * bitsNumber rest

/-! ### The levels of a byte

A level is `true` while the line is recessive and `false` while it is dominant, one for each bit time (R152). -/

/-- R152: the ten bits of a byte: the start bit, the data bits with the most significant first, the stop bit. -/
def byteLevels (b : Byte) : List Bool := false :: ((List.range 8).map fun i => b.getLsbD (7 - i)) ++ [true]

/-- R152: the bytes of a frame follow one another with no idle between them. -/
def lineLevels (bytes : List Byte) : List Bool := (bytes.map byteLevels).flatten

/-- R152: the data bits that follow a start bit, as a byte. The line rests recessive after the last level given. -/
def dataOf (levels : List Bool) : Byte :=
  BitVec.ofNat 8 (bitsNumber ((List.range 8).map fun i => levels.getD (7 - i) true))

/-- R152: how long the line has been recessive, in bit times, at the end of a byte whose stop bit was recessive. -/
def restAfter (b : Byte) : Nat := ((byteLevels b).reverse.takeWhile (· == true)).length

/-- R152: the levels that follow the next start bit, if it comes before the line has been recessive for 12 bit times,
`rest` of which have gone. A start bit that comes late, but before a gap, is taken (log 16, the model's reading). -/
def afterStart : Nat → List Bool → Option (List Bool)
  | _, [] => none
  | _, false :: levels => some levels
  | rest, true :: levels => if rest < 11 then afterStart (rest + 1) levels else none

/-! ### The parts of a frame -/

/-- R153: class, sending station, kind code and payload. -/
structure Parts where
  classNo : Fin 4
  sender : Station
  code : Fin 8
  payload : List Byte
  deriving DecidableEq, Repr

/-- R153: the claim byte. -/
def Parts.claim (f : Parts) : Byte := BitVec.ofNat 8 (f.classNo.val * 64 + f.sender.val * 4)

/-- R153: the kind byte. -/
def Parts.kind (f : Parts) : Byte := BitVec.ofNat 8 (f.code.val * 32 + f.payload.length)

/-- R152: a 16-bit field, most significant byte first. -/
def wordBytes (w : BitVec 16) : List Byte := [w.extractLsb' 8 8, w.extractLsb' 0 8]

/-- R153, R154: the whole frame. -/
def Parts.bytes (f : Parts) : List Byte :=
  let head := f.claim :: f.kind :: f.payload
  head ++ wordBytes (checkOf head)

/-- R154: whether a kind allows a payload of `n` bytes; none where the class does not define the kind code. -/
def lengthAllowed (classNo code n : Nat) : Option Bool :=
  match classNo, code with
  | 0, 0 => some (n == 0)
  | 0, 1 => some (n == 2)
  | 1, 0 => some (decide (2 ≤ n ∧ n ≤ 9))
  | 1, 1 => some (n == 17)
  | 1, 2 => some (decide (2 ≤ n ∧ n ≤ 16) && n % 2 == 0)
  | 1, 3 => some (n == 1)
  | 1, 4 => some (n == 1)
  | 2, 0 => some (decide (2 ≤ n ∧ n ≤ 12) && n % 2 == 0)
  | 2, 1 => some (n == 3)
  | 2, 2 => some (n == 3)
  | 2, 3 => some (n == 2)
  | 2, 4 => some (n == 1)
  | 3, 0 => some (n == 5)
  | 3, 1 => some (n == 20)
  | _, _ => none

/-! ### Reading a payload -/

/-- A station number in the low four bits of a byte (R163). Bits 7-4 of the station byte of TUNE and ASK are not read
(log 23, the model's reading). -/
def stationOf (b : Byte) : Station := Fin.ofNat 16 b.toNat

/-- R152: two bytes as a 16-bit field. -/
def wordOf (high low : Byte) : BitVec 16 := high ++ low

/-- R162: a key change. -/
def changeOf (b : Byte) : Fin 64 × BitVec 2 := (Fin.ofNat 64 (b.toNat / 4), b.extractLsb' 0 2)

/-- R162: the four touch codes of a SNAP byte. -/
def codesOf (b : Byte) : List (BitVec 2) :=
  [b.extractLsb' 6 2, b.extractLsb' 4 2, b.extractLsb' 2 2, b.extractLsb' 0 2]

/-- R162: the changes of a STOPS frame. -/
def stopsOf : List Byte → List (Fin 1024 × Bool)
  | a :: b :: rest => (Fin.ofNat 1024 (a.toNat % 4 * 256 + b.toNat), a.msb) :: stopsOf rest
  | _ => []

/-- R162: the pairs of a SHOE frame. -/
def pairsOf : List Byte → List (Fin 8 × Byte)
  | a :: b :: rest => (Fin.ofNat 8 a.toNat, b) :: pairsOf rest
  | _ => []

/-- R162, R163: the command of a frame whose kind is defined and whose length is allowed. A CHAMBER frame whose command
is none of the three is only heard: it is the command WAKE naming no station (log 11). -/
def commandOf (t : Nat) (straps : Station) (f : Parts) : Option Instr :=
  match f.classNo.val, f.code.val, f.payload with
  | 0, 0, [] => some (.alloff t f.sender)
  | 0, 1, [a, b] => some (.restart t f.sender (wordOf a b) straps)
  | 1, 0, d :: changes => some (.keys t f.sender (Fin.ofNat 8 d.toNat) (changes.map changeOf))
  | 1, 1, d :: codes => some (.snap t f.sender (Fin.ofNat 8 d.toNat) (codes.map codesOf).flatten)
  | 1, 2, pairs => some (.shoe t f.sender (pairsOf pairs))
  | 1, 3, [b] => some (.beat t f.sender (Fin.ofNat 16 b.toNat))
  | 1, 4, [b] => some (.mark t f.sender (Fin.ofNat 64 b.toNat))
  | 2, 0, changes => some (.stops t f.sender (stopsOf changes))
  | 2, 1, [c, a, b] =>
    match c.toNat with
    | 1 => some (.chamberWake t f.sender (wordOf a b))
    | 2 => some (.chamberRest t f.sender (wordOf a b))
    | 3 => some (.chamberDark t f.sender (wordOf a b))
    | _ => some (.chamberWake t f.sender 0)
  | 2, 2, [c, a, b] => some (.tune t f.sender (stationOf c) (wordOf a b))
  | 2, 3, [a, b] => some (.clear t f.sender (wordOf a b))
  | 2, 4, [c] => some (.ask t f.sender (stationOf c))
  | 3, 0, [role, state, flags, a, b] => some (.presence t f.sender role state flags (wordOf a b))
  | 3, 1, payload => some (.reportReceived t f.sender payload)
  | _, _, _ => none

/-- R153: the parts that the claim and kind bytes of a frame give, with its payload. -/
def partsOf (claim kind : Byte) (payload : List Byte) : Parts :=
  { classNo := Fin.ofNat 4 (claim.toNat / 64), sender := Fin.ofNat 16 (claim.toNat / 4),
    code := Fin.ofNat 8 (kind.toNat / 32), payload := payload }

/-- R155: why a frame fails its check, the lowest-numbered reason; `framing` says that a stop bit was read dominant or
that a gap came before the frame was complete. The frame is complete with the check bytes that its length field leads to
(R152): what follows them before the next gap is not read. -/
def failure (framing : Bool) (bytes : List Byte) : Option CheckReason :=
  match bytes with
  | claim :: kind :: rest =>
    let n := kind.toNat % 32
    let f := partsOf claim kind (rest.take n)
    if framing = true ∨ rest.length < n + 2 then some .framing
    else if 20 < n ∨ lengthAllowed f.classNo.val f.code.val n = some false then some .length
    else if lengthAllowed f.classNo.val f.code.val n = none then some .kind
    else if (rest.drop n).take 2 ≠ wordBytes (checkOf (claim :: kind :: rest.take n)) then some .check
    else none
  | _ => some .framing

/-- R152: these bytes are a whole frame, as the length in its second byte gives. -/
def frameComplete : List Byte → Bool
  | _ :: kind :: rest => decide (kind.toNat % 32 + 2 ≤ rest.length)
  | _ => false

/-- R152: the bytes of a frame, at most `n` more than `got`, and whether it has a framing fault: a stop bit read
dominant, or a gap before the frame is complete. The line has been recessive for `rest` bit times. -/
def readOn : Nat → List Byte → Nat → List Bool → List Byte × Bool
  | 0, got, _, _ => (got, false)
  | n + 1, got, rest, levels =>
    if frameComplete got then (got, false)
    else
      match afterStart rest levels with
      | none => (got, true)
      | some levels =>
        let got := got ++ [dataOf levels]
        if levels.getD 8 true then readOn n got (restAfter (dataOf levels)) (levels.drop 9) else (got, true)

/-- R152: the frame that the levels after a gap hold: its first start bit is the first dominant level. A frame has at
most 35 bytes, since its length field has five bits. -/
def readFrame (levels : List Bool) : List Byte × Bool := readOn 36 [] 0 (levels.dropWhile (· == true))

/-- R155: the command that a received frame is, at moment `t`: the frame's own where it passes its check, and LINE_CHECK
with the station field of its claim byte where it fails. `straps` is what a restart would read. Nothing received is no
command. -/
def receive (t : Nat) (framing : Bool) (bytes : List Byte) (straps : Station) : Option Instr :=
  match bytes with
  | [] => none
  | claim :: rest =>
    match failure framing bytes with
    | some reason => some (.lineCheck t (Fin.ofNat 16 (claim.toNat / 4)) reason)
    | none => commandOf t straps (partsOf claim (rest.headD 0) (rest.tail.take ((rest.headD 0).toNat % 32)))

/-- R152, R155: the command that the frame is which the levels after a gap hold. -/
def receiveLevels (t : Nat) (levels : List Bool) (straps : Station) : Option Instr :=
  receive t (readFrame levels).2 (readFrame levels).1 straps

/-! ### Laying out a frame -/

/-- R162: the byte of a key change. -/
def changeByte (x : Fin 64 × BitVec 2) : Byte := BitVec.ofNat 6 x.1.val ++ x.2

/-- R162: the bytes of a SNAP's touch codes. -/
def codeBytes : List (BitVec 2) → List Byte
  | a :: b :: c :: d :: rest => (a ++ b ++ c ++ d : BitVec 8) :: codeBytes rest
  | _ => []

/-- R162: the two bytes of a stop change. -/
def stopBytes (x : Fin 1024 × Bool) : List Byte :=
  [BitVec.ofNat 8 ((if x.2 then 128 else 0) + x.1.val / 256), BitVec.ofNat 8 x.1.val]

/-- R162: the two bytes of a SHOE pair. -/
def pairBytes (x : Fin 8 × Byte) : List Byte := [BitVec.ofNat 8 x.1.val, x.2]

/-- R162, R163: the parts of the frame that a command is, for the commands that are checked frames. -/
def partsFor : Instr → Option Parts
  | .alloff _ a => some ⟨0, a, 0, []⟩
  | .restart _ a mask _ => some ⟨0, a, 1, wordBytes mask⟩
  | .keys _ a d changes => some ⟨1, a, 0, BitVec.ofNat 8 d.val :: changes.map changeByte⟩
  | .snap _ a d codes => some ⟨1, a, 1, BitVec.ofNat 8 d.val :: codeBytes codes⟩
  | .shoe _ a pairs => some ⟨1, a, 2, (pairs.map pairBytes).flatten⟩
  | .beat _ a tag => some ⟨1, a, 3, [BitVec.ofNat 8 tag.val]⟩
  | .mark _ a m => some ⟨1, a, 4, [BitVec.ofNat 8 m.val]⟩
  | .stops _ a changes => some ⟨2, a, 0, (changes.map stopBytes).flatten⟩
  | .chamberWake _ a mask => some ⟨2, a, 1, 1#8 :: wordBytes mask⟩
  | .chamberRest _ a mask => some ⟨2, a, 1, 2#8 :: wordBytes mask⟩
  | .chamberDark _ a mask => some ⟨2, a, 1, 3#8 :: wordBytes mask⟩
  | .tune _ a station output => some ⟨2, a, 2, BitVec.ofNat 8 station.val :: wordBytes output⟩
  | .clear _ a mask => some ⟨2, a, 3, wordBytes mask⟩
  | .ask _ a station => some ⟨2, a, 4, [BitVec.ofNat 8 station.val]⟩
  | .presence _ a role state flags tag => some ⟨3, a, 0, role :: state :: flags :: wordBytes tag⟩
  | .reportReceived _ a payload => some ⟨3, a, 1, payload⟩
  | .powerOn _ _ | .pinReset _ _ | .profileLoadEnd _ _ | .lineCheck _ _ _ | .silenceTimerExpiry _ _
  | .pizzicatoExpiry _ _ _ | .reiterationClockEdge _ _ | .pullInEnd _ _ | .strikeEnd _ _ | .shiftEnd _ _ _
  | .refreshTimerExpiry _ _ | .waitEnd _ _ | .awaitTimeout _ _ | .awaitlineTimeout _ | .phase0 _ _ | .phaseW _ _
  | .followLossExpiry _ _ | .ownerHoldExpiry _ _ | .stepTimerExpiry _ _ | .syncTimeout _ | .restTimerExpiry _
  | .lineRawChange _ _ _ | .debounceExpiry _ _ | .presencePeriodExpiry _ | .txStart _ | .claimLost _
  | .txMismatch _ | .txComplete _ | .profileHeaderRead _ _ | .endOfPinReset _ => none

/-! ### The frames that the part sends -/

/-- R162: the code of a restart cause. -/
def Cause.code : Cause → Nat
  | .powerOn => 0 | .pin => 1 | .line => 2

/-- R162: the code of a chain status. -/
def ChainStatus.code : ChainStatus → Nat
  | .good => 0 | .suspect => 1 | .failed => 2

/-- R162: byte 1 of a REPORT: chain `c`'s status in bits 2c + 1 and 2c. -/
def statusByte (chains : List ChainStatus) : Nat :=
  chains.foldr (fun x n => x.code + 4 * n) 0

/-- R162: a number as a 16-bit field. -/
def natWord (n : Nat) : List Byte := wordBytes (BitVec.ofNat 16 n)

/-- R162: the payload of a REPORT. While the record is empty the source bits and the detail are sent 0 with the kind code
(log 22, the model's choice). -/
def Report.payload (r : Report) : List Byte :=
  [BitVec.ofNat 8 (r.state.code + 16 * r.cause.code + (if r.later then 64 else 0)), BitVec.ofNat 8 (statusByte r.chains)]
    ++ wordBytes r.tag
    ++ natWord ((r.record.map fun x => x.kind.code * 4096 + x.source % 2048).getD 0)
    ++ natWord ((r.record.map (·.detail)).getD 0)
    ++ wordBytes r.seen
    ++ natWord r.sounding ++ natWord r.speechDepth
    ++ [BitVec.ofNat 8 r.actionDepth, BitVec.ofNat 8 r.units]
    ++ natWord (bitsNumber r.holders / 65536) ++ natWord (bitsNumber r.holders)

/-- R163, R164: the parts of a frame that station `a` sends. -/
def Frame.parts (a : Station) : Frame → Parts
  | .presence state fault tag => ⟨3, a, 0, [1#8, BitVec.ofNat 8 state.code, if fault then 1#8 else 0#8] ++ wordBytes tag⟩
  | .report r => ⟨3, a, 1, r.payload⟩
  | .beat tag => ⟨1, a, 3, [BitVec.ofNat 8 tag.val]⟩
  | .mark m _ => ⟨1, a, 4, [BitVec.ofNat 8 m.val]⟩

/-- R153: the bytes of the frame in flight. -/
def State.bytesInFlight (s : State) : Option (List Byte) :=
  s.li.inFlight.map fun q => (q.frame.parts s.pf.station).bytes

/-- R152: the levels of the frame in flight. -/
def State.levelsInFlight (s : State) : Option (List Bool) := s.bytesInFlight.map lineLevels

end Sys2Proof.Machine
end

