-- ==== Sys2Proof/Safety.lean ====
section
/-! DEFINITION. What the statements about the CV24 are said in: when the part takes a command, what hearing a frame and
what a reset leave, and the invariants of each block. -/

namespace Sys2Proof.Machine

/-! ### Taking a command -/

/-- The part takes a command: NRST is high (log 5), and runner 0 has no pass due, as at the end of every step (R105). -/
def State.takes (s : State) : Prop := s.pf.held = false ∧ ∀ c, s.runner 0 = some c → c.waiting ≠ .running

/-- The part takes a checked frame (R155). -/
def State.listens (s : State) : Prop := s.takes ∧ s.ch.state ≠ .profileFault

/-- The blocks take their frames: a profile is accepted (R20, R40, R55, R145). -/
def State.serves (s : State) : Prop := s.listens ∧ s.profile.isSome = true

/-- A timer that is running has run out at `moment`. -/
def dueAt (moment : Nat) (timer : Option Nat) : Prop := ∃ due, timer = some due ∧ due ≤ moment

/-- The state with the clock at the arrival of a command at moment `t`, and nothing else changed. -/
def State.at (s : State) (t : Nat) : State := { s with now := max s.now t }

/-- R166: the state once a checked frame of station `a` has been heard at moment `t`: its entry is HEARD, its silence
timer starts afresh at 600 ms, a frame that meets the end of that timer is marked (log 21), and nothing else changes. -/
def State.hearing (s : State) (t : Nat) (a : Station) : State :=
  { s.at t with
    pt := s.pt.set a.val
      { state := .heard, announced := (s.peer a).announced, silence := some (max s.now t + 600000)
        crossed := if (s.at t).silenceOver a then some { moment := max s.now t, presence := false }
          else (s.peer a).crossed } }

/-- R186: the record after one more report. -/
def Pf.recording (pf : Pf) (k : FaultKind) (source detail : Nat) : Pf :=
  { pf with
    record := some (pf.record.getD { kind := k, source := source, detail := detail })
    later := pf.later || pf.record.isSome
    seen := pf.seen ||| k.seenBit }

/-! ### Resets -/

/-- R164, R180: LI at the end of a reset: the LOADING PRESENCE waits and the 200 ms period runs. -/
def Li.loading (now : Nat) (fault : Bool) : Li :=
  { queue := [{ frame := .presence .loading fault 0, age := now }], inFlight := none, mute := false, duplicates := 0,
    presencePeriod := some (now + 200000) }

/-- R185: every block at its reset values. The clock, the pins' levels in `ll`, the number of free orders and the queue
of commands are not the part's to reset. -/
def State.afterReset (s : State) (now : Nat) (li : Li) (pf : Pf) (ll : Table Line) : State :=
  { State.reset with now := now, li := li, pf := pf, ll := ll, choices := s.choices, pending := s.pending }

/-- R176: after a reset every line has its pin's level, and is not watched and not driven. -/
def State.pinsKept (s u : State) : Prop :=
  s.ll.wf → ∀ l, u.line l = { raw := (s.line l).raw, debounced := false, debounce := none, driven := false }

/-! ### CH -/

/-- R52, R65, R77, R99, R119, R131, R142, R144: outside READY PA is empty, no effect runs, waits or is suspended, no
reiteration clock and no tremulant group runs, every shutter set is at stage 0, and the rest timer is stopped; and the
sync timer runs in GATHERING and in no other state. -/
structure State.QuietOutsideReady (s : State) : Prop where
  arbiter : s.ch.state ≠ .ready → s.pa = .cleared
  effects : s.ch.state ≠ .ready → s.ee.groups = .empty ∧ ∀ r, 1 ≤ r → r < 8 → s.runner r = none
  clocks : s.ch.state ≠ .ready → s.dt.clocks = .empty
  groups : s.ch.state ≠ .ready → ∀ g, g < 4 → s.trem g = { (default : Trem) with onCount := (s.trem g).onCount }
  shutters : s.ch.state ≠ .ready → ∀ x, x < 2 → (s.shutter x).stage = 0 ∧ (s.shutter x).stepTimer = none
  rest : s.ch.state ≠ .ready → s.ch.rest = none
  sync : s.ch.sync.isSome = true ↔ s.ch.state = .gathering

/-- R139, R140, R144, R147: the chamber state in which a chamber script runs. -/
def Script.chamberState : Script → Option ChamberState
  | .wake => some .winding
  | .rest => some .settling
  | .dark => some .darkening
  | .effectOn _ | .effectOff _ => none

/-- R104, R139: runner 0 holds a waiting context of the script of the chamber state, in WINDING, SETTLING and DARKENING
and in no other state; and a profile is held from DARK on (R135, R183). -/
structure State.ChamberSound (s : State) : Prop where
  scripted : ∀ c, s.runner 0 = some c → c.waiting ≠ .running ∧ c.script.chamberState = some s.ch.state
  idle : s.runner 0 = none → s.ch.state ≠ .winding ∧ s.ch.state ≠ .settling ∧ s.ch.state ≠ .darkening
  profiled : s.profile = none ↔ s.ch.state = .loading ∨ s.ch.state = .profileFault

/-- R150: a PRESENCE that carries the chamber state waits to be sent, if the station is not MUTE and the queue had room. -/
def State.announces (s u : State) : Prop :=
  s.li.mute = false → s.li.queue.length < 8 →
    ∃ q ∈ u.li.queue, ∃ fault, q.frame = .presence u.ch.state fault s.pf.tag

/-- R119, R121: the LEAD groups that an entry to READY starts, each of which hands over a BEAT. -/
def State.leadsToStart (s : State) : Nat :=
  ((List.range 4).filter fun g =>
    (s.tremGroup g).any (·.mode == .lead) && decide (0 < (s.trem g).onCount) && !(s.trem g).running).length

/-- R143, R150, R160: after an entry to READY a PRESENCE that carries READY waits to be sent, if the station is not MUTE
and a PRESENCE waited already, or the queue had room for one behind the BEATs of the groups that the entry starts. -/
def State.announcesReady (s u : State) : Prop :=
  s.li.mute = false →
    ((∃ q ∈ s.li.queue, ∃ st fault tag, q.frame = .presence st fault tag) ∨ s.li.queue.length + s.leadsToStart < 8) →
    ∃ q ∈ u.li.queue, ∃ fault, q.frame = .presence .ready fault s.pf.tag

/-- What no change of the chamber state touches: KM, PT, the profile, DT's counts and tuning hold, and the station, tag
and cause of PF. -/
def State.keepsTheHouse (s u : State) : Prop :=
  u.km = s.km ∧ u.pt = s.pt ∧ u.profile = s.profile ∧ u.dt = { s.dt with clocks := u.dt.clocks } ∧
    u.pf = { s.pf with record := u.pf.record, later := u.pf.later, seen := u.pf.seen }

/-- R158, R160: `queue` is what waits after a BEAT of `tag` was handed over at moment `now`: in the place of one of its tag,
with that one's age, else at the tail if fewer than 8 frames wait; otherwise, and at a MUTE station, what waited before. -/
def Li.afterBeat (li : Li) (tag : Fin 16) (now : Nat) (queue : List Queued) : Prop :=
  (li.mute = true → queue = li.queue) ∧
  (li.mute = false → (∀ q ∈ li.queue, q.frame ≠ .beat tag) →
    queue = if li.queue.length < 8 then li.queue ++ [{ frame := .beat tag, age := now }] else li.queue) ∧
  (∀ before after age, li.queue = before ++ { frame := .beat tag, age := age } :: after →
    (∀ q ∈ before ++ after, q.frame ≠ .beat tag) → queue = li.queue)

/-- R144: the rest timer as a restart at this moment leaves it; a rest delay of 0 leaves it stopped. -/
def State.restStart (s : State) : Option Nat :=
  if s.prof.params.restDelay = 0 then none else some (s.now + s.prof.params.restDelay * 60000000)

/-- R119, R120: a tremulant group that starts at moment `now`: phase W and phase 0 are counted from there, and its follow
status is FREE. -/
def TremGroup.begun (x : TremGroup) (now onCount : Nat) : Trem :=
  { onCount := onCount, running := true, phase0 := some (now + x.period * 1000), phaseW := some (now + x.width * 1000)
    locked := false, loss := none }

/-- R129: the set after a step toward its target, if it is not there, with the step timer started. -/
def Shutter.stepped (cfg : ShutterSet) (now : Nat) (v : Shutter) : Shutter :=
  if v.stage = v.target then v
  else
    { v with
      stage := if v.stage < v.target then v.stage + 1 else v.stage - 1
      stepTimer := some (now + cfg.interval * 1000) }

/-- R49, R119, R120, R131, R143: what an entry to READY starts, from a state whose set and groups stand as an exit from
READY leaves them: the rest timer; every BAR window's clock, one period ahead; the tremulant groups whose on-count is
above 0; and the first step of every shutter set whose target is above 0. -/
structure State.readyBegun (s u : State) : Prop where
  rest : u.ch.rest = s.restStart
  clocks : ∀ i w, s.prof.windows[i]? = some w →
    u.dt.clocks.get i = if w.kind = .bar then some (s.now + w.reiteration * 1000) else none
  groups : ∀ g x, g < 4 → s.tremGroup g = some x →
    u.trem g = if 0 < (s.trem g).onCount then x.begun s.now (s.trem g).onCount
      else { (default : Trem) with onCount := (s.trem g).onCount }
  shutters : ∀ x cfg, x < 2 → s.shutterSet x = some cfg →
    u.shutter x = ({ s.shutter x with stage := 0, stepTimer := none } : Shutter).stepped cfg s.now

/-- R119, R131: the outputs for which TSU asks HOLD at an entry to READY: those of the groups that start, ascending, and
then the first outputs of the sets whose target is above 0, ascending. -/
def State.firstHolds (s : State) : List Nat :=
  ((List.range 4).filterMap fun g =>
    (s.tremGroup g).bind fun x => if 0 < (s.trem g).onCount then some x.output else none) ++
  (List.range 2).filterMap fun x =>
    (s.shutterSet x).bind fun cfg => if 0 < (s.shutter x).target then some cfg.first else none

/-- R51, R119, R131, R143: `v` has PA, CC and the record as the requests of an entry to READY leave them: OPEN for every
called PIPE output, ascending, and HOLD for TSU's outputs, the one or the other first (log 3). -/
def State.readyRequests (s v : State) : Prop :=
  let ready := { s with ch := { s.ch with state := .ready } }
  ∃ calls : List Nat, calls.Pairwise (· < ·) ∧
    (∀ o, o ∈ calls ↔ (s.prof.windowOf o).map (·.kind) = some .pipe ∧ 0 < s.dt.pipe.get o) ∧
    let opened := fun w : State => calls.foldl (fun w o => paOpen o w) w
    let held := fun w : State => s.firstHolds.foldl (fun w o => paHold o w) w
    (v = held (opened ready) ∨ v = opened (held ready))

/-- R119, R121, R160: every LEAD group that an entry to READY starts has handed over its BEAT, if the station is not MUTE
and the queue had room for one of each; and the frames of other kinds, BEATs and the PRESENCE apart, wait as they did. -/
def State.beatsStarted (s u : State) : Prop :=
  let others := fun queue : List Queued => queue.filter fun q =>
    match q.frame with
    | .presence _ _ _ | .beat _ => false
    | .report _ | .mark _ _ => true
  u.li = { s.li with queue := u.li.queue } ∧ others u.li.queue = others s.li.queue ∧
  (s.li.mute = false → s.li.queue.length + s.leadsToStart ≤ 8 →
    ∀ g x, g < 4 → s.tremGroup g = some x → x.mode = .lead → 0 < (s.trem g).onCount → (s.trem g).running = false →
      ∃ q ∈ u.li.queue, q.frame = .beat x.tag)

/-- R141, R142: station `b` is a member of the sync set, other than this station, that fails the gathering condition. -/
def State.lacks (s : State) (b : Station) : Prop :=
  s.prof.params.syncSet.getLsbD b.val = true ∧ b ≠ s.pf.station ∧
    ¬ ((s.peer b).state = .heard ∧ ((s.peer b).announced = some .gathering ∨ (s.peer b).announced = some .ready))

/-- R140, R141, R142: a chamber that comes from `s` to the end of its WAKE script with origin DARK: it is READY only if no
member fails the gathering condition, and otherwise GATHERING with the sync timer running. -/
def State.gathersTo (s u : State) : Prop :=
  (u.ch.state = .ready → ∀ b, ¬ s.lacks b) ∧
    (u.ch.state = .gathering → (∃ b, s.lacks b) ∧
      u.ch.sync = some (s.now + s.prof.params.syncTimeout * 1000000))

/-- R138 to R143: CH and runner 0 after a wake with this origin was admitted in `s`: the chamber is WINDING while the WAKE
script holds runner 0, and has otherwise gone on, with origin DARK as the gathering condition says and to READY with
origin OTHER, and has announced itself. -/
def State.wokenChamber (s u : State) (origin : Origin) : Prop :=
  u.ch.origin = origin ∧ (u.ch.state = .winding ∨ u.ch.state = .gathering ∨ u.ch.state = .ready) ∧
    (origin = .other → u.ch.state ≠ .gathering) ∧ (u.ch.state = .winding ↔ u.runner 0 ≠ none) ∧
    (origin = .dark → s.gathersTo u) ∧ (u.ch.state = .ready → s.QuietOutsideReady → s.readyBegun u) ∧ s.announces u

/-- R27, R137, R144: CH after the merged changes between `s` and `u`, of which each key made at most one: a rise wakes a
chamber that is DARK, SETTLING or RESTING with PLAY in the mask; otherwise the chamber state stands, and in READY a merged
change restarts the rest timer. -/
def State.playedTo (s u : State) : Prop :=
  let moved := ∃ d k, d < 8 ∧ k < 64 ∧ u.mergedTouch d k ≠ s.mergedTouch d k
  let rises := ∃ d k, d < 8 ∧ k < 64 ∧ (s.mergedTouch d k).rank < (u.mergedTouch d k).rank
  let admitted := s.prof.params.wakeMask.play = true ∧
    (s.ch.state = .dark ∨ s.ch.state = .settling ∨ s.ch.state = .resting)
  (rises → admitted → s.wokenChamber u (if s.ch.state = .dark then .dark else .other)) ∧
    (¬ (rises ∧ admitted) →
      (s.ch.state = .ready → moved → u.ch = { s.ch with rest := s.restStart }) ∧
      (¬ (s.ch.state = .ready ∧ moved) → u.ch = s.ch))

/-- R77, R78, R172: CC after an exit from READY in `s`: each chain with an output that was energized shifts all off, if no
shift was in progress, and has a change waiting otherwise. -/
def State.chainsTurnedOff (s u : State) : Prop :=
  ∀ o, (s.out o = .holding ∨ (∃ m, s.out o = .pulling m) ∨ ∃ m stay, s.out o = .striking m stay) →
    let c := o / 384
    let n := s.prof.chainLength c
    ((s.chain c).shift = none → n ≠ 0 →
      (u.chain c).shift = some { pattern := [], ends := s.now + (n / 2 + 1) } ∧ (u.chain c).refresh = none) ∧
    ∀ x, (s.chain c).shift = some x → (u.chain c).shift = some x ∧ (u.chain c).changeWaiting = true

/-- R52, R77, R99, R119, R131, R149: what an exit from READY leaves: PA empty, no effect in play, no clock and no
tremulant group running, every shutter set at stage 0 with its target, owner and pref, the rest timer stopped. R78: the
chains of the outputs that were energized are turned off, and no other chain moves. -/
def State.leftReady (s u : State) : Prop :=
  (s.pa.outs.wf → s.chainsTurnedOff u ∧
    ∀ c, (∀ o, o / 384 = c → s.out o = .off ∨ s.out o = .waiting) → u.chain c = s.chain c) ∧
  u.pa = .cleared ∧ (∀ g, (u.group g).holder = none ∧ (u.group g).stack = [] ∧ (u.group g).pending = none) ∧
    (∀ r, 1 ≤ r → r < 8 → u.runner r = none) ∧ u.dt.clocks = .empty ∧
    (∀ g, g < 4 → u.trem g = { (default : Trem) with onCount := (s.trem g).onCount }) ∧
    (∀ x, x < 2 → u.shutter x = { s.shutter x with stage := 0, stepTimer := none }) ∧ u.ch.rest = none

/-- R146, R149: `u` is `s`, in READY, after it went to rest: SETTLING while the REST script holds runner 0, and RESTING
once it has ended; with no REST entry the ready lamps are low. -/
def State.restedTo (s u : State) : Prop :=
  (u.ch.state = .settling ∨ u.ch.state = .resting) ∧ (u.ch.state = .settling ↔ u.runner 0 ≠ none) ∧ s.leftReady u ∧
    s.keepsTheHouse u ∧ s.announces u ∧
    (s.prof.restEntry = none → ∀ l, l < 12 → s.prof.lineFunction l = .readyLamp → (u.line l).driven = false)

/-- R147: `u` is `s` after it went dark: DARKENING while the DARK script holds runner 0, and DARK, with origin DARK, once
it has ended. -/
def State.darkenedTo (s u : State) : Prop :=
  (u.ch.state = .darkening ∨ u.ch.state = .dark) ∧ (u.ch.state = .darkening ↔ u.runner 0 ≠ none) ∧
    (u.ch.state = .dark → u.ch.origin = .dark) ∧ u.ch.sync = none ∧ (s.ch.state = .ready → s.leftReady u) ∧
    s.keepsTheHouse u ∧ s.announces u

/-! ### The profile -/

/-- R5, R6: the fields of a stop entry: a VOICE entry feeds a PIPE or BAR window, a TREM entry a group that there is, a
TRAP entry an effect that there is and never by PIZZ, and only a TRAP entry stands on division 7. -/
def StopEntry.inRange (p : Profile) (e : StopEntry) : Prop :=
  e.stop ≤ 1023 ∧ e.division ≤ 7 ∧
    match e.kind with
    | .voice w offset _ _ _ _ => -36 ≤ offset ∧ offset ≤ 48 ∧ e.division ≠ 7 ∧
        ∃ x, p.windows[w]? = some x ∧ (x.kind = .pipe ∨ x.kind = .bar)
    | .trem g => g < p.groups.length ∧ e.division ≠ 7
    | .trap x c => x < p.effects.length ∧ c ≠ .pizz

/-- R103: the fields of a step. -/
def ScriptStep.inRange (p : Profile) : ScriptStep → Prop
  | .wait d => 1 ≤ d ∧ d ≤ 60000
  | .strike o w => o ≤ 2047 ∧ 4 ≤ w ∧ w ≤ 250
  | .hold o | .lift o => o ≤ 2047
  | .loop target count _ => target < p.steps.length ∧ count ≤ 255
  | .await _ d => 1 ≤ d ∧ d ≤ 10000
  | .awaitLine l _ d => l ≤ 11 ∧ 1 ≤ d ∧ d ≤ 60000
  | .setLine l _ => l ≤ 11
  | .mark _ | .rearm | .done => True

/-- R102: execution that is at step `i` may come to step `j`. -/
inductive Profile.Reaches (p : Profile) : Nat → Nat → Prop
  | here (i : Nat) : p.Reaches i i
  | onward {i j k : Nat} : p.Reaches i j → k ∈ successors p.steps j → p.Reaches i k

/-- R103: what a step reached from an entry of an effect of claim group `g` may be. -/
def ScriptStep.fitsEffect (p : Profile) (g : Nat) : ScriptStep → Prop
  | .strike o _ | .hold o | .lift o => inTrapOf p.windows g o = true
  | .awaitLine _ _ _ => False
  | .setLine l _ => p.lineFunction l = .general
  | .wait _ | .loop _ _ _ | .mark _ | .await _ _ | .rearm | .done => True

/-- R103: what a step reached from a chamber entry may be. -/
def ScriptStep.fitsChamber (p : Profile) : ScriptStep → Prop
  | .strike _ _ | .hold _ | .lift _ => False
  | .setLine l _ => (p.lineFunction l).isOutput = true
  | .wait _ | .loop _ _ _ | .mark _ | .await _ _ | .awaitLine _ _ _ | .rearm | .done => True

/-- R80: step `i` is the entry of one of the effect's two parts. -/
def Effect.entersAt (x : Effect) (i : Nat) : Prop := i = x.onEntry ∨ x.offEntry = some i

/-- R139, R140, R146, R147: step `i` is a chamber entry. -/
def Profile.chamberEntersAt (p : Profile) (i : Nat) : Prop :=
  p.wakeEntry = some i ∨ p.restEntry = some i ∨ p.darkEntry = some i

/-- R2, R3, R4, R5, R6, R62, R80, R102, R103, R117, R125, R134, R170, R176: the ranges that a profile's fields keep, and
what the records of one section keep to in those of another. -/
structure Profile.InRange (p : Profile) : Prop where
  window : 30 ≤ p.params.pizzicatoWindow ∧ p.params.pizzicatoWindow ≤ 500
  budget : 8 ≤ p.params.budget ∧ p.params.budget ≤ 255
  runLimit : 1 ≤ p.params.actionRunLimit ∧ p.params.actionRunLimit ≤ 15
  chains : p.params.chainLengths.length = 4 ∧ ∀ n ∈ p.params.chainLengths, n ≤ 384 ∧ n % 8 = 0
  refresh : p.params.refreshInterval = 0 ∨ 4 ≤ p.params.refreshInterval
  syncTimeout : 1 ≤ p.params.syncTimeout ∧ p.params.syncTimeout ≤ 30
  restDelay : p.params.restDelay ≤ 120
  divisions : p.divisions.length = 8
  keys : ∀ d, p.keyCount d ≤ 64 ∧ p.baseNote d ≤ 96
  studKeys : p.keyCount 7 ≤ 32
  windows : p.windows.length ≤ 32
  windowRanges : ∀ w ∈ p.windows, 1 ≤ w.size ∧ 1 ≤ w.weight ∧ w.weight ≤ 4 ∧ 4 ≤ w.pullIn ∧ w.pullIn ≤ 40 ∧
    w.firstNote ≤ 127 ∧ w.claimGroup ≤ 15
  barRanges : ∀ w ∈ p.windows, w.kind = .bar →
    4 ≤ w.strikeWidth ∧ w.strikeWidth ≤ 40 ∧ 40 ≤ w.reiteration ∧ w.reiteration ≤ 250
  onOneChain : ∀ w ∈ p.windows, ∀ o, w.contains o = true →
    o ≤ 1535 ∧ chainOf o = chainOf w.first ∧ o % 384 < p.chainLength (chainOf o)
  disjoint : p.windows.Pairwise (fun v w => ∀ o, v.contains o = true → w.contains o = false)
  entries : p.entries.length ≤ 256 ∧ ∀ e ∈ p.entries, e.inRange p
  effects : p.effects.length ≤ 32 ∧ ∀ e ∈ p.effects, e.priority ≤ 7 ∧ e.group ≤ 15 ∧ e.onEntry < p.steps.length ∧
    (∀ i, e.offEntry = some i → i < p.steps.length) ∧ (∀ k, e.stud = some k → k ≤ 31) ∧
    ∀ l, e.cueLine = some l → l ≤ 11
  cueLines : ∀ e l, ((p.effects[e]?).bind (·.cueLine) = some l ↔
    p.lineFunction l = .cue ∧ (p.lines[l]?).map (·.effect) = some e)
  groups : p.groups.length ≤ 4 ∧
    ∀ g ∈ p.groups, 60 ≤ g.period ∧ g.period ≤ 400 ∧ 10 ≤ g.width ∧ g.width ≤ g.period - 10
  sets : p.sets.length ≤ 2 ∧ ∀ x ∈ p.sets, x.shoe ≤ 7 ∧ 1 ≤ x.stages ∧ x.stages ≤ 16 ∧ x.hysteresis ≤ 8 ∧
    10 ≤ x.interval ∧ x.interval ≤ 200 ∧ 500 ≤ x.ownerHold ∧ x.ownerHold ≤ 5000
  lines : p.lines.length = 12 ∧ ∀ l ∈ p.lines, l.debounceCode ≤ 7
  chamberEntries : ∀ i, p.chamberEntersAt i → i < p.steps.length
  steps : p.steps.length ≤ 512 ∧ ∀ st ∈ p.steps, st.inRange p
  groupOutputs : ∀ g ∈ p.groups, inAux p.windows g.output = true
  setOutputs : ∀ x ∈ p.sets, ∀ o, x.uses o = true → inAux p.windows o = true
  effectSteps : ∀ x ∈ p.effects, ∀ i j, x.entersAt i → p.Reaches i j →
    ∃ st, p.steps[j]? = some st ∧ st.fitsEffect p x.group
  chamberSteps : ∀ i j, p.chamberEntersAt i → p.Reaches i j → ∃ st, p.steps[j]? = some st ∧ st.fitsChamber p

/-- R183: the profile held is one whose fields are in their ranges. -/
def State.ProfileSound (s : State) : Prop := ∀ p, s.profile = some p → p.InRange

/-! ### A wake -/

/-- R51, R119, R131, R143: a chamber that comes from `s`, outside READY, to READY has asked PA for what
`State.readyRequests` gives, and for nothing else. -/
def State.asksOnEntry (s u : State) : Prop :=
  u.ch.state = .ready → s.ch.state ≠ .ready → s.QuietOutsideReady → s.ProfileSound →
    ∃ v, s.readyRequests v ∧ u.pa = v.pa ∧ u.cc = v.cc

/-- R138 to R143: `u` is `s` after a wake with this origin was admitted. -/
def State.wokenTo (s u : State) (origin : Origin) : Prop :=
  s.wokenChamber u origin ∧ s.keepsTheHouse u ∧ s.asksOnEntry u

/-! ### PA -/

/-- R63, R70: the units that an output in this state holds. -/
def OutState.unitsHeld (v : OutState) (weight : Nat) : Nat :=
  match v with
  | .pulling _ | .striking _ _ => weight
  | .off | .waiting | .holding => 0

/-- R62, R63, R64, R70, R71, R73: an output is WAITING exactly when it stands in a queue, no output stands twice, the
action queue holds at most 128 entries, the units in use are the weights of the outputs that draw them and never exceed
the budget, the run count never exceeds its limit and is 0 while the speech queue is empty, and a candidate waits only
while it does not fit. -/
structure State.ArbiterSound (s : State) : Prop where
  waiting : ∀ o, s.out o = .waiting ↔ o ∈ s.pa.speech ∨ o ∈ s.pa.action.map (·.output)
  once : (s.pa.speech ++ s.pa.action.map (·.output)).Nodup
  capacity : s.pa.action.length ≤ 128
  canonical : s.pa.outs.wf
  units : s.pa.units = (s.pa.outs.entries.map (fun e => e.2.unitsHeld (s.weight e.1))).sum
  budget : s.pa.units ≤ s.prof.params.budget
  runLimit : s.pa.runCount ≤ s.prof.params.actionRunLimit
  runCount : s.pa.speech = [] → s.pa.runCount = 0
  settled : ∀ c, s.candidate = some c → s.freeUnits < s.weight c.output

/-! ### CC -/

/-- R170, R172, R174, R175: a chain's status follows its mismatch count, only a chain with positions shifts, a change
waits only while a shift is in progress, the refresh timer is stopped meanwhile, and a FAILED chain shifts all off. -/
structure State.ChainSound (s : State) (c : Nat) : Prop where
  count : (s.chain c).mismatches ≤ 3
  status : (s.chain c).status =
    if (s.chain c).mismatches = 0 then .good else if (s.chain c).mismatches = 3 then .failed else .suspect
  configured : (s.chain c).shift.isSome = true → s.prof.chainLength c ≠ 0
  change : (s.chain c).changeWaiting = true → (s.chain c).shift.isSome = true
  refresh : (s.chain c).shift.isSome = true → (s.chain c).refresh = none
  failed : (s.chain c).status = .failed → ∀ x, (s.chain c).shift = some x → x.pattern = []

/-! ### KM -/

/-- R20, R21, R23, R24: a free slot's map is UP, no station holds two slots, no slot holds a key that the division has
not, and the merged touch is the highest that any slot holds. R30, R31, R34: the pizzicato list has at most 64 entries,
at most one for a key, each for a key whose merged touch is SECOND, in the order of their expiries. -/
structure State.KeyboardSound (s : State) : Prop where
  free : ∀ c, c < 4 → (s.slot c).station = none → (s.slot c).touch = .empty
  distinct : ∀ c c' a, c < 4 → c' < 4 → (s.slot c).station = some a → (s.slot c').station = some a → c = c'
  keys : ∀ c d k, c < 4 → d < 8 → s.prof.keyCount d ≤ k → k < 64 → s.slotTouch c d k = .up
  merged : ∀ d k, d < 8 → k < 64 → s.mergedTouch d k = s.highest d k
  entries : ∀ e ∈ s.km.pizzicato, e.division < 8 ∧ e.key < 64 ∧ s.mergedTouch e.division e.key = .second ∧
    e.expiry ≤ s.now + s.prof.params.pizzicatoWindow * 1000
  once : s.km.pizzicato.Pairwise (fun e f => ¬ (e.division = f.division ∧ e.key = f.key))
  ordered : s.km.pizzicato.Pairwise (fun e f => e.expiry ≤ f.expiry)
  capacity : s.km.pizzicato.length ≤ 64

/-- R31: the pizzicato entry that a rise of key `k` of division `d` to SECOND at moment `now` creates. -/
def State.pizzEntry (s : State) (now d k : Nat) : PizzEntry :=
  { division := d, key := k, expiry := now + s.prof.params.pizzicatoWindow * 1000 }

/-! ### RE -/

/-- R8: the touch condition is met by a merged touch, with or without a pizzicato entry of the key. -/
def TouchCondition.met (c : TouchCondition) (touch : Touch) (pizz : Bool) : Prop :=
  match c with
  | .first => touch ≠ .up
  | .second => touch = .second
  | .pizz => touch = .second ∧ pizz = true

/-- R15, R17: what a VOICE or TRAP entry of touch condition `c` delivers for key `k` when the condition changes: on the
output that the pair resolves to, the demand count, or on a BAR window the count of the entry's strike mode; or on its
effect's trigger count. -/
def Profile.delivers (p : Profile) (e : StopEntry) (c : TouchCondition) (k : Nat) (up : Bool) (d : Delta) : Prop :=
  (∃ wn offset mode top bottom w o, e.kind = .voice wn offset mode top bottom c ∧ p.windows[wn]? = some w ∧
    resolve (p.baseNote e.division) k offset w top bottom = some o ∧
    d = .count (if w.kind ≠ .bar then .pipe else if mode = .single then .single else .reiterate) wn o up) ∨
  ∃ x, e.kind = .trap x c ∧ d = .effect x up

/-- R13: the deltas are those that `gives` names for an entry index and a key, at most one for the two, in ascending entry
index and, within one entry, in ascending key. -/
def inEntryOrder (gives : Nat → Nat → Delta → Prop) (deltas : List Delta) : Prop :=
  ∃ given : List (Nat × Nat × Delta), given.map (·.2.2) = deltas ∧
    given.Pairwise (fun x y => x.1 < y.1 ∨ x.1 = y.1 ∧ x.2.1 < y.2.1) ∧
    ∀ i k d, (i, k, d) ∈ given ↔ gives i k d

/-! ### DT -/

/-- R41: how many (ON VOICE entry, key) pairs contribute to output `o`'s count of kind `kind`: the entry is ON, its
condition holds for the key's merged touch and pizzicato entry, and it resolves to `o`. -/
def State.contributions (s : State) (kind : CountKind) (o : Nat) : Nat :=
  (s.prof.entries.map fun e =>
    if s.km.stopOn.get e.stop = true then
      ((List.range (s.prof.keyCount e.division)).filter fun k =>
        e.holds (s.mergedTouch e.division k) (s.hasPizz e.division k) &&
          (e.keyDelta s.prof k true).any (fun d =>
            match d with
            | .count kind' _ o' _ => kind' == kind && o' == o
            | .effect _ _ | .group _ _ => false)).length
    else 0).sum

/-- R41, R56: what the tuning hold adds to output `o`'s count of kind `kind`. -/
def State.tuned (s : State) (kind : CountKind) (o : Nat) : Nat :=
  if s.dt.tuning.map (·.output) = some o ∧ (s.prof.windowOf o).map (fun w => countKind w.kind .single) = some kind then 1
  else 0

/-- R41: every count of DT is what its definition gives; before a profile is accepted no output is held for tuning. -/
structure State.DemandCounted (s : State) : Prop where
  unprofiled : s.profile = none → s.dt.tuning = none
  pipe : ∀ o, s.dt.pipe.get o = s.contributions .pipe o + s.tuned .pipe o
  single : ∀ o, s.dt.single.get o = s.contributions .single o + s.tuned .single o
  reiterate : ∀ o, s.dt.reiterate.get o = s.contributions .reiterate o

/-- R18, R33: by how much a pizzicato expiry of key `k` of division `d` lets output `o`'s count of kind `kind` fall: the
ON PIZZ entries of the division whose pair with the key resolves to `o`. -/
def State.pizzFall (s : State) (kind : CountKind) (d k o : Nat) : Nat :=
  (s.prof.entries.filter fun e =>
    decide (e.division = d) && s.km.stopOn.get e.stop &&
      match e.kind with
      | .voice wn offset mode top bottom .pizz =>
        (s.prof.windows[wn]?).any fun w =>
          countKind w.kind mode == kind && resolve (s.prof.baseNote d) k offset w top bottom == some o
      | _ => false).length

/-- R82: how many (ON TRAP entry, key) pairs contribute to effect `e`'s trigger count. -/
def State.trapContributions (s : State) (e : Nat) : Nat :=
  (s.prof.entries.map fun x =>
    match x.kind with
    | .trap e' c =>
      if e' = e ∧ s.km.stopOn.get x.stop = true then
        ((List.range (s.prof.keyCount x.division)).filter fun k =>
          c.holds (s.mergedTouch x.division k) (s.hasPizz x.division k)).length
      else 0
    | .voice _ _ _ _ _ _ | .trem _ => 0).sum

/-- R118: how many ON TREM entries name group `g`. -/
def State.tremEntriesOn (s : State) (g : Nat) : Nat :=
  (s.prof.entries.filter fun x =>
    match x.kind with
    | .trem g' => g' == g && s.km.stopOn.get x.stop
    | .voice _ _ _ _ _ _ | .trap _ _ => false).length

/-- R7, R82, R118, R119: a stop that no entry names is OFF; the three parts of every trigger count are what their sources
give, the trap part the TRAP entries, the stud part the merged touch of the effect's stud, the cue part of a LEVEL effect
the debounced level of its cue line; every on-count is the number of ON TREM entries of its group; and a group runs while
its on-count is above 0 and the chamber is READY, and at no other time. -/
structure State.CallsCounted (s : State) : Prop where
  stops : ∀ n, s.prof.hasStop n = false → s.km.stopOn.get n = false
  trap : ∀ e, (s.trigger e).trap = s.trapContributions e
  stud : ∀ e, (s.trigger e).stud = true ↔
    ∃ x k, s.effect e = some x ∧ x.stud = some k ∧ s.mergedTouch 7 k ≠ .up
  cue : ∀ e, (s.trigger e).cue = true ↔
    ∃ x l, s.effect e = some x ∧ x.mode = .level ∧ x.cueLine = some l ∧ (s.line l).debounced = true
  onCount : ∀ g, (s.trem g).onCount = s.tremEntriesOn g
  running : ∀ g, (s.trem g).running = true ↔ s.ch.state = .ready ∧ 0 < (s.trem g).onCount

/-- R40, R48: the reiteration set of a window holds, ascending, those of its outputs whose reiterate count is above 0;
before a profile is accepted every set is empty. -/
structure State.SetsSound (s : State) : Prop where
  member : ∀ i w o, s.prof.windows[i]? = some w → w.contains o = true →
    (o ∈ s.dt.sets.get i ↔ 0 < s.dt.reiterate.get o)
  ascending : ∀ i, (s.dt.sets.get i).Pairwise (· < ·)
  unprofiled : s.profile = none → s.dt.sets = .empty ∧ s.dt.reiterate = .empty

/-- R2: output `o` lies in a window of this kind. -/
def State.outputIs (s : State) (kind : WindowKind) (o : Nat) : Prop := (s.prof.windowOf o).map (·.kind) = some kind

/-- R44, R45, R51: in READY a PIPE output is out of OFF exactly while its demand count is above 0. R64, R66, R67, R68,
R109: only PIPE outputs stand in the speech queue and only outputs of the other kinds in the action queue, so that no
PIPE output is ever STRIKING. R48: only BAR outputs stand in a reiteration set. -/
structure State.PipesAnswered (s : State) : Prop where
  called : s.ch.state = .ready → ∀ o, s.outputIs .pipe o → (s.out o ≠ .off ↔ 0 < s.dt.pipe.get o)
  speech : ∀ o ∈ s.pa.speech, s.outputIs .pipe o
  action : ∀ e ∈ s.pa.action, ∃ kind, kind ≠ .pipe ∧ s.outputIs kind e.output
  strikes : ∀ o m stay, s.outputIs .pipe o → s.out o ≠ .striking m stay
  sets : ∀ i, ∀ o ∈ s.dt.sets.get i, s.outputIs .bar o

/-! ### EE, the runners and TSU -/

/-- R105: a pass of runner `r` from context `c` in state `s`: step after step, to a step that waits or to the end of the
script, with the context and the state it leaves. -/
inductive PassTo (r : Nat) : Context → State → PassEnd → Context → State → Prop
  | stop {c s e c' s'} : takeStep r c s = (e, c', s') → e ≠ .going → PassTo r c s e c' s'
  | onward {c s c' s' e c'' s''} : takeStep r c s = (.going, c', s') → PassTo r c' s' e c'' s'' →
      PassTo r c s e c'' s''

/-- R104: what a context holds: at most four held outputs, none twice. -/
def Context.bounded (c : Context) : Prop := c.held.length ≤ 4 ∧ c.held.Nodup

/-- The effect that a context runs is one of the table, of claim group `g`. -/
def State.playsIn (s : State) (g : Nat) (c : Context) : Prop :=
  ∃ e x, c.script.effect = some e ∧ s.effect e = some x ∧ x.group = g

/-- R86, R87: an effect is the holder of its group exactly while it has a runner of 1 to 7, and none has two; the
priorities rise strictly from the bottom of each stack to the holder, and the pending effect's is never above the
holder's; a pending effect is neither the holder nor suspended; without a holder the stack is empty, and an effect is
pending only while every runner is occupied. -/
structure State.EffectsSound (s : State) : Prop where
  runners : ∀ r c, 1 ≤ r → r < 8 → s.runner r = some c → ∃ g, s.playsIn g c
  apart : ∀ r r' c c', 1 ≤ r → r < 8 → 1 ≤ r' → r' < 8 → s.runner r = some c → s.runner r' = some c' →
    c.script.effect = c'.script.effect → r = r'
  holder : ∀ g e, (s.group g).holder = some e ↔
    ∃ r c, 1 ≤ r ∧ r < 8 ∧ s.runner r = some c ∧ c.script.effect = some e ∧ s.playsIn g c
  suspended : ∀ g c, c ∈ (s.group g).stack → s.playsIn g c
  rising : ∀ g, ((s.group g).holder.toList.map s.priority ++
    (s.group g).stack.map fun c => (c.script.effect.map s.priority).getD 0).Pairwise (· > ·)
  pending : ∀ g e, (s.group g).pending = some e → ∃ x, s.effect e = some x ∧ x.group = g ∧
    (∀ h, (s.group g).holder = some h → h ≠ e ∧ s.priority e ≤ s.priority h) ∧
    ∀ c ∈ (s.group g).stack, c.script.effect ≠ some e
  beneath : ∀ g, (s.group g).holder = none → (s.group g).stack = []
  occupied : ∀ g, (s.group g).holder = none → (s.group g).pending ≠ none → ∀ r, 1 ≤ r → r < 8 → s.runner r ≠ none

/-- R105: a context stands at the WAIT, AWAIT or AWAITLINE that it waits for, with this timer and a tally of 0. -/
def State.waitsAt (s : State) (c : Context) (timer : Timer) : Prop :=
  c.tally = 0 ∧
    ((∃ d, s.prof.steps[c.index]? = some (.wait d) ∧ c.waiting = .wait timer) ∨
      (∃ m d, s.prof.steps[c.index]? = some (.await m d) ∧ c.waiting = .await m timer) ∨
      ∃ l v d, s.prof.steps[c.index]? = some (.awaitLine l v d) ∧ c.waiting = .awaitLine l v timer)

/-- R102, R103, R104, R109: a context runs a part of an effect that there is, at a step that the part's entry reaches,
and holds outputs of TRAP windows of the effect's claim group. -/
def State.playsScript (s : State) (c : Context) : Prop :=
  ∃ e x i, s.effect e = some x ∧ (c.script = .effectOn e ∧ i = x.onEntry ∨ c.script = .effectOff e ∧ x.offEntry = some i) ∧
    s.prof.Reaches i c.index ∧ ∀ o ∈ c.held, inTrapOf s.prof.windows x.group o = true

/-- R94, R102, R104, R105: every context plays its script and stands at a step that waits: on a runner with its timer
running, in a suspend stack with its timer frozen; runner 0's stands at a step that the entry of its script reaches. -/
structure State.ContextsSound (s : State) : Prop where
  runners : ∀ r c, 1 ≤ r → r < 8 → s.runner r = some c → s.playsScript c ∧ ∃ m, s.waitsAt c (.due m)
  suspended : ∀ g c, c ∈ (s.group g).stack → s.playsScript c ∧ ∃ d, s.waitsAt c (.left d)
  chamber : ∀ c, s.runner 0 = some c → (∃ m, s.waitsAt c (.due m)) ∧
    ∃ i, (c.script = .wake ∧ s.prof.wakeEntry = some i ∨ c.script = .rest ∧ s.prof.restEntry = some i ∨
      c.script = .dark ∧ s.prof.darkEntry = some i) ∧ s.prof.Reaches i c.index

/-- R88: `u` has PA and CC as the clear of claim group `g` in `s` leaves them: a RELEASE for every output of the TRAP
windows of the group, in ascending order. Of what the group's effects asked for nothing is left but strikes that run out
and end OFF: what was PULLING or HOLDING is OFF, a running strike has lost its mark, nothing of the group waits; and no
other output moves but one that waited, which may be granted. -/
def State.clearedTo (s u : State) (g : Nat) : Prop :=
  let mine := fun o => inTrapOf s.prof.windows g o = true
  (∃ outs : List Nat, outs.Pairwise (· < ·) ∧ (∀ o, o ∈ outs ↔ mine o) ∧
    u.pa = (outs.foldl (fun v o => paRelease o v) s).pa ∧ u.cc = (outs.foldl (fun v o => paRelease o v) s).cc) ∧
  (s.ArbiterSound → ∀ o,
    (mine o → u.out o = .off ∨ ∃ m, u.out o = .striking m false) ∧
    (mine o → (s.out o = .holding ∨ ∃ m, s.out o = .pulling m) → u.out o = .off) ∧
    (mine o → ∀ m stay, s.out o = .striking m stay → u.out o = .striking m false) ∧
    (¬ mine o → s.out o ≠ .waiting → u.out o = s.out o))

/-- R86: the fresh context of effect `e`, of record `x`, once its ON script has begun with a WAIT of `d` ms. -/
def State.begun (s : State) (e : Nat) (x : Effect) (d : Nat) : Context :=
  { script := .effectOn e, index := x.onEntry, waiting := .wait (.due (s.now + d * 1000)), registerA := none,
    registerB := none, held := [], rearmed := false, tally := 0 }

/-- R93, R94, R95: `u` is `s` after the holder of group `g`, whose context `c` stood on runner `r`, has ended. Its held
outputs are released, and its runner goes to the pending effect of the group if the stack is empty or its top is of a
lower priority; else to the top of the stack, whose effect is the holder again with HOLD sent for its held list and its
wait running for the time left; else to the pending effect of the highest priority, of the lowest group on ties, among the
groups without a holder; else the runner is free. PA, CC and the record are as a RELEASE for each output of the held list
leaves them, in list order, and then, where an effect resumes, a HOLD for each of its own. (A started ON script is one that
begins with a WAIT.) -/
def State.endedTo (s u : State) (r : Nat) (c : Context) (g : Nat) : Prop :=
  let group := s.group g
  let holderless := fun g' : Nat => g' < 16 ∧ g' ≠ g ∧ (s.group g').holder = none
  let top := fun e : Nat => ∃ c' rest, group.stack = c' :: rest ∧ (c'.script = .effectOn e ∨ c'.script = .effectOff e)
  let released := s.ch.state = .ready → s.ArbiterSound → ∀ o ∈ c.held,
    (s.out o = .holding ∨ ∃ ends, s.out o = .pulling ends) → u.out o = .off
  let lifted := c.held.foldl (fun v o => paRelease o v) s
  let asked := fun v : State => u.pa = v.pa ∧ u.cc = v.cc ∧ u.pf = v.pf
  let frame := u = { s with
    ee := { u.ee with triggers := s.ee.triggers }
    pa := u.pa, cc := u.cc, pf := { s.pf with record := u.pf.record, later := u.pf.later, seen := u.pf.seen } }
  let others := (∀ r', r' ≠ r → u.runner r' = s.runner r') ∧ ∀ g', g' ≠ g → u.group g' = s.group g'
  (group.stack = [] → group.pending = none → (∀ g', holderless g' → (s.group g').pending = none) →
    u = { s with
      ee := { s.ee with
        runners := s.ee.runners.set r none
        groups := s.ee.groups.set g { holder := none, stack := [], pending := none } }
      pa := u.pa, cc := u.cc } ∧
    (c.held = [] → u.pa = s.pa ∧ u.cc = s.cc) ∧ released ∧ asked lifted) ∧
  (∀ c' rest x, group.stack = c' :: rest → c'.waiting.timer = some (.left x) → 0 < x →
    (∀ p, group.pending = some p → ∃ e, top e ∧ s.priority p ≤ s.priority e) →
    u.runner r = some { c' with waiting := c'.waiting.mapTimer fun _ => .due (s.now + x) } ∧
      u.group g = { holder := c'.script.effect, stack := rest, pending := group.pending } ∧ others ∧ frame ∧
      asked (c'.held.foldl (fun v o => paHold o v) lifted) ∧
      (s.ch.state = .ready → s.pa.action.length + c'.held.length ≤ 128 → ∀ o ∈ c'.held, u.out o ≠ .off)) ∧
  (∀ p x d, group.pending = some p → (group.stack = [] ∨ ∃ e, top e ∧ s.priority e < s.priority p) →
    s.effect p = some x → x.group = g → s.prof.steps[x.onEntry]? = some (.wait d) →
    u.runner r = some (s.begun p x d) ∧ u.group g = { group with holder := some p, pending := none } ∧ others ∧
      frame ∧ released ∧ asked lifted) ∧
  (∀ g' p x d, group.stack = [] → group.pending = none → holderless g' → (s.group g').pending = some p →
    (∀ g'' q, holderless g'' → g'' ≠ g' → (s.group g'').pending = some q →
      s.priority q < s.priority p ∨ s.priority q = s.priority p ∧ g' < g'') →
    s.effect p = some x → x.group = g' → s.prof.steps[x.onEntry]? = some (.wait d) →
    u.runner r = some (s.begun p x d) ∧ u.group g = { holder := none, stack := [], pending := none } ∧
      u.group g' = { s.group g' with holder := some p, pending := none } ∧
      (∀ r', r' ≠ r → u.runner r' = s.runner r') ∧ (∀ k, k ≠ g → k ≠ g' → u.group k = s.group k) ∧ frame ∧ released ∧
      asked lifted)

/-- R105: `u` is `s` after runner `r`, whose wait in context `c` is over, has gone on at the next step and taken its pass:
it stands at the step that waits, or its effect has ended, or its chamber script is completed and the chamber has gone on.
(Said of a pass that does not itself satisfy runner 0's AWAITLINE.) -/
def State.wentOn (s u : State) (r : Nat) (c : Context) : Prop :=
  let begun : Context := { c with index := c.index + 1, waiting := .running }
  ∀ e c' s', PassTo r begun (s.setRunner r (some begun)) e c' s' →
    let quiet := fun v : State => ∀ c₀, v.runner 0 = some c₀ → c₀.waiting ≠ .running
    (e = .waits → quiet (s'.setRunner r (some c')) → u = s'.setRunner r (some c')) ∧
    (e = .ended → 1 ≤ r → quiet s' → ∀ x, (c.script = .effectOn x ∨ c.script = .effectOff x) →
      s'.endedTo u r c' (s.groupOf x)) ∧
    (e = .ended → r = 0 → c.script.chamberState = some s.ch.state → u.runner 0 = none ∧
      (c.script = .wake → (u.ch.state = .ready ∨ s.ch.origin = .dark ∧ u.ch.state = .gathering) ∧
        (s.ch.origin = .dark → s.gathersTo u) ∧
        (u.ch.state = .ready → s.QuietOutsideReady → s.readyBegun u) ∧ s.asksOnEntry u) ∧
      (c.script = .rest → u.ch.state = .resting) ∧
      (c.script = .dark → u.ch.state = .dark ∧ u.ch.origin = .dark))

/-- R112: the context's AWAIT for mark `k` is in progress. -/
def Context.awaits (c : Context) (k : Fin 64) : Prop := ∃ m, c.waiting = .await k (.due m)

/-- R116: `u` is `s` after the runners of the list have taken a mark, one after the other, each going on from the context
in which it awaited it. The number of free orders taken between them is free (log 3). -/
def State.marked (s u : State) : List (Nat × Context) → Prop
  | [] => u = s
  | (r, c) :: rest => s.runner r = some c ∧
      ∃ n v, ({ s with choices := n } : State).wentOn v r c ∧ v.marked u rest

/-- R116: `u` is `s` after every runner whose AWAIT for mark `k` had begun has gone on, in one order or another. -/
def State.allMarked (s u : State) (k : Fin 64) : Prop :=
  ∃ order : List (Nat × Context), (order.map (·.1)).Nodup ∧
    (∀ r c, (r, c) ∈ order ↔ r < 8 ∧ s.runner r = some c ∧ c.awaits k) ∧ s.marked u order

/-- R87, R104: the suspend stacks hold at most three contexts, and every context is within its bounds. R125, R128,
R129: a set's stage and target lie within its stages, and the target is that of the position last adopted. -/
structure State.WithinBounds (s : State) : Prop where
  runners : ∀ r c, s.runner r = some c → c.bounded
  suspended : ∀ g, (s.group g).stack.length ≤ 3 ∧ ∀ c ∈ (s.group g).stack, c.bounded
  shutters : ∀ x cfg, s.shutterSet x = some cfg → (s.shutter x).stage ≤ cfg.stages ∧
    (s.shutter x).target ≤ cfg.stages ∧ (s.shutter x).pref ≤ 127 ∧
    (s.shutter x).target = ((s.shutter x).pref * cfg.stages + 64) / 128
  absent : ∀ x, s.shutterSet x = none → s.shutter x = default

/-! ### LI and PT -/

/-- R157 to R160: the transmit queue holds at most one PRESENCE, one REPORT and one BEAT of each tag, and with the frame
in flight at most nine frames; the duplicate count is at most 3, at which the station is MUTE and holds no frame. R166,
R167: a silence timer runs for a HEARD station and for no other, and only a HEARD station has announced a state. -/
structure State.RelaySound (s : State) : Prop where
  once : s.li.queue.Pairwise (fun a b => a.frame.sameSlot b.frame = false)
  capacity : s.li.queue.length + (if s.li.inFlight.isSome then 1 else 0) ≤ 9
  mute : s.li.mute = true → s.li.queue = [] ∧ s.li.inFlight = none
  duplicates : s.li.duplicates ≤ 3 ∧ (s.li.mute = true ↔ s.li.duplicates = 3)
  heard : ∀ a, (s.peer a).state = .heard ↔ (s.peer a).silence.isSome = true
  announced : ∀ a, (s.peer a).state ≠ .heard → (s.peer a).announced = none

/-! ### The tables -/

/-- Every table of the state is in its canonical form, so that equal contents are equal data. -/
structure State.Canonical (s : State) : Prop where
  km : s.km.slots.wf ∧ s.km.merged.wf ∧ s.km.stopOn.wf ∧ s.km.refused.wf
  touches : ∀ c, (s.slot c).touch.wf
  dt : s.dt.pipe.wf ∧ s.dt.single.wf ∧ s.dt.reiterate.wf ∧ s.dt.sets.wf ∧ s.dt.clocks.wf
  pa : s.pa.outs.wf
  cc : s.cc.wf
  pt : s.pt.wf
  ee : s.ee.triggers.wf ∧ s.ee.groups.wf ∧ s.ee.runners.wf
  tsu : s.tsu.trems.wf ∧ s.tsu.shutters.wf
  ll : s.ll.wf

/-! ### What a SHOE pair does to a set -/

/-- R126, R128, R129: the set after a pair (shoe, position) from the console in slot `c`: a set of that shoe which no
other console owns is owned, its owner-hold timer starts afresh, and the position is adopted when it differs from the one
last adopted by the hysteresis or more, or is 0 or 127. In a READY chamber (`ready`) an adoption steps the set if its step
timer is stopped and its stage differs from the new target. -/
def Shutter.afterPair (cfg : ShutterSet) (c now : Nat) (ready : Bool) (v : Shutter) (pair : Fin 8 × Byte) : Shutter :=
  let p := min pair.2.toNat 127
  let owned : Shutter := { v with owner := some c, ownerHold := some (now + cfg.ownerHold * 1000) }
  if cfg.shoe = pair.1.val ∧ (v.owner = none ∨ v.owner = some c) then
    if v.pref + cfg.hysteresis ≤ p ∨ p + cfg.hysteresis ≤ v.pref ∨ p = 0 ∨ p = 127 then
      let adopted : Shutter := { owned with pref := p, target := (p * cfg.stages + 64) / 128 }
      if ready = true ∧ v.stepTimer = none then adopted.stepped cfg now else adopted
    else owned
  else v

/-- The value that a list of changes gives key `n`: that of the last change which names it. -/
def lastChange {n : Nat} {α : Type} (changes : List (Fin n × α)) (i : Nat) : Option α :=
  (changes.reverse.find? (fun x => x.1.val == i)).map (·.2)

end Sys2Proof.Machine
end

