-- ==== Sys2Proof/WellFormed.lean ====
section
/-! DEFINITION. Which commands are well formed: the counts that the payload lengths of R154 and R162 allow, and a
loopback of whole driver stages (R170). Every other bound is in the operands' types. -/

namespace Sys2Proof

/-- The well-formed commands. -/
def Instr.wellFormed : Instr → Bool
  | .keys _ _ _ changes => decide (1 ≤ changes.length ∧ changes.length ≤ 8)
  | .snap _ _ _ codes => codes.length == 64
  | .shoe _ _ pairs => decide (1 ≤ pairs.length ∧ pairs.length ≤ 8)
  | .stops _ _ changes => decide (1 ≤ changes.length ∧ changes.length ≤ 6)
  | .reportReceived _ _ payload => payload.length == 20
  | .shiftEnd _ _ returned => decide (returned.length ≤ 384 ∧ returned.length % 8 = 0)
  | .powerOn _ _ | .pinReset _ _ | .profileLoadEnd _ _ | .lineCheck _ _ _ | .alloff _ _ | .restart _ _ _ _
  | .beat _ _ _ | .mark _ _ _ | .chamberWake _ _ _ | .chamberRest _ _ _ | .chamberDark _ _ _ | .tune _ _ _ _
  | .clear _ _ _ | .ask _ _ _ | .presence _ _ _ _ _ _ | .silenceTimerExpiry _ _ | .pizzicatoExpiry _ _ _
  | .reiterationClockEdge _ _ | .pullInEnd _ _ | .strikeEnd _ _ | .refreshTimerExpiry _ _ | .waitEnd _ _
  | .awaitTimeout _ _ | .awaitlineTimeout _ | .phase0 _ _ | .phaseW _ _ | .followLossExpiry _ _
  | .ownerHoldExpiry _ _ | .stepTimerExpiry _ _ | .syncTimeout _ | .restTimerExpiry _ | .lineRawChange _ _ _
  | .debounceExpiry _ _ | .presencePeriodExpiry _ | .txStart _ | .claimLost _ | .txMismatch _ | .txComplete _
  | .profileHeaderRead _ _ | .endOfPinReset _ => true

end Sys2Proof
end

