-- ==== Sys2Proof/Certificates/Slice0/Obligations.lean ====
section
/-! DEFINITION. The statements about the CV24, for the provers. -/

open Sys2Proof Sys2Proof.Machine

/-! ### The step and the queue -/

/-- A step of a state with `c` at the front of its queue is the execution of `c` on the state with the queue's rest. -/
def Obligations.StepRunsTheFrontCommand : Prop :=
  ∀ (c : Instr) (s : State), step { s with pending := c :: s.pending } = exec c s

/-- Every command, in every state, answers a next state with the clock at the command's moment, or where it was if that
moment is past, and with the queue as it was; on an empty queue the block idles (logs 1 and 2, the model's choices). -/
def Obligations.EveryCommandRunsAndKeepsTheQueue : Prop :=
  (∀ (c : Instr) (s : State), ∃ u, exec c s = .next u ∧ u.now = max s.now c.moment ∧ u.pending = s.pending) ∧
    ∀ s : State, s.pending = [] → step s = .next s

/-- R7, R20, R40, R62, R81, R104, R117, R125, R134, R159, R164, R166, R170, R176, R180, R185, R186: what a power-on reset
leaves (station number 0 and moment 0 are the model's choice, logs 1 and 4; that the LOADING PRESENCE of R164 already waits
there is the model's reading, log 6), and that every invariant of Safety.lean holds there. -/
def Obligations.ResetLeavesTheSpecsValues : Prop :=
  let s := State.reset
  (s.ch.state = .loading ∧ s.ch.rest = none ∧ s.ch.sync = none ∧ s.profile = none ∧ s.pf.cause = .powerOn ∧
      s.pf.tag = 0 ∧ s.pf.record = none ∧ s.pf.later = false ∧ s.pf.seen = 0) ∧
    (∀ c, (s.slot c).station = none ∧ ∀ d k, s.slotTouch c d k = .up ∧ s.mergedTouch d k = .up) ∧
    (∀ n, s.km.stopOn.get n = false ∧ s.km.refused.get n = false) ∧ s.km.pizzicato = [] ∧
    (∀ o, s.out o = .off ∧ s.dt.pipe.get o = 0 ∧ s.dt.single.get o = 0 ∧ s.dt.reiterate.get o = 0) ∧
    s.dt.tuning = none ∧ s.pa.speech = [] ∧ s.pa.action = [] ∧ s.pa.units = 0 ∧ s.pa.runCount = 0 ∧
    (∀ c, (s.chain c).status = .good ∧ (s.chain c).mismatches = 0 ∧ (s.chain c).latched = [] ∧
      (s.chain c).shift = none ∧ (s.chain c).released = false) ∧
    (∀ a, (s.peer a).state = .unheard ∧ (s.peer a).announced = none ∧ (s.peer a).silence = none) ∧
    (∀ e, (s.trigger e).count = 0) ∧
    (∀ g, (s.group g).holder = none ∧ (s.group g).pending = none ∧ (s.group g).stack = []) ∧
    (∀ r, s.runner r = none) ∧
    (∀ g, (s.trem g).running = false ∧ (s.trem g).locked = false ∧ (s.trem g).onCount = 0) ∧
    (∀ x, (s.shutter x).stage = 0 ∧ (s.shutter x).target = 0 ∧ (s.shutter x).owner = none) ∧
    s.li = .loading 0 false ∧
    (s.QuietOutsideReady ∧ s.ChamberSound ∧ s.ProfileSound ∧ s.ArbiterSound ∧ (∀ c, s.ChainSound c) ∧
      s.KeyboardSound ∧ s.DemandCounted ∧ s.SetsSound ∧ s.PipesAnswered ∧ s.CallsCounted ∧ s.EffectsSound ∧
      s.ContextsSound ∧ s.WithinBounds ∧ s.RelaySound ∧ s.Canonical)

/-! ### Resets, loading and the record (11) -/

/-- R185: POWER_ON sets every block to its reset values, takes the straps as the station number with the tag 0 (R180),
empties the record, and leaves LI with the LOADING PRESENCE waiting (R164). It is taken in every state. A RESTART whose
mask names this station does the same with the cause LINE, keeping the record, the later flag and the seen-kinds set; one
that does not is only heard, and in PROFILE_FAULT it is not taken (R184). That a reset leaves each pin's raw level as it
stood is the model's choice (log 4). -/
def Obligations.PowerOnAndRestartResetEveryBlock : Prop :=
  (∀ (t : Nat) (straps : Station) (s : State), ∃ u, exec (.powerOn t straps) s = .next u ∧
    u = s.afterReset (max s.now t) (.loading (max s.now t) false)
      { station := straps, tag := 0, cause := .powerOn, record := none, later := false, seen := 0, held := false
        resetAt := some (max s.now t) } u.ll ∧
    s.pinsKept u) ∧
  (∀ (t : Nat) (a : Station) (mask : BitVec 16) (straps : Station) (s : State), s.takes →
    (s.ch.state = .profileFault → exec (.restart t a mask straps) s = .next (s.at t)) ∧
    (s.ch.state ≠ .profileFault → mask.getLsbD s.pf.station.val = false →
      exec (.restart t a mask straps) s = .next (s.hearing t a)) ∧
    (s.ch.state ≠ .profileFault → mask.getLsbD s.pf.station.val = true →
      ∃ u, exec (.restart t a mask straps) s = .next u ∧
        u = s.afterReset (max s.now t) (.loading (max s.now t) s.pf.record.isSome)
          { s.pf with
            station := straps, tag := 0, cause := .line, held := false, resetAt := some (max s.now t) } u.ll ∧
        s.pinsKept u))

/-- R185, R180: PIN_RESET sets every block to its reset values with the cause PIN and keeps the record, the later flag
and the seen-kinds set; at the moment of a RESTART that was taken first the two restart the part once, with the cause
LINE (that any reset taken first at that moment keeps its cause is the model's reading, log 5). The part then stays in
reset, and END_OF_PIN_RESET hands over the LOADING PRESENCE and starts its period (R164). That a reset leaves each pin's raw level as it stood is the model's choice (log 4). Its choice too (log 5): while NRST is
low no command has an effect but a reset, the end of the pin
reset and a change of a pin's level, and an END_OF_PIN_RESET with NRST high changes nothing. -/
def Obligations.PinResetHoldsUntilItsEnd : Prop :=
  ((∀ (t : Nat) (straps : Station) (s : State), ∃ u, exec (.pinReset t straps) s = .next u ∧
    u = s.afterReset (max s.now t)
      { queue := [], inFlight := none, mute := false, duplicates := 0, presencePeriod := none }
      { s.pf with
        station := straps, tag := 0, cause := if s.pf.resetAt = some (max s.now t) then s.pf.cause else .pin
        held := true, resetAt := some (max s.now t) } u.ll ∧
    s.pinsKept u ∧
    ∀ t' : Nat, exec (.endOfPinReset t') u =
      .next { u with
        now := max u.now t'
        li := .loading (max u.now t') s.pf.record.isSome
        pf := { u.pf with held := false } }) ∧
  (∀ (t t' : Nat) (a : Station) (mask : BitVec 16) (straps straps' : Station) (s u : State), s.listens →
    mask.getLsbD s.pf.station.val = true → exec (.restart t a mask straps) s = .next u → t' ≤ u.now →
    exec (.pinReset t' straps') u = .next { u with
      li := { queue := [], inFlight := none, mute := false, duplicates := 0, presencePeriod := none }
      pf := { s.pf with
        station := straps', tag := 0, cause := .line, held := true, resetAt := some (max s.now t) } }) ∧
  ∀ (t : Nat) (s : State), s.pf.held = false → exec (.endOfPinReset t) s = .next (s.at t)) ∧
  (∀ (c : Instr) (s : State), s.pf.held = true →
    (∀ t straps, c ≠ .powerOn t straps) → (∀ t straps, c ≠ .pinReset t straps) → (∀ t, c ≠ .endOfPinReset t) →
    (∀ t l v, c ≠ .lineRawChange t l v) → exec c s = .next (s.at c.moment))

/-- R180: PROFILE_HEADER_READ gives the tag while the chamber is LOADING. R182, R184: an image that fails a check leaves
the chamber in PROFILE_FAULT, with the tag as read, the refusal taken as a report of kind 14 whose detail is section x 256
+ code, and the seen-kinds set as it was; PROFILE_FAULT is announced with the fault-present flag (log 12, the model's
reading), and no block takes a table. In another state neither command changes anything (log 1, the model's choice). -/
def Obligations.RefusedImageEntersProfileFault : Prop :=
  (∀ (t : Nat) (image : List Byte) (x : LoadFault) (s : State), s.takes → s.ch.state = .loading →
    loadImage image = .error x →
    ∃ u, exec (.profileLoadEnd t image) s = .next u ∧
      u = { s.at t with
        ch := { s.ch with state := .profileFault }
        pf := ({ s.pf with tag := imageTag image } : Pf).recording .profileRefusal x.source (x.sectionNo * 256 + x.code)
        li := u.li } ∧
      u.pf.seen = s.pf.seen ∧
      (s.li.mute = false → s.li.queue.length < 8 →
        ∃ q ∈ u.li.queue, q.frame = .presence .profileFault true (imageTag image))) ∧
  (∀ (t : Nat) (tag : BitVec 16) (s : State), s.takes →
    exec (.profileHeaderRead t tag) s =
      .next (if s.ch.state = .loading then { s.at t with pf := { s.pf with tag := tag } } else s.at t)) ∧
  (∀ (t : Nat) (image : List Byte) (s : State), s.takes → s.ch.state ≠ .loading →
    exec (.profileLoadEnd t image) s = .next (s.at t))

/-- R183, R176, R81, R170: an image that passes is taken. The profile is held and lies in its ranges, the lines take
their functions with their pins' levels, the LEVEL effects take the levels of their cue lines, and every chain that has
positions starts its all-off shift, in which it stays; without START in the wake mask the chamber is DARK, and with it, it
is woken from DARK, as `State.wokenTo` gives (R137, R138). R150, R164: the state that the chamber has come to is announced
with the image's tag. R176: every output line begins to drive low, as it does until a WAKE script drives it. -/
def Obligations.AcceptedImageIsTaken : Prop :=
  ∀ (t : Nat) (image : List Byte) (p : Profile) (s : State), s.takes → s.ch.state = .loading →
    loadImage image = .ok p →
    ∃ u dark, exec (.profileLoadEnd t image) s = .next u ∧ u.profile = some p ∧ p.InRange ∧
      u.pf.tag = imageTag image ∧ u.pf.station = s.pf.station ∧ u.pf.cause = s.pf.cause ∧ u.km = s.km ∧ u.pt = s.pt ∧
      (∀ l, l < 12 → (u.line l).raw = (s.line l).raw ∧ (u.line l).debounce = none ∧
        (u.line l).debounced = ((p.lineFunction l).isInput && (s.line l).raw)) ∧
      (∀ e x l, p.effects[e]? = some x → x.mode = .level → x.cueLine = some l → l < 12 →
        (u.trigger e).cue = ((p.lineFunction l).isInput && (s.line l).raw)) ∧
      (∀ c, c < 4 → p.chainLength c ≠ 0 → (s.chain c).status ≠ .failed → s.pa = .cleared →
        (u.chain c).shift = some { pattern := [], ends := max s.now t + (p.chainLength c / 2 + 1) }) ∧
      dark = { s.at t with
        profile := some p, pf := { s.pf with tag := imageTag image }, ch := { s.ch with state := .dark }
        ll := dark.ll, ee := dark.ee, cc := dark.cc, li := { s.li with queue := dark.li.queue } } ∧
      (∀ l, l < 12 → dark.line l = { u.line l with driven := false }) ∧
      (s.li.mute = true → dark.li.queue = s.li.queue) ∧
      (let f := Frame.presence .dark s.pf.record.isSome (imageTag image)
      (s.li.mute = false → (∀ q ∈ s.li.queue, ∀ a b c, q.frame ≠ .presence a b c) → s.li.queue.length < 8 →
        dark.li.queue = s.li.queue ++ [{ frame := f, age := max s.now t }]) ∧
      (s.li.mute = false → ∀ before after a b c age,
        s.li.queue = before ++ { frame := .presence a b c, age := age } :: after →
        (∀ q ∈ before ++ after, ∀ a b c, q.frame ≠ .presence a b c) →
        dark.li.queue = before ++ { frame := f, age := age } :: after)) ∧
      ({ s with pf := { s.pf with tag := imageTag image } } : State).announces u ∧
      (p.params.wakeMask.start = false → u = dark) ∧ (p.params.wakeMask.start = true → dark.wokenTo u .dark)

/-- R182: the first three checks of an image, in their order: the identifier 3624 (code 1), a body of at most 16,376
bytes (code 3), and the body's check (code 2). Each is reported with section 0 and source 0. A memory that does not answer
reads as all ones (R180): its tag is 65535 and it fails the first check (that bytes beyond what the command carries read so
is the model's reading, log 10). -/
def Obligations.ImageHeaderIsCheckedFirst : Prop :=
  ∀ image : List Byte,
    let refusedWith := fun code => loadImage image = .error { sectionNo := 0, code := code, source := 0 }
    (wordAt image 0 ≠ 3624 → refusedWith 1) ∧
    (wordAt image 0 = 3624 → 16376 < wordAt image 2 → refusedWith 3) ∧
    (wordAt image 0 = 3624 → wordAt image 2 ≤ 16376 →
      (checkOf (bytesAt image 8 (wordAt image 2))).toNat ≠ wordAt image 6 → refusedWith 2) ∧
    (image = [] → refusedWith 1 ∧ (imageTag image).toNat = 65535)

/-- R155, R186: a frame that fails its check is recorded as LINE_CHECK with the station field of its claim byte and the
reason's code, except in PROFILE_FAULT (R184), and changes nothing else. R185, R186, R187: no command but a power-on and a
CLEAR that names this station empties a filled first-fault record or changes what it holds, clears the later flag, or
takes a kind out of the seen-kinds set. -/
def Obligations.FirstFaultOutlivesEveryCommand : Prop :=
  (∀ (c : Instr) (s u : State), (∀ t straps, c ≠ .powerOn t straps) →
    (∀ t a mask, c = .clear t a mask → mask.getLsbD s.pf.station.val = false) → exec c s = .next u →
    (∀ e, s.pf.record = some e → u.pf.record = some e) ∧ (s.pf.later = true → u.pf.later = true) ∧
      ∀ i, s.pf.seen.getLsbD i = true → u.pf.seen.getLsbD i = true) ∧
  (∀ (t : Nat) (a : Station) (reason : CheckReason) (s : State), s.takes →
    exec (.lineCheck t a reason) s =
      .next (if s.ch.state = .profileFault then s.at t else
        { s.at t with
          pf := s.pf.recording .lineCheck a.val
            (match reason with | .framing => 1 | .length => 2 | .kind => 3 | .check => 4) }))

/-- R187: a CLEAR naming this station empties the record, the later flag and the seen-kinds set, in every state but
PROFILE_FAULT, and touches nothing else: a PRESENCE that already waits keeps its flag, and one handed over next carries
the flag clear. Of a CLEAR and a report at one moment, a report taken first is removed, and one taken second fills the
emptied record. A CLEAR that leaves the station out or finds the record empty is ignored. -/
def Obligations.ClearEmptiesTheRecord : Prop :=
  ∀ (t : Nat) (a : Station) (mask : BitVec 16) (s : State), s.takes →
    let empty : Pf := { s.pf with record := none, later := false, seen := 0 }
    exec (.clear t a mask) s = .next (
      if s.ch.state = .profileFault then s.at t
      else if mask.getLsbD s.pf.station.val = true ∧ s.pf.record ≠ none then { s.hearing t a with pf := empty }
      else s.hearing t a) ∧
    (s.ch.state ≠ .profileFault → mask.getLsbD s.pf.station.val = true →
      let cleared : State := { s.hearing t a with pf := empty }
      handPresence cleared = handOver (.presence s.ch.state false s.pf.tag) cleared ∧
      ∀ k source detail,
        exec (.clear t a mask) (reportFault k source detail s) = .next cleared ∧
        (reportFault k source detail cleared).pf =
          { empty with record := some { kind := k, source := source, detail := detail }, seen := k.seenBit })

/-- R188, R160: an ASK naming this station hands LI a REPORT of what the blocks hold: in the place of one that waits,
else at the tail if fewer than 8 frames wait; a MUTE station discards it. It is answered in every state, and in
PROFILE_FAULT PT does not hear its sender (R184). The number sounding is that of the PIPE outputs PULLING or HOLDING.
Nothing else changes. -/
def Obligations.AskIsAnsweredWithAReport : Prop :=
  ∀ (t : Nat) (a b : Station) (s : State), s.takes →
    let heard := if s.ch.state = .profileFault then s.at t else s.hearing t a
    (b ≠ s.pf.station → exec (.ask t a b) s = .next heard) ∧
    (b = s.pf.station → ∃ (u : State) (r : Report), exec (.ask t a b) s = .next u ∧
      u = { heard with li := { s.li with queue := u.li.queue } } ∧
      r = { state := s.ch.state, cause := s.pf.cause, later := s.pf.later,
            chains := [(s.chain 0).status, (s.chain 1).status, (s.chain 2).status, (s.chain 3).status],
            tag := s.pf.tag, record := s.pf.record, seen := s.pf.seen, sounding := s.sounding,
            speechDepth := s.pa.speech.length, actionDepth := s.pa.action.length, units := s.pa.units,
            holders := r.holders } ∧
      (s.pa.outs.wf → ∃ outs : List Nat, outs.Nodup ∧
        (∀ o, o ∈ outs ↔ s.outputIs .pipe o ∧ (s.out o = .holding ∨ ∃ m, s.out o = .pulling m)) ∧
        r.sounding = outs.length) ∧
      (r.holders.length = 32 ∧
        ∀ e, e < 32 → (r.holders[e]? = some true ↔ ∃ g, g < 16 ∧ (s.group g).holder = some e)) ∧
      (s.li.mute = true → u.li.queue = s.li.queue) ∧
      (s.li.mute = false → (∀ q ∈ s.li.queue, ∀ x, q.frame ≠ .report x) → s.li.queue.length < 8 →
        u.li.queue = s.li.queue ++ [{ frame := .report r, age := max s.now t }]) ∧
      (s.li.mute = false → ∀ before after x age, s.li.queue = before ++ { frame := .report x, age := age } :: after →
        (∀ q ∈ before ++ after, ∀ y, q.frame ≠ .report y) →
        u.li.queue = before ++ { frame := .report r, age := age } :: after) ∧
      (s.li.mute = false → (∀ q ∈ s.li.queue, ∀ x, q.frame ≠ .report x) → 8 ≤ s.li.queue.length →
        u.li.queue = s.li.queue))

/-! ### Received frames (09) and the keyboard (02) -/

/-- R155, R166: every checked frame but a RESTART that names this station makes its sender's entry HEARD with its silence
timer at 600 ms, and no other station's entry moves; in PROFILE_FAULT no frame but an ASK is taken (R184). A REPORT of
another station does no more than this, and before a profile is accepted (R20, R40, R55, R145) neither do the frames of the
consoles and of the other chambers. -/
def Obligations.EveryCheckedFrameIsHeard : Prop :=
  ((∀ (c : Instr) (a : Station) (s : State), s.listens → c.sender = some a →
    (∀ t mask straps, c = .restart t a mask straps → mask.getLsbD s.pf.station.val = false) →
    ∃ u, exec c s = .next u ∧ (u.peer a).state = .heard ∧
      (u.peer a).silence = some (max s.now c.moment + 600000) ∧ ∀ b, b ≠ a → u.peer b = s.peer b) ∧
  (∀ (c : Instr) (a : Station) (s : State), s.takes → s.ch.state = .profileFault → c.sender = some a →
    (∀ t b, c ≠ .ask t a b) → exec c s = .next (s.at c.moment)) ∧
  (∀ (t : Nat) (a : Station) (payload : List Byte) (s : State), s.listens →
    exec (.reportReceived t a payload) s = .next (s.hearing t a))) ∧
  (∀ (c : Instr) (a : Station) (s : State), s.listens → s.profile = none → c.sender = some a →
    (∀ t mask straps, c ≠ .restart t a mask straps) → (∀ t mask, c ≠ .clear t a mask) → (∀ t b, c ≠ .ask t a b) →
    (∀ t role state flags tag, c ≠ .presence t a role state flags tag) →
    exec c s = .next (s.hearing c.moment a))

/-- R24, R21: a KEYS frame sets, in the slot of its sender, each key of the division to the touch of its last change, code
3 as SECOND, and ignores keys at or above the key count. R25: a SNAP frame sets every key of the division, up to its key
count. An unbound sender first takes the lowest free slot, with every key UP. No other slot, no stop and no refused
station moves, and every merged touch is again the highest of the slots (R23). R30, R31, R32: one key whose merged touch
rises to SECOND appends an entry that expires a pizzicato window after the frame's arrival, and a list of 64 entries first
loses its head, the entry of the earliest expiry and of those the one created first; a fall from SECOND takes the key's
entry out, and otherwise the list stands. In a frame of several changes every key that has risen to SECOND has its entry
while the list has room for the frame, and every entry is either one of before or one that the frame made; the entries
that a SNAP frame makes stand in key order behind those it leaves. R27, R28, R137, R144: the change of one key is taken by
RE, as one application of its deltas, then, on division 7, by EE as stud deltas; then a rise offers PLAY, and wakes a
chamber that is DARK, SETTLING or RESTING with PLAY in the mask, and in any other case the chamber state stands. In READY a
frame that moves a merged touch restarts the rest timer. R23: a frame that names no key twice and moves no merged touch hands
nothing on, and changes nothing but the slot. R14, R18, R24, R25: several changes of a KEYS frame are taken as
frames of one change each, one after the other, and a SNAP frame as the KEYS frame of all its keys in ascending order; an
eviction is an expiry application of its own before that of the key that needed the room. -/
def Obligations.KeysAndSnapSetTheSendersSlot : Prop :=
  (∀ (t : Nat) (a : Station) (d : Fin 8) (changes : List (Fin 64 × BitVec 2)) (c : Nat) (s : State), s.serves →
    (s.slotOf a = some c ∨ s.slotOf a = none ∧ s.freeSlot = some c) →
    ∃ u, exec (.keys t a d changes) s = .next u ∧ (u.slot c).station = some a ∧
      (∀ d' k, d' < 8 → k < 64 → u.slotTouch c d' k =
        let before := if s.slotOf a = some c then s.slotTouch c d' k else .up
        if d' = d.val ∧ k < s.prof.keyCount d' then ((lastChange changes k).map touchOfCode).getD before else before) ∧
      (∀ c', c' ≠ c → u.slot c' = s.slot c') ∧ u.km.stopOn = s.km.stopOn ∧ u.km.refused = s.km.refused ∧
      u.profile = s.profile ∧ u.pt = (s.hearing t a).pt ∧
      (u.pf.station = s.pf.station ∧ u.pf.tag = s.pf.tag ∧ u.pf.cause = s.pf.cause) ∧
      ((changes.map (·.1)).Nodup → (∀ k, k < 64 → u.mergedTouch d.val k = s.mergedTouch d.val k) →
        u = { s.hearing t a with km := { s.km with slots := u.km.slots } }) ∧
      (s.ProfileSound → s.KeyboardSound →
        (∀ d' k, d' < 8 → k < 64 → u.mergedTouch d' k = u.highest d' k) ∧
        let list := s.km.pizzicato
        let entry := fun k => s.pizzEntry (max s.now t) d.val k
        let was := fun k => s.mergedTouch d.val k = .second
        let is := fun k => u.mergedTouch d.val k = .second
        (∀ k code, changes = [(k, code)] →
          (¬ was k.val → is k.val →
            u.km.pizzicato = (if list.length < 64 then list else list.tail) ++ [entry k.val]) ∧
          (was k.val → ¬ is k.val →
            u.km.pizzicato = list.filter fun e => decide (¬ (e.division = d.val ∧ e.key = k.val))) ∧
          ((was k.val ↔ is k.val) → u.km.pizzicato = list)) ∧
        (s.ChamberSound → s.QuietOutsideReady →
          ((changes.map (·.1)).Nodup → (s.hearing t a).playedTo u) ∧
          ∀ k code, changes = [(k, code)] →
            let old := s.mergedTouch d.val k.val
            let new := u.mergedTouch d.val k.val
            let roomed := match list with
              | [] => s.hearing t a
              | e :: _ =>
                if 64 ≤ list.length ∧ old ≠ Touch.second ∧ new = Touch.second then
                  application false (pizzDeltas s.prof s.km.stopOn e.division e.key) (s.hearing t a)
                else s.hearing t a
            let taken := application false
              (mergedDeltas s.prof s.km.stopOn d.val k.val old new (s.hasPizz d.val k.val) (u.hasPizz d.val k.val))
              { roomed with km := u.km }
            let studs := if d = 7 then studDeltas k.val old new taken else taken
            let wakes := old.rank < new.rank ∧ s.prof.params.wakeMask.play = true ∧
              (s.ch.state = .dark ∨ s.ch.state = .settling ∨ s.ch.state = .resting)
            (old ≠ new → ¬ wakes → u = { studs with ch := u.ch }) ∧
            (wakes → studs.wokenTo u (if s.ch.state = .dark then .dark else .other))) ∧
        (list.length + changes.length ≤ 64 → ∀ k, k < 64 → ¬ was k → is k → entry k ∈ u.km.pizzicato) ∧
        ∀ e ∈ u.km.pizzicato, e ∈ list ∨ ∃ x ∈ changes, e = entry x.1.val)) ∧
  (∀ (t : Nat) (a : Station) (d : Fin 8) (first rest : List (Fin 64 × BitVec 2)) (s : State), s.serves →
    s.ChamberSound → s.QuietOutsideReady →
    ∃ u, exec (.keys t a d first) s = .next u ∧ exec (.keys t a d (first ++ rest)) s = exec (.keys t a d rest) u) ∧
  (∀ (t : Nat) (a : Station) (d : Fin 8) (codes : List (BitVec 2)) (s : State), s.serves → s.prof.keyCount d.val ≤ 64 →
    (s.slotOf a ≠ none ∨ s.freeSlot ≠ none) →
    exec (.snap t a d codes) s =
      exec (.keys t a d ((List.finRange 64).map fun k => (k, codes.getD k.val 0))) s) ∧
  (∀ (t : Nat) (a : Station) (d : Fin 8) (codes : List (BitVec 2)) (c : Nat) (s : State), s.serves →
    codes.length = 64 → s.prof.keyCount d.val ≤ 64 →
    (s.slotOf a = some c ∨ s.slotOf a = none ∧ s.freeSlot = some c) →
    ∃ u, exec (.snap t a d codes) s = .next u ∧ (u.slot c).station = some a ∧
      (∀ d' k, d' < 8 → k < 64 → u.slotTouch c d' k =
        if d' = d.val ∧ k < s.prof.keyCount d' then touchOfCode (codes.getD k 0)
        else if s.slotOf a = some c then s.slotTouch c d' k else .up) ∧
      (∀ c', c' ≠ c → u.slot c' = s.slot c') ∧ u.km.stopOn = s.km.stopOn ∧ u.km.refused = s.km.refused ∧
      u.profile = s.profile ∧ u.pt = (s.hearing t a).pt ∧
      (u.pf.station = s.pf.station ∧ u.pf.tag = s.pf.tag ∧ u.pf.cause = s.pf.cause) ∧
      ((∀ k, k < 64 → u.mergedTouch d.val k = s.mergedTouch d.val k) →
        u = { s.hearing t a with km := { s.km with slots := u.km.slots } }) ∧
      (s.ProfileSound → s.KeyboardSound →
        (∀ d' k, d' < 8 → k < 64 → u.mergedTouch d' k = u.highest d' k) ∧
        let n := s.prof.keyCount d.val
        let rises := fun k => decide (s.mergedTouch d.val k ≠ .second ∧ u.mergedTouch d.val k = .second)
        (s.ChamberSound → s.QuietOutsideReady → (s.hearing t a).playedTo u) ∧
        (s.km.pizzicato.length + n ≤ 64 → u.km.pizzicato =
          (s.km.pizzicato.filter fun e => decide (u.mergedTouch e.division e.key = .second)) ++
            ((List.range n).filter rises).map (s.pizzEntry (max s.now t) d.val)) ∧
        ∀ e ∈ u.km.pizzicato, e ∈ s.km.pizzicato ∨ ∃ k, k < n ∧ e = s.pizzEntry (max s.now t) d.val k))

/-- R22: with all four slots bound to other stations, a KEYS, SNAP, SHOE or STOPS frame changes nothing of what it names.
The first of a station records CONSOLE_EXCESS with class x 8 + kind code as detail (R186) and puts the station in the
refused set; a later one records nothing. -/
def Obligations.FifthConsoleIsRefused : Prop :=
  ∀ (a : Station) (c : Instr) (detail : Nat) (s : State), s.serves → s.slotOf a = none → s.freeSlot = none →
    ((∃ t d changes, c = .keys t a d changes ∧ detail = 8) ∨ (∃ t d codes, c = .snap t a d codes ∧ detail = 9) ∨
      (∃ t pairs, c = .shoe t a pairs ∧ detail = 10) ∨ (∃ t changes, c = .stops t a changes ∧ detail = 16)) →
    exec c s = .next (
      if s.km.refused.get a.val then s.hearing c.moment a
      else { s.hearing c.moment a with
        km := { s.km with refused := s.km.refused.set a.val true }
        pf := s.pf.recording .consoleExcess a.val detail })

/-- R29, R21: a STOPS frame gives each stop of the stop table the state of its last change and ignores the others. No
touch, no pizzicato entry, no tuning hold and no chamber state moves. R17, R29, R46, R83: one change that moves a stop is
taken by RE as one application of its deltas (DemandFollowsTheContributions says which and in which order), and several
changes as frames of one change each, one after the other. R29, R144: in READY a frame that changes a stop
restarts the rest timer. R118, R119, R120, R121: a tremulant group that has started runs with phase W and phase 0 counted
from that moment and its follow status FREE, and one that has stopped has its timers stopped and its status FREE. A stop of
one TREM entry alone that is turned ON in READY with the on-count at 0 has HOLD asked for the group's output, and of a LEAD
group the BEAT handed over; turned OFF with the on-count at 1, it has RELEASE asked; and at any other on-count it moves the
on-count alone. (Outside READY no effect is taken to run, as `State.QuietOutsideReady` says.) -/
def Obligations.StopsSetTheNamedStops : Prop :=
  ∀ (t : Nat) (a : Station) (changes : List (Fin 1024 × Bool)) (c : Nat) (s : State), s.serves →
    s.QuietOutsideReady → (s.slotOf a = some c ∨ s.slotOf a = none ∧ s.freeSlot = some c) →
    ∃ u, exec (.stops t a changes) s = .next u ∧
      (∀ n, u.km.stopOn.get n =
        if s.prof.hasStop n then (lastChange changes n).getD (s.km.stopOn.get n) else s.km.stopOn.get n) ∧
      (s.ch.state = .ready → (∃ n, u.km.stopOn.get n ≠ s.km.stopOn.get n) → u.ch.rest = (s.at t).restStart) ∧
      (s.ch.state ≠ .ready ∨ (∀ x ∈ changes, s.prof.hasStop x.1.val = true → x.2 = s.km.stopOn.get x.1.val) →
        u.ch.rest = s.ch.rest) ∧
      (∀ g x, g < 4 → s.tremGroup g = some x →
        ((s.trem g).running = false → (u.trem g).running = true →
          u.trem g = x.begun (max s.now t) (u.trem g).onCount) ∧
        ((s.trem g).running = true → (u.trem g).running = false →
          u.trem g = { (default : Trem) with onCount := (u.trem g).onCount })) ∧
      (s.ChamberSound →
        (∀ n up, changes = [(n, up)] → s.prof.hasStop n.val = true → s.km.stopOn.get n.val ≠ up →
          u = { application false (stopDeltas s.prof s.mergedTouch s.hasPizz n.val up)
            { s.hearing t a with km := u.km } with ch := { s.ch with rest := u.ch.rest } }) ∧
        ∀ first rest, changes = first ++ rest →
          ∃ v, exec (.stops t a first) s = .next v ∧ exec (.stops t a rest) v = .next u) ∧
      (∀ n up e g x, changes = [(n, up)] → s.prof.entries.filter (fun e => decide (e.stop = n.val)) = [e] →
        e.kind = .trem g → s.tremGroup g = some x → s.km.stopOn.get n.val ≠ up →
        let v := s.trem g
        let drawn : State := { s.hearing t a with km := u.km, ch := { s.ch with rest := u.ch.rest } }
        let starts := v.onCount = 0 ∧ v.running = false ∧ s.ch.state = .ready
        let stops := v.onCount ≤ 1 ∧ v.running = true
        (up = true → starts →
          u = { paHold x.output (drawn.setTrem g (x.begun (max s.now t) 1)) with li := u.li } ∧
          (x.mode ≠ .lead → u.li = s.li) ∧
          (x.mode = .lead → u.li = { s.li with queue := u.li.queue } ∧
            s.li.afterBeat x.tag (max s.now t) u.li.queue)) ∧
        (up = true → ¬ starts → u = drawn.setTrem g { v with onCount := v.onCount + 1 }) ∧
        (up = false → stops →
          u = paRelease x.output (drawn.setTrem g { (default : Trem) with onCount := v.onCount - 1 })) ∧
        (up = false → ¬ stops → u = drawn.setTrem g { v with onCount := v.onCount - 1 })) ∧
      u = { s.hearing t a with
        km := { s.km with
          stopOn := u.km.stopOn
          slots := if s.slotOf a = some c then s.km.slots
            else s.km.slots.set c { station := some a, touch := .empty } }
        dt := { u.dt with tuning := s.dt.tuning, clocks := s.dt.clocks }
        pa := u.pa, cc := u.cc, li := u.li, ll := u.ll, ee := u.ee
        tsu := { s.tsu with trems := u.tsu.trems }
        ch := { s.ch with rest := u.ch.rest }
        pf := { s.pf with record := u.pf.record, later := u.pf.later, seen := u.pf.seen }
        choices := u.choices }

/-- R126, R128, R129: a SHOE frame's pairs are taken one after the other by each shutter set, as `Shutter.afterPair`
gives: an adoption in READY steps the set when its step timer is stopped and its stage differs from the target. So the
stage moves by at most one step in a frame, outside READY or with the step timer running not at all. A step up asks PA to
HOLD the output of the stage it opens (which is out of OFF then, shown for a profile with one set), a step down to RELEASE
that of the stage it closes, and a set that does not step asks for nothing; and nothing outside the sets, PA, CC, the
record and the sender's slot moves. -/
def Obligations.ShoePairsAreJudgedInTurn : Prop :=
  ∀ (t : Nat) (a : Station) (pairs : List (Fin 8 × Byte)) (c : Nat) (s : State), s.serves →
    (s.slotOf a = some c ∨ s.slotOf a = none ∧ s.freeSlot = some c) →
    ∃ u, exec (.shoe t a pairs) s = .next u ∧
      (∀ x cfg, x < 2 → s.shutterSet x = some cfg →
        u.shutter x = pairs.foldl (Shutter.afterPair cfg c (max s.now t) (decide (s.ch.state = .ready))) (s.shutter x) ∧
          (u.shutter x).stage ≤ (s.shutter x).stage + 1 ∧ (s.shutter x).stage ≤ (u.shutter x).stage + 1 ∧
          (s.ch.state ≠ .ready ∨ (s.shutter x).stepTimer ≠ none → (u.shutter x).stage = (s.shutter x).stage) ∧
          ((∀ x', x' ≠ x → s.shutterSet x' = none) → (s.shutter x).stage < (u.shutter x).stage →
            s.pa.action.length < 128 → u.out (cfg.first + (s.shutter x).stage) ≠ .off)) ∧
      (∀ x, s.shutterSet x = none → u.shutter x = s.shutter x) ∧
      (let asks := fun (x : Nat) (v : State) =>
        match s.shutterSet x with
        | none => v
        | some cfg =>
          if (s.shutter x).stage < (u.shutter x).stage then paHold (cfg.first + (s.shutter x).stage) v
          else if (u.shutter x).stage < (s.shutter x).stage then paRelease (cfg.first + (s.shutter x).stage - 1) v
          else v
      ∃ v, (v = asks 1 (asks 0 (s.at t)) ∨ v = asks 0 (asks 1 (s.at t))) ∧ u.pa = v.pa ∧ u.cc = v.cc ∧ u.pf = v.pf) ∧
      u = { s.hearing t a with
        km := { s.km with
          slots := if s.slotOf a = some c then s.km.slots
            else s.km.slots.set c { station := some a, touch := .empty } }
        pa := u.pa, cc := u.cc, tsu := { s.tsu with shutters := u.tsu.shutters }
        pf := { s.pf with record := u.pf.record, later := u.pf.later, seen := u.pf.seen } }

/-- R38, R39, R98: an ALLOFF leaves every key of every division UP in the merged touch and in every slot, the pizzicato
list and the claim groups empty, runners 1 to 7 idle, the trap and stud parts of every trigger count 0 with its cue part
as it was, and no output held for tuning; in READY nothing that an effect asked for is left in PA but strikes that run out
and end OFF (R88). R38, R39: PA is asked first for a RELEASE of every output of the TRAP windows, in ascending claim group
and output; then each key that was not UP is taken as one application of its fall with the TRAP deltas withheld, in
ascending division and key; and last the tuning hold ends by an application of its own. R27, R144: in READY a walk that moves a merged touch restarts the rest timer. Bindings, the refused set,
the stops, everything TSU holds, the chamber state and the record stand. -/
def Obligations.AlloffClearsKeysAndEffects : Prop :=
  ∀ (t : Nat) (a : Station) (s : State), s.serves → s.ProfileSound → s.KeyboardSound →
    ∃ u, exec (.alloff t a) s = .next u ∧
      (∀ d k, d < 8 → k < 64 → u.mergedTouch d k = .up ∧ ∀ c, c < 4 → u.slotTouch c d k = .up) ∧
      u.km.pizzicato = [] ∧ u.dt.tuning = none ∧
      (∀ c, (u.slot c).station = (s.slot c).station) ∧ u.km.refused = s.km.refused ∧ u.km.stopOn = s.km.stopOn ∧
      (∀ g, (u.group g).holder = none ∧ (u.group g).stack = [] ∧ (u.group g).pending = none) ∧
      (∀ r, u.runner r = if 1 ≤ r ∧ r < 8 then none else s.runner r) ∧
      (∀ e, e < 32 → u.trigger e = { trap := 0, stud := false, cue := (s.trigger e).cue }) ∧
      (s.ch.state = .ready → s.ArbiterSound → ∀ o, s.outputIs .trap o →
        (u.out o = .off ∨ ∃ m, u.out o = .striking m false) ∧
        ((s.out o = .holding ∨ ∃ m, s.out o = .pulling m) → u.out o = .off)) ∧
      (∃ outs : List (Nat × Nat), outs.Pairwise (fun x y => x.1 < y.1 ∨ x.1 = y.1 ∧ x.2 < y.2) ∧
        (∀ g o, (g, o) ∈ outs ↔ inTrapOf s.prof.windows g o = true) ∧
        let cleared := outs.foldl (fun v x => paRelease x.2 v) (s.hearing t a)
        let keys := (List.range 8).flatMap fun d => (List.range 64).map fun k => (d, k)
        let fallen := keys.foldl (fun v (d, k) =>
          if s.mergedTouch d k = .up then v
          else application true
            (mergedDeltas s.prof s.km.stopOn d k (s.mergedTouch d k) .up (s.hasPizz d k) false) v) cleared
        let ended := application false (tuneDeltas s.prof (s.dt.tuning.map (·.output)) none) fallen
        u.pa = ended.pa ∧ u.cc = ended.cc ∧ u.dt = { ended.dt with tuning := none }) ∧
      (let moves := s.ch.state = .ready ∧ ∃ d k, d < 8 ∧ k < 64 ∧ s.mergedTouch d k ≠ .up
      (moves → u.ch.rest = (s.at t).restStart) ∧ (¬ moves → u.ch.rest = s.ch.rest)) ∧
      u = { s.hearing t a with
        km := u.km, pa := u.pa, cc := u.cc, ee := u.ee
        dt := { u.dt with clocks := s.dt.clocks }
        ch := { s.ch with rest := u.ch.rest } }

/-- R167, R35, R36, R58: a HEARD station whose silence timer has run out is LOST. Its slot is freed, it leaves the refused
set, its shoes are released, its tuning hold ends, and CONSOLE_LOST is recorded if it held a key, a shoe or the
hold, with the station as source and the slot as detail (after what the falls of its keys record). R35: first its keys
fall, as SNAP frames of it with every key UP, one for each division in ascending order, would have them fall; then its
hold ends by an application of its own. R27, R144: the falls of its keys leave the chamber state, and in READY restart the rest timer. The other slots and the stops stand, and a station that held nothing leaves the record as it was. R37, R59: the same befalls a
station of which a frame was taken at this very moment when its timer had run out, what the frame raised or set included;
it stays HEARD, with the state announced before it no longer standing (R168; log 21, the model's reading). Before
acceptance only PT moves, and a timer that is stopped or has time left does nothing (log 1, the model's choice). -/
def Obligations.SilentStationIsLost : Prop :=
  ∀ (t : Nat) (a : Station) (s : State), s.listens →
    let due := (s.peer a).state = .heard ∧ dueAt (max s.now t) (s.peer a).silence
    let crossed := fun x : Crossing => ¬ due ∧ (s.peer a).crossed = some x ∧ x.moment = max s.now t
    let entry := fun v : Peer =>
      (due ∧ v = { state := .lost, announced := none, silence := none, crossed := none }) ∨
      ∃ x, crossed x ∧
        v = { s.peer a with announced := if x.presence then (s.peer a).announced else none, crossed := none }
    (¬ due → (∀ x, ¬ crossed x) → exec (.silenceTimerExpiry t a) s = .next (s.at t)) ∧
    (∀ v, entry v → s.profile = none →
      exec (.silenceTimerExpiry t a) s = .next { s.at t with pt := s.pt.set a.val v }) ∧
    (∀ v, entry v → s.profile.isSome = true →
      let lost := { s.at t with pt := s.pt.set a.val v }
      ∃ u, exec (.silenceTimerExpiry t a) s = .next u ∧ u.pt = lost.pt ∧ u.profile = s.profile ∧
        u.km.refused = s.km.refused.set a.val false ∧ u.km.stopOn = s.km.stopOn ∧
        (u.dt.tuning = if s.dt.tuning.map (·.setter) = some a then none else s.dt.tuning) ∧
        (s.slotOf a = none → s.dt.tuning.map (·.setter) ≠ some a →
          u = { lost with km := { s.km with refused := s.km.refused.set a.val false } }) ∧
        ∀ c, s.slotOf a = some c →
          u.slot c = { station := none, touch := .empty } ∧ (∀ c', c' ≠ c → u.slot c' = s.slot c') ∧
          (∀ x, x < 2 → (u.shutter x).owner =
            if (s.shutter x).owner = some c then none else (s.shutter x).owner) ∧
          let held := (∃ e ∈ (s.slot c).touch.entries, e.2 ≠ .up) ∨ (∃ x, x < 2 ∧ (s.shutter x).owner = some c) ∨
            s.dt.tuning.map (·.setter) = some a
          (held → u.pf.record ≠ none ∧ u.pf.seen.getLsbD 4 = true) ∧ (¬ held → u.pf = s.pf) ∧
          (s.ProfileSound → s.KeyboardSound → s.ChamberSound → s.QuietOutsideReady → lost.playedTo u) ∧
          (held → s.ProfileSound → s.KeyboardSound →
            (s.ch.state ≠ .ready ∧ s.QuietOutsideReady ∨ s.prof.effects = []) →
            u.pf = s.pf.recording .consoleLost a.val c) ∧
          (s.ProfileSound → s.KeyboardSound → s.ChamberSound → s.QuietOutsideReady →
            ∃ w : Fin 9 → State, w 0 = s ∧
              (∀ d : Fin 8, exec (.snap t a d (List.replicate 64 0)) (w d.castSucc) = .next (w d.succ)) ∧
              let fallen := w (Fin.last 8)
              let ended :=
                if s.dt.tuning.map (·.setter) = some a then
                  application false (tuneDeltas s.prof (s.dt.tuning.map (·.output)) none)
                    { fallen with dt := { fallen.dt with tuning := none } }
                else fallen
              u = { ended with
                km := { u.km with merged := ended.km.merged, pizzicato := ended.km.pizzicato }
                pt := u.pt
                tsu := { u.tsu with trems := ended.tsu.trems }
                pf := u.pf } ∧
              (held → u.pf = ended.pf.recording .consoleLost a.val c) ∧ (¬ held → u.pf = ended.pf)))

/-- R33, R18: the pizzicato expiry of a key takes its entry from the list and counts its contributions down, each output's
count by as many as there are ON PIZZ entries of the division whose pair with the key resolves to it, touching only DT, PA
and CC besides. R18, R45, R47: it is one application of those falls (DemandFollowsTheContributions says in which order),
which in READY asks for the RELEASE of each pipe whose count comes to 0 and for nothing else. An expiry for an entry that is gone does nothing, nor does one that is not yet due (log 1,
the model's choice). -/
def Obligations.PizzicatoWindowEnds : Prop :=
  ∀ (t : Nat) (d : Fin 8) (k : Fin 64) (s : State), s.takes →
    let due := ∃ e ∈ s.km.pizzicato, e.division = d.val ∧ e.key = k.val ∧ e.expiry ≤ max s.now t
    (¬ due → exec (.pizzicatoExpiry t d k) s = .next (s.at t)) ∧
    (due → ∃ u, exec (.pizzicatoExpiry t d k) s = .next u ∧
      (∀ e, e ∈ u.km.pizzicato ↔ e ∈ s.km.pizzicato ∧ ¬ (e.division = d.val ∧ e.key = k.val)) ∧
      (∀ o, u.dt.pipe.get o = s.dt.pipe.get o - s.pizzFall .pipe d.val k.val o ∧
        u.dt.single.get o = s.dt.single.get o - s.pizzFall .single d.val k.val o ∧
        u.dt.reiterate.get o = s.dt.reiterate.get o - s.pizzFall .reiterate d.val k.val o) ∧
      u = { application false (pizzDeltas s.prof s.km.stopOn d.val k.val) (s.at t) with km := u.km } ∧
      (∃ outs : List Nat, outs.Nodup ∧
        (∀ o, o ∈ outs ↔ s.ch.state = .ready ∧ 0 < s.dt.pipe.get o ∧ u.dt.pipe.get o = 0) ∧
        let released := outs.foldl (fun v o => paRelease o v) (s.at t)
        u.pa = released.pa ∧ u.cc = released.cc) ∧
      u = { s.at t with
        km := { s.km with pizzicato := u.km.pizzicato }
        dt := { u.dt with tuning := s.dt.tuning, clocks := s.dt.clocks }
        pa := u.pa, cc := u.cc })

/-- R55, R56, R19: a TUNE frame naming this station and a PIPE or BAR output moves the hold there, with its sender as the
setting station: one less on the old output's demand or single count and one more on the new one's; the output already
held only changes its setting station. R56, R57, R19: the move is one application, −1 on the old output and then +1 on the
new one, so that in READY a pipe that the hold alone called is released before the new pipe is opened, and a bar is struck
once. Output 65535 ends the hold. A TUNE of another station, and one that names an
output of no PIPE or BAR window, changes nothing. -/
def Obligations.TuneMovesTheHold : Prop :=
  ∀ (t : Nat) (a b : Station) (output : BitVec 16) (s : State), s.serves →
    let o := output.toNat
    let old := s.dt.tuning.map (·.output)
    let kindOf : Nat → Option WindowKind := fun o => (s.prof.windowOf o).map (·.kind)
    let holdable := o ≤ 1535 ∧ (kindOf o = some .pipe ∨ kindOf o = some .bar)
    (b ≠ s.pf.station ∨ (o ≠ 65535 ∧ ¬ holdable) ∨ (o = 65535 ∧ old = none) →
      exec (.tune t a b output) s = .next (s.hearing t a)) ∧
    (b = s.pf.station → holdable → old = some o →
      exec (.tune t a b output) s =
        .next { s.hearing t a with dt := { s.dt with tuning := some { output := o, setter := a } } }) ∧
    (b = s.pf.station → (holdable ∧ old ≠ some o) ∨ (o = 65535 ∧ old ≠ none) →
      ∃ u, exec (.tune t a b output) s = .next u ∧
        u.dt.tuning = (if o = 65535 then none else some { output := o, setter := a }) ∧
        (∀ x, u.dt.pipe.get x =
          (s.dt.pipe.get x - (if old = some x ∧ kindOf x ≠ none ∧ kindOf x ≠ some .bar then 1 else 0)) +
            (if x = o ∧ o ≠ 65535 ∧ kindOf x = some .pipe then 1 else 0)) ∧
        (∀ x, u.dt.single.get x =
          (s.dt.single.get x - (if old = some x ∧ kindOf x = some .bar then 1 else 0)) +
            (if x = o ∧ o ≠ 65535 ∧ kindOf x = some .bar then 1 else 0)) ∧
        (let new := if o = 65535 then none else some o
        u = application false (tuneDeltas s.prof old new)
          { s.hearing t a with dt := { s.dt with tuning := u.dt.tuning } }) ∧
        (let leaves := s.ch.state = .ready ∧ ∃ x, old = some x ∧ kindOf x ≠ none ∧ kindOf x ≠ some .bar ∧ s.dt.pipe.get x = 1
        let opens := s.ch.state = .ready ∧ o ≠ 65535 ∧ kindOf o = some .pipe ∧ s.dt.pipe.get o = 0
        let strikes := s.ch.state = .ready ∧ o ≠ 65535 ∧ kindOf o = some .bar
        ∀ first, (leaves → ∃ x, old = some x ∧ first = paRelease x (s.hearing t a)) →
          (¬ leaves → first = s.hearing t a) →
          let asked := fun last : State => u.pa = last.pa ∧ u.cc = last.cc ∧ u.pf = last.pf
          (opens → asked (paOpen o first)) ∧
          (strikes → asked (paStrike o (((s.prof.windowOf o).map (·.strikeWidth)).getD 0) first)) ∧
          (¬ opens → ¬ strikes → asked first)) ∧
        u = { s.hearing t a with
          dt := { s.dt with pipe := u.dt.pipe, single := u.dt.single, tuning := u.dt.tuning }
          pa := u.pa, cc := u.cc
          pf := { s.pf with record := u.pf.record, later := u.pf.later, seen := u.pf.seen } })

/-! ### The chamber (08) -/

/-- R145, R137, R138, R140: a CHAMBER WAKE whose mask names this station wakes it from DARK with origin DARK, and from
SETTLING and RESTING with origin OTHER, if LINE is in the wake mask; otherwise its sender is heard and nothing else
changes. R140 to R143: what a woken chamber comes to is as `State.wokenTo` gives: WINDING while the WAKE script runs; then,
with origin DARK, READY if no member of the sync set fails the gathering condition and otherwise GATHERING with the sync
timer running for the sync timeout, and, with origin OTHER, READY. -/
def Obligations.ChamberWakeIsAdmittedByState : Prop :=
  ∀ (t : Nat) (a : Station) (mask : BitVec 16) (s : State), s.serves →
    let admitted := mask.getLsbD s.pf.station.val = true ∧ s.prof.params.wakeMask.line = true ∧
      (s.ch.state = .dark ∨ s.ch.state = .settling ∨ s.ch.state = .resting)
    (¬ admitted → exec (.chamberWake t a mask) s = .next (s.hearing t a)) ∧
    (admitted → ∃ u, exec (.chamberWake t a mask) s = .next u ∧
      (s.hearing t a).wokenTo u (if s.ch.state = .dark then .dark else .other))

/-- R145, R146, R149: a CHAMBER REST whose mask names this station takes a READY chamber to rest, whatever plays;
otherwise its sender is heard and nothing else changes. -/
def Obligations.ChamberRestSilencesAReadyChamber : Prop :=
  ∀ (t : Nat) (a : Station) (mask : BitVec 16) (s : State), s.serves →
    let taken := mask.getLsbD s.pf.station.val = true ∧ s.ch.state = .ready
    (¬ taken → exec (.chamberRest t a mask) s = .next (s.hearing t a)) ∧
    (taken → ∃ u, exec (.chamberRest t a mask) s = .next u ∧ (s.hearing t a).restedTo u)

/-- R144, R60, R101: when the rest timer runs out in READY the chamber goes to rest if every PIPE demand count is 0
and no runner 1 to 7 is occupied; otherwise the timer starts afresh for the rest delay and nothing else changes. A
timer that is stopped or has time left does nothing (log 1, the model's choice). -/
def Obligations.RestTimerRestsASilentChamber : Prop :=
  ∀ (t : Nat) (s : State), s.takes → s.dt.pipe.wf →
    let due := s.ch.state = .ready ∧ dueAt (max s.now t) s.ch.rest
    let silent := (∀ o, s.dt.pipe.get o = 0) ∧ ∀ r, 1 ≤ r → r < 8 → s.runner r = none
    (¬ due → exec (.restTimerExpiry t) s = .next (s.at t)) ∧
    (due → silent → ∃ u, exec (.restTimerExpiry t) s = .next u ∧ (s.at t).restedTo u) ∧
    (due → ¬ silent → exec (.restTimerExpiry t) s = .next { s.at t with
      ch := { s.ch with
        rest := if s.prof.params.restDelay = 0 then none
          else some (max s.now t + s.prof.params.restDelay * 60000000) } })

/-- R145, R147: a CHAMBER DARK whose mask names this station takes the chamber to DARKENING from WINDING, GATHERING,
READY, SETTLING and RESTING; otherwise its sender is heard and nothing else changes. -/
def Obligations.ChamberDarkDarkensTheChamber : Prop :=
  ∀ (t : Nat) (a : Station) (mask : BitVec 16) (s : State), s.serves →
    let taken := mask.getLsbD s.pf.station.val = true ∧
      (s.ch.state = .winding ∨ s.ch.state = .gathering ∨ s.ch.state = .ready ∨ s.ch.state = .settling ∨
        s.ch.state = .resting)
    (¬ taken → exec (.chamberDark t a mask) s = .next (s.hearing t a)) ∧
    (taken → ∃ u, exec (.chamberDark t a mask) s = .next u ∧ (s.hearing t a).darkenedTo u)

/-- R166, R163, R141, R143, R150: a PRESENCE is heard with the state it announces. While the chamber is GATHERING and every
other member of the sync set is HEARD announcing GATHERING or READY, the chamber enters READY with the sync timer stopped,
every called pipe is asked for, the ready lamps go high, and a READY PRESENCE waits behind the BEATs of the groups that
start (R121, R160); otherwise nothing else changes. R49, R119, R131, R143: the rest timer, every BAR window's clock, the
called tremulant groups and the shutters' first steps start as `State.readyBegun` gives; PA is asked to OPEN and to HOLD as
`State.readyRequests` gives; and each LEAD group that starts hands over its BEAT. -/
def Obligations.PresenceEndsTheGathering : Prop :=
  ∀ (t : Nat) (a : Station) (role state flags : Byte) (tag : BitVec 16) (s : State), s.listens →
    let peer := (s.hearing t a).peer a
    let heard : State := { s.at t with
      pt := s.pt.set a.val
        { state := .heard, announced := announcedOf state, silence := some (max s.now t + 600000)
          crossed := peer.crossed.map fun x => { x with presence := true } } }
    let ends := s.ch.state = .gathering ∧
      ∀ b : Station, s.prof.params.syncSet.getLsbD b.val = true → b ≠ s.pf.station →
        (heard.peer b).state = .heard ∧
          ((heard.peer b).announced = some .gathering ∨ (heard.peer b).announced = some .ready)
    (¬ ends → exec (.presence t a role state flags tag) s = .next heard) ∧
    (ends → ∃ u, exec (.presence t a role state flags tag) s = .next u ∧
      u.ch = { s.ch with state := .ready, sync := none, rest := u.ch.rest } ∧ heard.keepsTheHouse u ∧
      heard.announcesReady u ∧
      (s.QuietOutsideReady → s.runner 0 = none → heard.readyBegun u ∧ heard.beatsStarted u ∧
        (s.ProfileSound → ∃ v, heard.readyRequests v ∧ u.pa = v.pa ∧ u.cc = v.cc ∧ u.pf = v.pf) ∧
        (∀ o, 0 < s.dt.pipe.get o → (s.prof.windowOf o).map (·.kind) = some .pipe → u.out o ≠ .off) ∧
        ∀ l, l < 12 → s.prof.lineFunction l = .readyLamp → (u.line l).driven = true))

/-- R142, R150: when the sync timer runs out in GATHERING the chamber enters READY all the same, with the timer stopped
and a READY PRESENCE waiting behind the BEATs of the groups that start (R121, R160), and SYNC_SHORT is recorded (its source the lowest member that fails the condition and its detail how many fail: shown for
a chamber that has nothing to ask of PA at the entry, where no earlier fault can come in, and for any other after the
requests of the entry: log 12, the model's reading). R49, R119, R131, R143: the entry starts what `State.readyBegun` gives
and asks PA as `State.readyRequests` gives. That a timeout at which no member fails the condition records nothing is the
model's choice for a branch that no run reaches (log 15). A timer that is stopped or
has time left does nothing (log 1, the model's choice). -/
def Obligations.SyncTimeoutEntersReady : Prop :=
  ∀ (t : Nat) (s : State), s.takes →
    let due := s.ch.state = .gathering ∧ dueAt (max s.now t) s.ch.sync
    let fails := s.lacks
    (¬ due → exec (.syncTimeout t) s = .next (s.at t)) ∧
    (due → ∃ u, exec (.syncTimeout t) s = .next u ∧
      u.ch = { s.ch with state := .ready, sync := none, rest := u.ch.rest } ∧ (s.at t).keepsTheHouse u ∧
      (s.at t).announcesReady u ∧
      ((∃ b, fails b) → u.pf.seen.getLsbD 8 = true ∧ u.pf.record ≠ none) ∧
      (s.QuietOutsideReady → s.runner 0 = none → (s.at t).readyBegun u ∧ (s.at t).beatsStarted u ∧
        (s.ProfileSound → ∃ v, (s.at t).readyRequests v ∧ u.pa = v.pa ∧ u.cc = v.cc ∧
          ((∀ b, ¬ fails b) → u.pf = v.pf) ∧
          ∀ b n, fails b → (∀ b', fails b' → b ≤ b') →
            (∃ l : List Station, l.Nodup ∧ (∀ x, x ∈ l ↔ fails x) ∧ l.length = n) →
            u.pf = v.pf.recording .syncShort b.val n)) ∧
      (s.runner 0 = none → s.prof.groups = [] → s.prof.sets = [] → (∀ o, s.dt.pipe.get o = 0) →
        ∀ b n, fails b → (∀ b', fails b' → b ≤ b') →
          (∃ l : List Station, l.Nodup ∧ (∀ x, x ∈ l ↔ fails x) ∧ l.length = n) →
          u.pf = s.pf.recording .syncShort b.val n))

/-- R113, R140, R147: when the AWAITLINE of the WAKE script times out, WIND_TIMEOUT is recorded with the line and the
step, and the chamber goes dark. In a REST or DARK script the timeout records nothing and the script goes on at its
next step, shown here for a WAIT. A timeout that is not due, or with no AWAITLINE in progress, does nothing (log 1,
the model's choice). -/
def Obligations.WakeTimeoutDarkensTheChamber : Prop :=
  ∀ (t : Nat) (c : Context) (l : Nat) (v : Bool) (timer : Timer) (s : State), s.takes →
    s.runner 0 = some c →
    ((∀ l v m, c.waiting = .awaitLine l v (.due m) → max s.now t < m) →
      exec (.awaitlineTimeout t) s = .next (s.at t)) ∧
    (∀ m, c.waiting = .awaitLine l v timer → timer = .due m → m ≤ max s.now t → c.script = .wake →
      ∃ u, exec (.awaitlineTimeout t) s = .next u ∧ (s.at t).darkenedTo u ∧ u.pf.seen.getLsbD 9 = true ∧
        u.pf.record = some (s.pf.record.getD { kind := .windTimeout, source := l, detail := c.index })) ∧
    (∀ m d, c.waiting = .awaitLine l v timer → timer = .due m → m ≤ max s.now t →
      (c.script = .rest ∨ c.script = .dark) → s.prof.steps[c.index + 1]? = some (.wait d) →
      exec (.awaitlineTimeout t) s = .next ((s.at t).setRunner 0 (some { c with
        index := c.index + 1, waiting := .wait (.due (max s.now t + d * 1000)), tally := 0 })))

/-- R177, R178, R113, R148, R137, R138, R38, R84: a debounced edge gives the line its pin's level and reaches the block
that the line's function names. A falling PRESSURE line in READY records PRESSURE_LOST with READY as detail and winds the
chamber again with origin OTHER, and in GATHERING with GATHERING as detail; a rising POWER line with LOCAL in the mask
wakes a chamber that is DARK, with origin DARK, SETTLING or RESTING, with origin OTHER, and one that is not admitted
changes the line alone; a CUE line's rising edge triggers its EDGE effect and its falling edge does nothing there, and each
edge gives its LEVEL effect the level, with what the move of the count does; a rising ALLOFF line clears the
keys, and does all that an ALLOFF frame does but to be heard. An edge that an AWAITLINE of runner 0 waits for takes its script on to the next step, shown for a WAIT, and reaches
the block that the function names besides (in which order is the model's free choice, log 3): a wake takes runner 0 over.
An edge that no function takes and no AWAITLINE of runner 0 waits for changes the line alone, and a debounce
timer that is stopped or has time left does nothing (log 1, the model's choice). -/
def Obligations.DebouncedEdgeReachesItsBlock : Prop :=
  ∀ (t : Nat) (l : Fin 12) (s : State), s.takes →
    let due := dueAt (max s.now t) (s.line l.val).debounce
    let v := (s.line l.val).raw
    let f := s.prof.lineFunction l.val
    let edge := (s.at t).setLine l.val { s.line l.val with debounced := v, debounce := none }
    let waited := ∃ c timer, s.runner 0 = some c ∧ c.waiting = .awaitLine l.val v timer
    let admitted := s.prof.params.wakeMask.localPower = true ∧
      (s.ch.state = .dark ∨ s.ch.state = .settling ∨ s.ch.state = .resting)
    (¬ due → exec (.debounceExpiry t l) s = .next (s.at t)) ∧
    (due → ∃ u, exec (.debounceExpiry t l) s = .next u ∧
      ((u.line l.val).raw = v ∧ (u.line l.val).debounced = v ∧ (u.line l.val).debounce = none) ∧
      (¬ waited → (f = .pressure → v = true) → (f = .power → v = false) → (f = .alloff → v = false) → f ≠ .cue →
        u = edge) ∧
      (¬ waited → f = .pressure → v = false → s.ch.state ≠ .ready → s.ch.state ≠ .gathering → u = edge) ∧
      (s.runner 0 = none → f = .pressure → v = false → s.ch.state = .ready →
        edge.wokenTo u .other ∧ (s.pa.outs.wf → edge.chainsTurnedOff u) ∧ u.pf.seen.getLsbD 10 = true ∧
          u.pf.record = some (s.pf.record.getD { kind := .pressureLost, source := l.val, detail := 5 })) ∧
      (s.runner 0 = none → f = .pressure → v = false → s.ch.state = .gathering →
        edge.wokenTo u s.ch.origin ∧ u.pf.seen.getLsbD 10 = true ∧
          u.pf.record = some (s.pf.record.getD { kind := .pressureLost, source := l.val, detail := 4 })) ∧
      (¬ waited → f = .power → v = true → s.prof.params.wakeMask.localPower = true →
        (s.ch.state = .dark → edge.wokenTo u .dark) ∧
        (s.ch.state = .settling ∨ s.ch.state = .resting → edge.wokenTo u .other)) ∧
      (¬ waited → f = .power → v = true → ¬ admitted → u = edge) ∧
      (∀ c timer d, s.runner 0 = some c → c.waiting = .awaitLine l.val v timer →
        s.prof.steps[c.index + 1]? = some (.wait d) →
        let onward := edge.setRunner 0 (some { c with
          index := c.index + 1, waiting := .wait (.due (max s.now t + d * 1000)), tally := 0 })
        ((f = .pressure → v = true) → (f = .power → v = false) → (f = .alloff → v = false) → f ≠ .cue → u = onward) ∧
        (f = .pressure → v = false → s.ch.state ≠ .ready → s.ch.state ≠ .gathering →
          u = { onward with choices := s.choices + 1 }) ∧
        (f = .power → v = true → ¬ admitted → u = { onward with choices := s.choices + 1 }) ∧
        (f = .power → v = true → admitted → edge.wokenTo u (if s.ch.state = .dark then .dark else .other)) ∧
        (f = .cue ∨ f = .alloff ∧ v = true → u.runner 0 = onward.runner 0)) ∧
      (s.runner 0 = none → f = .cue → ∀ e x, (s.prof.lines[l.val]?).map (·.effect) = some e → s.effect e = some x →
        (x.mode = .edge → u = if v = true then trigger e edge else edge) ∧
        (x.mode = .level →
          u = countMoved e (s.trigger e).count v (edge.setTrigger e { s.trigger e with cue := v }))) ∧
      (f = .cue → ∀ e x, (s.prof.lines[l.val]?).map (·.effect) = some e → s.effect e = some x → x.mode = .level →
        (u.trigger e).cue = v) ∧
      (s.runner 0 = none → f = .alloff → v = true → s.ProfileSound → s.KeyboardSound →
        (∀ d k, d < 8 → k < 64 → u.mergedTouch d k = .up) ∧ u.km.pizzicato = [] ∧ u.dt.tuning = none ∧
          ∀ g, (u.group g).holder = none) ∧
      (s.runner 0 = none → f = .alloff → v = true → s.ch.state ≠ .profileFault → ∀ a,
        ∃ w, exec (.alloff t a) edge = .next w ∧ u = { w with pt := s.pt }))

/-- R177: a change of a pin's level is watched on an input line from acceptance onward: a level other than the debounced
one starts the debounce timer for the line's time, a return to it stops the timer, and with time 0 the debounced level
follows at once: the edge does all that it does at the end of a debounce. On another line, and before acceptance, only the pin moves. -/
def Obligations.RawLevelStartsTheDebounce : Prop :=
  ∀ (t : Nat) (l : Fin 12) (v : Bool) (s : State), s.takes →
    let pin := (s.at t).setLine l.val { s.line l.val with raw := v }
    let watched := s.profile.isSome = true ∧ (s.prof.lineFunction l.val).isInput = true
    let time := debounceTime (((s.prof.lines[l.val]?).map (·.debounceCode)).getD 0)
    ((s.line l.val).raw = v → exec (.lineRawChange t l v) s = .next (s.at t)) ∧
    ((s.line l.val).raw ≠ v → ¬ watched → exec (.lineRawChange t l v) s = .next pin) ∧
    ((s.line l.val).raw ≠ v → watched → (s.line l.val).debounced = v →
      exec (.lineRawChange t l v) s =
        .next ((s.at t).setLine l.val { s.line l.val with raw := v, debounce := none })) ∧
    ((s.line l.val).raw ≠ v → watched → (s.line l.val).debounced ≠ v → time ≠ 0 →
      exec (.lineRawChange t l v) s =
        .next ((s.at t).setLine l.val
          { s.line l.val with raw := v, debounce := some (max s.now t + time * 1000) })) ∧
    ((s.line l.val).raw ≠ v → watched → (s.line l.val).debounced ≠ v → time = 0 →
      ∃ u, exec (.lineRawChange t l v) s = .next u ∧ (u.line l.val).raw = v ∧ (u.line l.val).debounced = v ∧
        (u.line l.val).debounce = none ∧
        exec (.debounceExpiry t l) ((s.at t).setLine l.val
          { s.line l.val with raw := v, debounce := some (max s.now t) }) = .next u)

/-! ### The runners and the effects (05, 06) -/

/-- R105, R107, R112, R161: a runner whose WAIT is over, whose AWAIT has timed out, or that alone awaits a mark which is
received or which this station has sent whole, goes on at its next step, shown here for a WAIT: the new wait runs from that
moment. A timer with time left, and a runner that waits for something else, do nothing (log 1, the model's choice). A
received mark that no runner awaits is heard and does nothing else. R116: of a mark that one or more runners await, received
or sent whole by this station, each of them goes on, in one order or another (the model's free choice, log 3). R106 to R115: what each kind of step does. STRIKE,
HOLD and LIFT ask PA and keep the held list; LOOP counts in its register; MARK hands over a frame, or is dropped with
TX_OVERRUN at a full queue; AWAITLINE is satisfied at once where its line stands at the level; SETLINE drives an output
line, which may satisfy runner 0; REARM sets the flag in the ON part of an EDGE effect; WAIT, AWAIT and an AWAITLINE that
is not satisfied begin to wait, with the tally at 0; END ends the script. Every other step counts in the tally, and one
that raises it to 16 is a runaway. R105: every pass comes to a step that waits or to the end of its script, and a runner
that goes on takes its whole pass, as `State.wentOn` gives: it stands at the step that waits; or its effect has ended, as
`State.endedTo` gives; or its chamber script is completed, and the chamber goes on (after WAKE as `State.gathersTo`,
`State.readyBegun` and `State.asksOnEntry` give: R140 to R143). -/
def Obligations.WaitingRunnerGoesOn : Prop :=
  (∀ (r : Fin 8) (c : Context) (d : Nat) (s : State), s.takes → s.runner r.val = some c →
    s.prof.steps[c.index + 1]? = some (.wait d) →
    let onward := fun base : State => base.setRunner r.val (some { c with
      index := c.index + 1, waiting := .wait (.due (base.now + d * 1000)), tally := 0 })
    (∀ t m, c.waiting = .wait (.due m) →
      exec (.waitEnd t r) s = .next (if m ≤ max s.now t then onward (s.at t) else s.at t)) ∧
    (∀ t, (∀ m, c.waiting ≠ .wait (.due m)) → exec (.waitEnd t r) s = .next (s.at t)) ∧
    (∀ t k m, c.waiting = .await k (.due m) →
      exec (.awaitTimeout t r) s = .next (if m ≤ max s.now t then onward (s.at t) else s.at t)) ∧
    (∀ t, (∀ k m, c.waiting ≠ .await k (.due m)) → exec (.awaitTimeout t r) s = .next (s.at t)) ∧
    (∀ t a k m, s.serves → c.waiting = .await k (.due m) →
      (∀ r' c', r' < 8 → r' ≠ r.val → s.runner r' = some c' → ∀ m', c'.waiting ≠ .await k (.due m')) →
      exec (.mark t a k) s = .next (onward (s.hearing t a))) ∧
    (∀ t k m handler age, c.waiting = .await k (.due m) →
      s.li.inFlight = some { frame := .mark k handler, age := age } →
      (∀ r' c', r' < 8 → r' ≠ r.val → s.runner r' = some c' → ∀ m', c'.waiting ≠ .await k (.due m')) →
      exec (.txComplete t) s =
        .next (onward { s.at t with li := { s.li with inFlight := none, duplicates := 0 } }))) ∧
  (∀ (t : Nat) (a : Station) (k : Fin 64) (s : State), s.serves →
    (∀ r c, r < 8 → s.runner r = some c → ∀ m, c.waiting ≠ .await k (.due m)) →
    exec (.mark t a k) s = .next (s.hearing t a)) ∧
  (∀ (r : Nat) (c : Context) (s : State),
    let at_ := fun st => s.prof.steps[c.index]? = some st
    let takes := fun outcome => takeStep r c s = outcome
    let next : Context := { c with index := c.index + 1 }
    let counted := fun (c' : Context) (s' : State) =>
      if c.tally < 15 then (PassEnd.going, { c' with tally := c.tally + 1 }, s')
      else (PassEnd.ended, { c' with tally := c.tally + 1 },
        { s' with pf := s'.pf.recording .scriptRunaway r c.index })
    let waits := fun w : Waiting => (PassEnd.waits, { c with waiting := w, tally := 0 }, s)
    let part := fun mode => ∃ e x, c.script.effect = some e ∧ s.effect e = some x ∧ x.mode = mode
    (∀ d, at_ (.wait d) → takes (waits (.wait (.due (s.now + d * 1000))))) ∧
    (∀ o w, at_ (.strike o w) → takes (counted next (paStrike o w s))) ∧
    (∀ o, at_ (.hold o) →
      (o ∈ c.held → takes (counted next (paHold o s))) ∧
      (o ∉ c.held → c.held.length < 4 → takes (counted { next with held := c.held ++ [o] } (paHold o s))) ∧
      (o ∉ c.held → 4 ≤ c.held.length → takes (counted next s))) ∧
    (∀ o, at_ (.lift o) → takes (counted { next with held := c.held.filter (· ≠ o) } (paRelease o s))) ∧
    (∀ target count reg, at_ (.loop target count reg) →
      let value := match reg with | .a => c.registerA | .b => c.registerB
      let with_ := fun (i : Nat) (v : Option Nat) =>
        match reg with
        | .a => { c with index := i, registerA := v }
        | .b => { c with index := i, registerB := v }
      (count = 0 → part .level → takes (counted { c with index := target } s)) ∧
      (count = 0 → ¬ part .level → takes (counted next s)) ∧
      (count = 1 → value = none → takes (counted next s)) ∧
      (2 ≤ count → value = none → takes (counted (with_ target (some (count - 1))) s)) ∧
      (∀ v, count ≠ 0 → value = some v → 1 < v → takes (counted (with_ target (some (v - 1))) s)) ∧
      ∀ v, count ≠ 0 → value = some v → v ≤ 1 → takes (counted (with_ (c.index + 1) none) s)) ∧
    (∀ m, at_ (.mark m) →
      (s.li.mute = true → takes (counted next s)) ∧
      (s.li.mute = false → s.li.queue.length < 8 → takes (counted next
        { s with li := { s.li with queue := s.li.queue ++ [{ frame := .mark m r, age := s.now }] } })) ∧
      (s.li.mute = false → 8 ≤ s.li.queue.length →
        takes (counted next { s with pf := s.pf.recording .txOverrun r m.val }))) ∧
    (∀ m d, at_ (.await m d) → takes (waits (.await m (.due (s.now + d * 1000))))) ∧
    (∀ l v d, at_ (.awaitLine l v d) →
      let f := s.prof.lineFunction l
      let level := if f.isInput then (s.line l).debounced else if f.isOutput then (s.line l).driven else false
      (level = v → takes (counted next s)) ∧
      (level ≠ v → takes (waits (.awaitLine l v (.due (s.now + d * 1000)))))) ∧
    (∀ l v, at_ (.setLine l v) → (s.prof.lineFunction l).isOutput = true →
      let driven := s.setLine l { s.line l with driven := v }
      ((s.line l).driven = v ∨ (∀ c₀ timer, s.runner 0 = some c₀ → c₀.waiting ≠ .awaitLine l v timer) →
        takes (counted next driven)) ∧
      (∀ c₀ timer, (s.line l).driven ≠ v → s.runner 0 = some c₀ → c₀.waiting = .awaitLine l v timer →
        takes (counted next
          (driven.setRunner 0 (some { c₀ with index := c₀.index + 1, waiting := .running }))))) ∧
    (at_ .rearm →
      ((∃ e, c.script = .effectOn e) → part .edge → takes (counted { next with rearmed := true } s)) ∧
      (¬ ((∃ e, c.script = .effectOn e) ∧ part .edge) → takes (counted next s))) ∧
    (at_ .done → takes (.ended, c, s)) ∧
    ∃ e c' s', PassTo r c s e c' s') ∧
  (∀ (t m : Nat) (r : Fin 8) (i : Instr) (c : Context) (s : State), s.takes → s.runner r.val = some c →
    (i = .waitEnd t r ∧ c.waiting = .wait (.due m) ∨ i = .awaitTimeout t r ∧ ∃ k, c.waiting = .await k (.due m)) →
    m ≤ max s.now t →
    ∃ u, exec i s = .next u ∧ (s.at t).wentOn u r.val c) ∧
  (∀ (t : Nat) (a : Station) (k : Fin 64) (s : State), s.serves →
    ∃ u, exec (.mark t a k) s = .next u ∧ (s.hearing t a).allMarked u k) ∧
  (∀ (t : Nat) (k : Fin 64) (r age : Nat) (s : State), s.takes →
    s.li.inFlight = some { frame := .mark k r, age := age } →
    ∃ u, exec (.txComplete t) s = .next u ∧
      ({ s.at t with li := { s.li with inFlight := none, duplicates := 0 } } : State).allMarked u k)

/-- R93, R94, R95, R86: when the script of a holder ends, its held outputs are released and its runner is handed on, as
`State.endedTo` gives: to the pending effect of its group, if the stack is empty or its top is of a lower priority; else
to the top of the stack, whose effect is the holder again with HOLD sent for its held list and its wait running for the
time that was left; else to the pending effect of the highest priority, of the lowest group on ties, among the groups
without a holder; else the group has no holder and the runner is free. (A started effect is shown for an ON script that
begins with a WAIT.) -/
def Obligations.EndedEffectHandsItsRunnerOn : Prop :=
  ∀ (t m : Nat) (r : Fin 8) (c : Context) (e : Nat) (s : State), s.takes → 1 ≤ r.val → s.runner r.val = some c →
    c.waiting = .wait (.due m) → m ≤ max s.now t → s.prof.steps[c.index + 1]? = some .done →
    (c.script = .effectOn e ∨ c.script = .effectOff e) →
    ∃ u, exec (.waitEnd t r) s = .next u ∧ (s.at t).endedTo u r.val c (s.groupOf e)

/-- R85, R89, R90, R91, R92, R97, R86: what a trigger does. Outside READY nothing; in READY it restarts the rest timer.
An effect that is suspended, pending, or the holder and not rearmed is left alone; one that finds its group without a
holder and every runner occupied, or held by an effect of its own priority or above, becomes pending, replaces a pending
effect of its own priority or below, or is dropped; one above the holder with three contexts on the stack is refused with
STACK_FULL. One that may start (on the lowest free runner, over the holder, or in place when rearmed) has a fresh context
on its runner, shown here for an ON script that begins with a WAIT; a pre-empted holder's context goes on the stack with
the time left of its wait. R88: at a pre-emption and at a restart in place every output of the group's TRAP windows is
released, in ascending order, as `State.clearedTo` gives. R82, R83, R84: when a count moves, an EDGE effect is triggered
if it received a +1, and a LEVEL effect is triggered if its count rose from 0 and released if it fell to 0; nothing else is
done. A stud delta sets the stud part and moves the count; a cue edge triggers an EDGE effect if it rises, and sets the cue
part of a LEVEL effect and moves its count. R28: a merged change of a stud key between UP and above UP passes its delta to
each effect that names the stud, in ascending order, and any other passes nothing. -/
def Obligations.TriggerIsAnsweredByItsGroup : Prop :=
  ((∀ (e : Nat) (x : Effect) (s : State), s.effect e = some x →
    let n := (s.trigger e).count
    let moves := fun (before : Nat) (rise : Bool) (v : State) (u : State) =>
      (x.mode = .edge → u = if rise = true then trigger e v else v) ∧
      (x.mode = .level →
        (before = 0 → 0 < (v.trigger e).count → u = trigger e v) ∧
        (0 < before → (v.trigger e).count = 0 → u = levelRelease e v) ∧
        ((before = 0 ↔ (v.trigger e).count = 0) → u = v))
    (∀ before rise, moves before rise s (countMoved e before rise s)) ∧
    (∀ up, moves n up (s.setTrigger e { s.trigger e with stud := up }) (studDelta e up s)) ∧
    ∀ rises,
      (x.mode = .edge → cueEdge e rises s = if rises = true then trigger e s else s) ∧
      (x.mode = .level → moves n rises (s.setTrigger e { s.trigger e with cue := rises }) (cueEdge e rises s))) ∧
  (∀ (e before : Nat) (rise : Bool) (s : State), s.effect e = none → countMoved e before rise s = s) ∧
  ∀ (k : Nat) (old new : Touch) (s : State), ∃ named : List Nat, named.Pairwise (· < ·) ∧
    (∀ e, e ∈ named ↔ ∃ x, s.effect e = some x ∧ x.stud = some k) ∧
    (old = .up → new ≠ .up → studDeltas k old new s = named.foldl (fun v e => studDelta e true v) s) ∧
    (old ≠ .up → new = .up → studDeltas k old new s = named.foldl (fun v e => studDelta e false v) s) ∧
    ((old = .up ↔ new = .up) → studDeltas k old new s = s)) ∧
  ∀ (e : Nat) (x : Effect) (s : State), s.effect e = some x →
    let g := s.group x.group
    let h : State := { s with
      ch := { s.ch with
        rest := if s.prof.params.restDelay = 0 then none
          else some (s.now + s.prof.params.restDelay * 60000000) } }
    let inPlay := (∃ c ∈ g.stack, c.script = .effectOn e ∨ c.script = .effectOff e) ∨ g.pending = some e
    let queued :=
      match g.pending with
      | none => h.setGroup x.group { g with pending := some e }
      | some q => if s.priority q ≤ x.priority then h.setGroup x.group { g with pending := some e } else h
    let fresh : Nat → Context := fun d =>
      { script := .effectOn e, index := x.onEntry, waiting := .wait (.due (s.now + d * 1000)), registerA := none,
        registerB := none, held := [], rearmed := false, tally := 0 }
    let runs := fun (r : Nat) (f : Nat) (c : Context) => s.runnerOf f = some r ∧ s.runner r = some c
    (s.ch.state ≠ .ready → trigger e s = s) ∧
    (s.ch.state = .ready →
      (inPlay → trigger e s = h) ∧
      (¬ inPlay → g.holder = none → (∀ r, 1 ≤ r → r < 8 → s.runner r ≠ none) → trigger e s = queued) ∧
      (∀ r c, ¬ inPlay → g.holder = some e → runs r e c → c.rearmed = false → trigger e s = h) ∧
      (∀ f r c, ¬ inPlay → g.holder = some f → f ≠ e → runs r f c → x.priority ≤ s.priority f →
        trigger e s = queued) ∧
      (∀ f r c, ¬ inPlay → g.holder = some f → f ≠ e → runs r f c → s.priority f < x.priority → 3 ≤ g.stack.length →
        trigger e s = { h with pf := s.pf.recording .stackFull e x.group }) ∧
      (∀ d, s.prof.steps[x.onEntry]? = some (.wait d) →
        (∀ r, ¬ inPlay → g.holder = none → 1 ≤ r → r < 8 → s.runner r = none →
          (∀ r', 1 ≤ r' → r' < r → s.runner r' ≠ none) →
          trigger e s = (h.setGroup x.group { g with holder := some e }).setRunner r (some (fresh d))) ∧
        (∀ f r c, ¬ inPlay → g.holder = some f → f ≠ e → runs r f c → s.priority f < x.priority →
          g.stack.length < 3 → ∃ u, trigger e s = u ∧ u.runner r = some (fresh d) ∧
            (∀ m, c.waiting = .wait (.due m) → u.group x.group =
              { g with holder := some e, stack := { c with waiting := .wait (.left (m - s.now)) } :: g.stack }) ∧
            (∀ g', g' ≠ x.group → u.group g' = s.group g') ∧
            u = { h with ee := { u.ee with triggers := s.ee.triggers }, pa := u.pa, cc := u.cc } ∧
            (s.ProfileSound → s.clearedTo u x.group)) ∧
        (∀ r c, ¬ inPlay → g.holder = some e → runs r e c → c.rearmed = true →
          ∃ u, trigger e s = u ∧ u.runner r = some (fresh d) ∧ (∀ g', u.group g' = s.group g') ∧
            u = { h with ee := { u.ee with triggers := s.ee.triggers }, pa := u.pa, cc := u.cc } ∧
            (s.ProfileSound → s.clearedTo u x.group))))

/-- R96: what a LEVEL release does: a pending effect leaves its slot, a suspended one in its ON part leaves the stack, a
holder in its ON part jumps to its OFF entry with its held list kept and its registers idle (shown here for an OFF script
that begins with a WAIT) or, with no OFF entry, ends as R93 to R95 give, and a holder in its OFF part is left alone. -/
def Obligations.LevelReleaseIsAnsweredByPosition : Prop :=
  ∀ (e : Nat) (x : Effect) (s : State), s.effect e = some x →
    let g := s.group x.group
    (g.holder ≠ some e → g.pending = some e →
      levelRelease e s = s.setGroup x.group { g with pending := none }) ∧
    (g.holder ≠ some e → g.pending ≠ some e → ∃ u, levelRelease e s = u ∧
      u.group x.group = { g with stack := g.stack.filter (fun c => decide (c.script ≠ .effectOn e)) } ∧
      u = { s with ee := { s.ee with groups := u.ee.groups } } ∧ ∀ g', g' ≠ x.group → u.group g' = s.group g') ∧
    (∀ r c, g.holder = some e → s.runnerOf e = some r → s.runner r = some c → c.script = .effectOff e →
      levelRelease e s = s) ∧
    (∀ r c, g.holder = some e → s.runnerOf e = some r → s.runner r = some c → c.script = .effectOn e →
      x.offEntry = none → s.endedTo (levelRelease e s) r c x.group) ∧
    (∀ r c off d, g.holder = some e → s.runnerOf e = some r → s.runner r = some c → c.script = .effectOn e →
      x.offEntry = some off → s.prof.steps[off]? = some (.wait d) →
      levelRelease e s = s.setRunner r (some { c with
        script := .effectOff e, index := off, waiting := .wait (.due (s.now + d * 1000)), registerA := none,
        registerB := none, tally := 0 }))

/-! ### The arbiter (04) -/

/-- R65 to R69: the answers of PA to its four requests. Outside READY each is ignored. In READY an OFF output joins the
tail of its queue (a STRIKE or HOLD that finds 128 entries is dropped with STRIKE_OVERRUN), HOLD turns a waiting STRIKE
into a HOLD in its place and marks a running strike, RELEASE takes a waiting output out of its queue, turns a PULLING or
HOLDING output OFF with its units returned, and clears a strike's mark; everything else is ignored. PA then chooses
(R71). R78: CC has notice of a PULLING or HOLDING output that is turned OFF. That the notice reaches CC, and its shift
begins, within the request and before PA chooses is the model's reading (log 7). -/
def Obligations.RequestsAreAnsweredByState : Prop :=
  ∀ (o w : Nat) (s : State),
    let waiting : Pa := { s.pa with outs := s.pa.outs.set o .waiting }
    (s.ch.state ≠ .ready → paOpen o s = s ∧ paHold o s = s ∧ paStrike o w s = s ∧ paRelease o s = s) ∧
    (s.ch.state = .ready →
      (s.out o = .off →
        paOpen o s = chooseGrants { s with pa := { waiting with speech := s.pa.speech ++ [o] } } ∧
        (s.pa.action.length < 128 →
          paHold o s = chooseGrants { s with
            pa := { waiting with action := s.pa.action ++ [{ output := o, kind := .hold }] } } ∧
          paStrike o w s = chooseGrants { s with
            pa := { waiting with action := s.pa.action ++ [{ output := o, kind := .strike w }] } }) ∧
        (128 ≤ s.pa.action.length →
          paHold o s = chooseGrants { s with pf := s.pf.recording .strikeOverrun o 1 } ∧
          paStrike o w s = chooseGrants { s with pf := s.pf.recording .strikeOverrun o 0 })) ∧
      (s.ArbiterSound → s.out o ≠ .off → paOpen o s = s ∧ paStrike o w s = s) ∧
      (s.ArbiterSound → (s.out o = .holding ∨ ∃ m, s.out o = .pulling m) → paHold o s = s) ∧
      (s.ArbiterSound → ∀ before after k, s.pa.action = before ++ { output := o, kind := k } :: after →
        paHold o s = chooseGrants { s with
          pa := { s.pa with action := before ++ { output := o, kind := .hold } :: after } }) ∧
      (s.ArbiterSound → ∀ m stay, s.out o = .striking m stay →
        paHold o s = s.setOut o (.striking m true) ∧ paRelease o s = s.setOut o (.striking m false)) ∧
      (s.ArbiterSound → s.out o = .off → paRelease o s = s) ∧
      (s.ArbiterSound → s.out o = .waiting → ∃ u, paRelease o s = chooseGrants u ∧
        u = { s with pa := { s.pa with
          outs := s.pa.outs.set o .off, speech := s.pa.speech.filter (· ≠ o),
          action := s.pa.action.filter (fun x => decide (x.output ≠ o)), runCount := u.pa.runCount } } ∧
        u.pa.runCount = if u.pa.speech = [] then 0 else s.pa.runCount) ∧
      (s.ArbiterSound → (s.out o = .holding ∨ ∃ m, s.out o = .pulling m) →
        ∃ u, paRelease o s = chooseGrants u ∧
          u = { s with
            pa := { s.pa with
              outs := s.pa.outs.set o .off
              units := s.pa.units - (if s.out o = .holding then 0 else s.weight o) }
            cc := u.cc } ∧
          u.cc = (energizedNotice o { s with pa := u.pa }).cc ∧
          (s.prof.chainLength (o / 384) ≠ 0 → (u.chain (o / 384)).shift.isSome = true)))

/-- R71, R72, R73: PA grants the candidate while it fits and chooses again: each grant takes the head of its queue, gives
its output PULLING with the window's pull-in time or STRIKING with the width of the entry, adds its weight to the units,
and moves the run count; it stops at the first candidate that does not fit, and leaves the rest of both queues in their
order. With no candidate, or with one that does not fit, nothing at all changes: the head waits, and so does the other
queue. R78, R172: at each grant PA gives CC notice, and a notice to a chain starts a shift of the pattern that PA holds
(all off while the chain is FAILED) if none is in progress, and otherwise leaves a change waiting; a chain without positions
never shifts. That the notice reaches CC at each grant, before PA chooses again, is the model's reading (log 7). -/
def Obligations.GrantsStopAtTheFirstThatDoesNotFit : Prop :=
  (∀ (o : Nat) (s : State),
    let c := o / 384
    let b := s.chain c
    let n := s.prof.chainLength c
    (b.shift = none → n = 0 → energizedNotice o s = s) ∧
    (b.shift = none → n ≠ 0 → energizedNotice o s = s.setChain c { b with
      shift := some
        { pattern := if b.status = .failed then [] else s.truePattern c, ends := s.now + (n / 2 + 1) }
      changeWaiting := false
      refresh := none }) ∧
    (b.shift ≠ none → energizedNotice o s = s.setChain c { b with changeWaiting := true })) ∧
  ∀ s : State,
    let u := chooseGrants s
    (∀ c, u.candidate = some c → u.freeUnits < u.weight c.output) ∧
    (∀ c, s.candidate = some c → s.freeUnits < s.weight c.output → u = s) ∧ (s.candidate = none → u = s) ∧
    (s.pa.speech = [] → s.pa.action = [] → u = s) ∧
    (∀ o rest, s.pa.speech = o :: rest →
      (s.pa.action = [] ∨ s.prof.params.actionRunLimit ≤ s.pa.runCount) → s.freeUnits < s.weight o → u = s) ∧
    (∀ o k rest, s.pa.action = { output := o, kind := k } :: rest →
      (s.pa.speech = [] ∨ s.pa.runCount < s.prof.params.actionRunLimit) → s.freeUnits < s.weight o → u = s) ∧
    (∃ i, u.pa.speech = s.pa.speech.drop i) ∧ (∃ j, u.pa.action = s.pa.action.drop j) ∧
    u = { s with pa := u.pa, cc := u.cc } ∧
    (s.pa.units ≤ s.prof.params.budget → u.pa.units ≤ s.prof.params.budget) ∧
    (∀ o rest, s.pa.speech = o :: rest →
      (s.pa.action = [] ∨ s.prof.params.actionRunLimit ≤ s.pa.runCount) → s.weight o ≤ s.freeUnits →
      u = chooseGrants (energizedNotice o { s with pa :=
        { s.pa with
          outs := s.pa.outs.set o (.pulling (s.now + s.pullInTime o)), speech := rest,
          units := s.pa.units + s.weight o, runCount := 0 } })) ∧
    (∀ o k rest, s.pa.action = { output := o, kind := k } :: rest →
      (s.pa.speech = [] ∨ s.pa.runCount < s.prof.params.actionRunLimit) → s.weight o ≤ s.freeUnits →
      u = chooseGrants (energizedNotice o { s with pa :=
        { s.pa with
          outs := s.pa.outs.set o
            (match k with
              | .hold => .pulling (s.now + s.pullInTime o)
              | .strike w => .striking (s.now + w * 1000) false),
          action := rest, units := s.pa.units + s.weight o,
          runCount := if s.pa.speech = [] then 0 else s.pa.runCount + 1 } }))

/-- R74: a pull-in that has run its time leaves its output HOLDING; a strike that has run its width leaves it HOLDING
if it was marked to stay and OFF otherwise, of which CC has notice (R78); the units return and PA chooses. An end that finds its output no longer
PULLING or STRIKING does nothing, nor does one that is not due (log 1, the model's choice). -/
def Obligations.PullInsAndStrikesEnd : Prop :=
  ∀ (t : Nat) (o : Fin 1536) (s : State), s.takes →
    ((∀ m, s.out o.val = .pulling m → max s.now t < m) → exec (.pullInEnd t o) s = .next (s.at t)) ∧
    ((∀ m stay, s.out o.val = .striking m stay → max s.now t < m) → exec (.strikeEnd t o) s = .next (s.at t)) ∧
    (s.ch.state = .ready → s.ArbiterSound →
      (∀ m, s.out o.val = .pulling m → m ≤ max s.now t → ∃ u, exec (.pullInEnd t o) s = .next u ∧
        u.out o.val = .holding ∧ u = { s.at t with pa := u.pa, cc := u.cc } ∧
        u = chooseGrants { s.at t with pa :=
          { s.pa with outs := s.pa.outs.set o.val .holding, units := s.pa.units - s.weight o.val } } ∧
        (s.pa.speech = [] → s.pa.action = [] → u = { s.at t with pa :=
          { s.pa with outs := s.pa.outs.set o.val .holding, units := s.pa.units - s.weight o.val } })) ∧
      (∀ m stay, s.out o.val = .striking m stay → m ≤ max s.now t → ∃ u, exec (.strikeEnd t o) s = .next u ∧
        u.out o.val = (if stay then .holding else .off) ∧ u = { s.at t with pa := u.pa, cc := u.cc } ∧
        (let ended := { s.at t with pa := { s.pa with
          outs := s.pa.outs.set o.val (if stay then .holding else .off), units := s.pa.units - s.weight o.val } }
        u = chooseGrants (if stay then ended else energizedNotice o.val ended)) ∧
        (s.pa.speech = [] → s.pa.action = [] → u.pa =
          { s.pa with
            outs := s.pa.outs.set o.val (if stay then .holding else .off)
            units := s.pa.units - s.weight o.val } ∧ (stay = true → u.cc = s.cc))))

/-! ### The demand table and resolution (01, 03) -/

/-- R49: an edge of a window's clock in READY asks PA to STRIKE every output of the window's set, in the set's order, which
is ascending, at the window's strike width, so that each is out of OFF if the action queue has room, and the next edge comes
one period later; an edge outside READY, of a stopped clock or not yet due
does nothing (log 1, the model's choice). -/
def Obligations.ClockEdgeStrikesItsSet : Prop :=
  ∀ (t : Nat) (w : Fin 32) (s : State), s.takes →
    (¬ (s.ch.state = .ready ∧ dueAt (max s.now t) (s.dt.clocks.get w.val)) →
      exec (.reiterationClockEdge t w) s = .next (s.at t)) ∧
    (∀ due x, s.ch.state = .ready → s.dt.clocks.get w.val = some due → due ≤ max s.now t →
      s.prof.windows[w.val]? = some x →
      ∃ u, exec (.reiterationClockEdge t w) s = .next u ∧
        u = { s.at t with
          dt := { s.dt with clocks := s.dt.clocks.set w.val (some (due + x.reiteration * 1000)) }
          pa := u.pa, cc := u.cc
          pf := { s.pf with record := u.pf.record, later := u.pf.later, seen := u.pf.seen } } ∧
        (s.SetsSound → (s.dt.sets.get w.val).Pairwise (· < ·)) ∧
        ((∀ o ∈ s.dt.sets.get w.val, s.prof.windowOf o = some x) →
          let v := (s.dt.sets.get w.val).foldl (fun v o => paStrike o x.strikeWidth v) (s.at t)
          u.pa = v.pa ∧ u.cc = v.cc ∧ u.pf = v.pf) ∧
        (s.pa.action.length + (s.dt.sets.get w.val).length ≤ 128 →
          u.pf = s.pf ∧ ∀ o ∈ s.dt.sets.get w.val, u.out o ≠ .off))

/-- R9, R10, R11: where the note of a key falls. Outside 0 to 127 it sounds nothing; within the window it sounds its own
output; above the window its top policy folds it down by the fewest octaves that bring it below the top, and below it its
bottom policy folds it up by the fewest that bring it to the first output or above, if what results lies in the window;
SILENT sounds nothing. (R11 resolves a note folded up to a position above note 127, which R3 has no stop and key reach; the
model follows R11, log 26.) -/
def Obligations.NotesFoldIntoTheWindow : Prop :=
  ∀ (b k : Nat) (p : Int) (w : Window) (top bottom : Policy),
    let note : Int := b + k + p
    let i := note - w.firstNote
    let size : Int := w.size
    let output := fun j : Int => if 0 ≤ j ∧ j < size then some (w.first + j.toNat) else none
    let resolved := resolve b k p w top bottom
    (note < 0 ∨ 127 < note → resolved = none) ∧
    (0 ≤ note → note ≤ 127 →
      (0 ≤ i → i < size → resolved = some (w.first + i.toNat)) ∧
      (size ≤ i → top = .silent → resolved = none) ∧
      (size ≤ i → top = .breakBack → ∃ c : Nat, i - 12 * c < size ∧ (∀ c' : Nat, i - 12 * c' < size → c ≤ c') ∧
        resolved = output (i - 12 * c) ∧ (12 ≤ size → size - 12 ≤ i - 12 * c)) ∧
      (i < 0 → bottom = .silent → resolved = none) ∧
      (i < 0 → bottom = .breakBack → ∃ c : Nat, 0 ≤ i + 12 * c ∧ (∀ c' : Nat, 0 ≤ i + 12 * c' → c ≤ c') ∧
        resolved = output (i + 12 * c) ∧ i + 12 * c ≤ 11))

/-! ### Tremulants and shutters (07) -/

/-- R122, R121: a BEAT locks every running FOLLOW group of its leader and tag, at phase 0 and with its follow-loss timer
at three periods, and asks PA to HOLD their outputs, in ascending group order, so that each is out of OFF if the action
queue has room; no other group moves. -/
def Obligations.BeatLocksItsFollowers : Prop :=
  ∀ (t : Nat) (a : Station) (tag : Fin 16) (s : State), s.serves →
    ∃ u, exec (.beat t a tag) s = .next u ∧
      (∀ g x, g < 4 → s.tremGroup g = some x →
        if x.mode = .follow ∧ x.leader = a ∧ x.tag = tag ∧ (s.trem g).running = true then
          u.trem g = { s.trem g with
            locked := true, loss := some (max s.now t + 3 * (x.period * 1000))
            phase0 := some (max s.now t + x.period * 1000), phaseW := some (max s.now t + x.width * 1000) } ∧
          (s.ch.state = .ready → s.pa.action.length < 125 → u.out x.output ≠ .off)
        else u.trem g = s.trem g) ∧
      (∀ g, s.tremGroup g = none → u.trem g = s.trem g) ∧
      (let asked := (List.range 4).foldl (fun v g =>
        match s.tremGroup g with
        | none => v
        | some x =>
          if x.mode = .follow ∧ x.leader = a ∧ x.tag = tag ∧ (s.trem g).running = true then paHold x.output v
          else v) (s.at t)
      u.pa = asked.pa ∧ u.cc = asked.cc ∧ u.pf = asked.pf) ∧
      u = { s.hearing t a with
        tsu := { s.tsu with trems := u.tsu.trems }
        pa := u.pa, cc := u.cc, pf := { s.pf with record := u.pf.record, later := u.pf.later, seen := u.pf.seen } }

/-- R120, R121: at phase 0 a running group asks PA to HOLD its output, its phase W comes a width later and its
next phase 0 a period later, counted from the phase that was due (log 1); a LEAD group hands over its BEAT, which
waits to be sent as R160 gives if the station is not MUTE (`Li.afterBeat`), and no other waiting frame moves. A phase of a stopped group, or not yet due, does
nothing (log 1, the model's choice). -/
def Obligations.PhaseZeroHoldsTheTremulant : Prop :=
  ∀ (t : Nat) (g : Fin 4) (s : State), s.takes →
    (¬ ((s.trem g.val).running = true ∧ dueAt (max s.now t) (s.trem g.val).phase0) →
      exec (.phase0 t g) s = .next (s.at t)) ∧
    (∀ m x, (s.trem g.val).running = true → (s.trem g.val).phase0 = some m → m ≤ max s.now t →
      s.tremGroup g.val = some x →
      ∃ u, exec (.phase0 t g) s = .next u ∧
        u.trem g.val =
          { s.trem g.val with phase0 := some (m + x.period * 1000), phaseW := some (m + x.width * 1000) } ∧
        (∀ g', g' ≠ g.val → u.trem g' = s.trem g') ∧
        u = { s.at t with
          tsu := { s.tsu with trems := u.tsu.trems }
          li := { s.li with queue := u.li.queue }
          pa := u.pa, cc := u.cc
          pf := { s.pf with record := u.pf.record, later := u.pf.later, seen := u.pf.seen } } ∧
        (let asked := paHold x.output (s.at t)
        u.pa = asked.pa ∧ u.cc = asked.cc ∧ u.pf = asked.pf) ∧
        (s.ch.state = .ready → s.pa.action.length < 128 → u.out x.output ≠ .off) ∧
        (x.mode ≠ .lead → u.li = s.li) ∧
        (x.mode = .lead → s.li.mute = false → s.li.queue.length < 8 → ∃ q ∈ u.li.queue, q.frame = .beat x.tag) ∧
        (x.mode = .lead → s.li.afterBeat x.tag (max s.now t) u.li.queue))

/-- R120: at phase W a running group asks PA to RELEASE its output. R123: a follower whose leader has been silent
for three periods is FREE again and FOLLOW_LOST is recorded with the group and the leader's station; its cycle goes
on. A timer of a stopped group, or not yet due, does nothing (log 1, the model's choice). -/
def Obligations.PhaseWAndFollowLossEnd : Prop :=
  ∀ (t : Nat) (g : Fin 4) (s : State), s.takes →
    (¬ ((s.trem g.val).running = true ∧ dueAt (max s.now t) (s.trem g.val).phaseW) →
      exec (.phaseW t g) s = .next (s.at t)) ∧
    (∀ x, (s.trem g.val).running = true → dueAt (max s.now t) (s.trem g.val).phaseW → s.tremGroup g.val = some x →
      ∃ u, exec (.phaseW t g) s = .next u ∧
        u = { (s.at t).setTrem g.val { s.trem g.val with phaseW := none } with
          pa := (paRelease x.output (s.at t)).pa, cc := (paRelease x.output (s.at t)).cc } ∧
        (s.ch.state = .ready → s.ArbiterSound → (∀ m stay, s.out x.output ≠ .striking m stay) →
          u.out x.output = .off)) ∧
    (¬ ((s.trem g.val).locked = true ∧ dueAt (max s.now t) (s.trem g.val).loss) →
      exec (.followLossExpiry t g) s = .next (s.at t)) ∧
    ((s.trem g.val).locked = true → dueAt (max s.now t) (s.trem g.val).loss →
      exec (.followLossExpiry t g) s = .next
        { (s.at t).setTrem g.val { s.trem g.val with locked := false, loss := none } with
          pf := s.pf.recording .followLost g.val (((s.tremGroup g.val).map (·.leader.val)).getD 0) })

/-- R127: when the owner-hold timer of a set runs out the set has no owner; its stage and target stand. R129: when the
step timer runs out in READY the set takes one step toward its target, asking PA to HOLD the output of the stage it opens
or to RELEASE that of the stage it closes, and starts the timer afresh; at the target, and outside READY, the
timer stops. A timer that is stopped or has time left does nothing (log 1, the model's choice). -/
def Obligations.ShutterTimersReleaseAndStep : Prop :=
  ∀ (t : Nat) (x : Fin 2) (s : State), s.takes →
    let v := s.shutter x.val
    (exec (.ownerHoldExpiry t x) s = .next (
      match v.ownerHold with
      | some m =>
        if m ≤ max s.now t then (s.at t).setShutter x.val { v with owner := none, ownerHold := none } else s.at t
      | none => s.at t)) ∧
    (¬ dueAt (max s.now t) v.stepTimer → exec (.stepTimerExpiry t x) s = .next (s.at t)) ∧
    (dueAt (max s.now t) v.stepTimer → (s.ch.state ≠ .ready ∨ v.stage = v.target) →
      exec (.stepTimerExpiry t x) s = .next ((s.at t).setShutter x.val { v with stepTimer := none })) ∧
    (∀ cfg, dueAt (max s.now t) v.stepTimer → s.ch.state = .ready → s.shutterSet x.val = some cfg →
      (v.stage < v.target → ∃ u, exec (.stepTimerExpiry t x) s = .next u ∧
        u = { (s.at t).setShutter x.val
            { v with stage := v.stage + 1, stepTimer := some (max s.now t + cfg.interval * 1000) } with
          pa := u.pa, cc := u.cc
          pf := { s.pf with record := u.pf.record, later := u.pf.later, seen := u.pf.seen } } ∧
        (let asked := paHold (cfg.first + v.stage) (s.at t)
        u.pa = asked.pa ∧ u.cc = asked.cc ∧ u.pf = asked.pf) ∧
        (s.pa.action.length < 128 → u.out (cfg.first + v.stage) ≠ .off)) ∧
      (v.target < v.stage → ∃ u, exec (.stepTimerExpiry t x) s = .next u ∧
        u = { (s.at t).setShutter x.val
            { v with stage := v.stage - 1, stepTimer := some (max s.now t + cfg.interval * 1000) } with
          pa := (paRelease (cfg.first + v.stage - 1) (s.at t)).pa
          cc := (paRelease (cfg.first + v.stage - 1) (s.at t)).cc } ∧
        (s.ArbiterSound → (∀ m stay, s.out (cfg.first + v.stage - 1) ≠ .striking m stay) →
          u.out (cfg.first + v.stage - 1) = .off)))

/-! ### The chains (10) -/

/-- R171, R172, R174, R175, R170: a shift sends its pattern highest position first, on as high, and the loopback returns
what the chain held in the same order. At the end of a shift the pattern shifted is latched and the blanking is released.
Unless it is the first shift since reset, the returned bits (one that the command does not carry reads low, log 18) are
judged against the pattern latched before: a match makes the chain GOOD; a mismatch counts, to FAILED at three, and records CHAIN_FAULT with the lowest differing position. A shift
follows at once if a change waits or a FAILED chain has matched, all off while the chain is FAILED; otherwise the refresh
interval runs. R173: when the refresh timer runs out, a shift of the pattern that PA then holds begins, or, while a shift
is in progress, a change waits. The other chains and blocks stand; an end or a timer that is not due does nothing (log 1,
the model's choice). -/
def Obligations.ShiftsLatchAndAreJudged : Prop :=
  (∀ (t : Nat) (c : Fin 4) (returned : List Bool) (s : State), s.takes →
    let b := s.chain c.val
    let n := s.prof.chainLength c.val
    let high := fun j => returned[n - 1 - j]? = some true
    let differs := fun j => j < n ∧ (high j ↔ j ∉ b.latched)
    (∀ x, b.shift = some x → ∃ bits, s.bitsShifting c.val = some bits ∧ bits.length = n ∧
      ∀ j, j < n → bits[n - 1 - j]? = some (decide (j ∈ x.pattern))) ∧
    ((∀ x, b.shift = some x → max s.now t < x.ends) → exec (.shiftEnd t c returned) s = .next (s.at t)) ∧
    (∀ x, b.shift = some x → x.ends ≤ max s.now t → ∃ u, exec (.shiftEnd t c returned) s = .next u ∧
      u = { s.at t with cc := u.cc, pf := u.pf } ∧ (∀ c', c' ≠ c.val → u.chain c' = s.chain c') ∧
      (u.chain c.val).latched = x.pattern ∧ (u.chain c.val).released = true ∧
      (b.released = false →
        (u.chain c.val).status = b.status ∧ (u.chain c.val).mismatches = b.mismatches ∧ u.pf = s.pf) ∧
      (b.released = true → (∀ j, ¬ differs j) →
        (u.chain c.val).status = .good ∧ (u.chain c.val).mismatches = 0 ∧ u.pf = s.pf) ∧
      (b.released = true → ∀ j, differs j → (∀ i, i < j → ¬ differs i) →
        (u.chain c.val).mismatches = min 3 (b.mismatches + 1) ∧
        (u.chain c.val).status = (if 2 ≤ b.mismatches then .failed else .suspect) ∧
        u.pf = s.pf.recording .chainFault c.val j) ∧
      (b.changeWaiting = true ∨ (b.status = .failed ∧ (u.chain c.val).status = .good) → n ≠ 0 →
        (u.chain c.val).shift = some
          { pattern := if (u.chain c.val).status = .failed then [] else s.truePattern c.val,
            ends := max s.now t + (n / 2 + 1) } ∧
        (u.chain c.val).changeWaiting = false ∧ (u.chain c.val).refresh = none) ∧
      (b.changeWaiting = false → ¬ (b.status = .failed ∧ (u.chain c.val).status = .good) →
        (u.chain c.val).shift = none ∧ (u.chain c.val).refresh =
          (if s.prof.params.refreshInterval = 0 then none
            else some (max s.now t + s.prof.params.refreshInterval * 1000))))) ∧
  (∀ (t : Nat) (c : Fin 4) (s : State), s.takes →
    let b := s.chain c.val
    let n := s.prof.chainLength c.val
    (¬ dueAt (max s.now t) b.refresh → exec (.refreshTimerExpiry t c) s = .next (s.at t)) ∧
    (dueAt (max s.now t) b.refresh → b.shift = none → n ≠ 0 →
      exec (.refreshTimerExpiry t c) s = .next ((s.at t).setChain c.val { b with
        shift := some
          { pattern := if b.status = .failed then [] else s.truePattern c.val, ends := max s.now t + (n / 2 + 1) }
        changeWaiting := false
        refresh := none })) ∧
    (dueAt (max s.now t) b.refresh → b.shift ≠ none →
      exec (.refreshTimerExpiry t c) s = .next ((s.at t).setChain c.val { b with changeWaiting := true })) ∧
    (∀ j, j ∈ s.truePattern c.val ↔ j < n ∧
      ((∃ m, s.out (c.val * 384 + j) = .pulling m) ∨ s.out (c.val * 384 + j) = .holding ∨
        ∃ m stay, s.out (c.val * 384 + j) = .striking m stay)))

/-! ### The part's own frames (09) -/

/-- R164, R160: every 200 ms, in every state, a PRESENCE of what the part then holds is handed over: in the place of
one that waits, with its age, or else at the tail if fewer than 8 frames wait; a MUTE station discards it. The period
runs on from the moment that was due, and nothing else moves; a period that is not over does nothing (log 1, the
model's choice). -/
def Obligations.PresenceIsHandedOverEveryPeriod : Prop :=
  ∀ (t : Nat) (s : State), s.takes →
    (¬ dueAt (max s.now t) s.li.presencePeriod → exec (.presencePeriodExpiry t) s = .next (s.at t)) ∧
    (∀ m, s.li.presencePeriod = some m → m ≤ max s.now t → ∃ u, exec (.presencePeriodExpiry t) s = .next u ∧
      let f := Frame.presence s.ch.state s.pf.record.isSome s.pf.tag
      u = { s.at t with li := { s.li with queue := u.li.queue, presencePeriod := some (m + 200000) } } ∧
      (s.li.mute = true → u.li.queue = s.li.queue) ∧
      (s.li.mute = false → (∀ q ∈ s.li.queue, ∀ a b c, q.frame ≠ .presence a b c) → s.li.queue.length < 8 →
        u.li.queue = s.li.queue ++ [{ frame := f, age := max s.now t }]) ∧
      (s.li.mute = false → ∀ before after a b c age,
        s.li.queue = before ++ { frame := .presence a b c, age := age } :: after →
        (∀ q ∈ before ++ after, ∀ a b c, q.frame ≠ .presence a b c) →
        u.li.queue = before ++ { frame := f, age := age } :: after) ∧
      (s.li.mute = false → (∀ q ∈ s.li.queue, ∀ a b c, q.frame ≠ .presence a b c) → 8 ≤ s.li.queue.length →
        u.li.queue = s.li.queue))

/-- R156, R159: when it may begin a frame, a station that is not MUTE and has none in flight takes the waiting frame
of the lowest class, and of those the oldest; otherwise nothing moves (log 1, the model's choice). A frame that loses
the claim goes back with its age, to the front of the queue (log 17, the model's reading), or is discarded where a newer one of its slot waits; nothing is recorded and the
duplicate count stands. -/
def Obligations.TransmissionBeginsAndLosesTheClaim : Prop :=
  ∀ (t : Nat) (s : State), s.takes →
    (s.li.mute = true ∨ s.li.inFlight ≠ none ∨ s.li.queue = [] → exec (.txStart t) s = .next (s.at t)) ∧
    (s.li.mute = false → s.li.inFlight = none → s.li.queue ≠ [] → ∃ q ∈ s.li.queue,
      (∀ x ∈ s.li.queue, q.frame.classNo ≤ x.frame.classNo ∧
        (x.frame.classNo = q.frame.classNo → q.age ≤ x.age)) ∧
      exec (.txStart t) s =
        .next { s.at t with li := { s.li with queue := s.li.queue.erase q, inFlight := some q } }) ∧
    (s.li.inFlight = none → exec (.claimLost t) s = .next (s.at t)) ∧
    (∀ q, s.li.inFlight = some q →
      exec (.claimLost t) s = .next { s.at t with li := { s.li with
        queue := if s.li.queue.any (fun x => q.frame.sameSlot x.frame) then s.li.queue else q :: s.li.queue
        inFlight := none } })

/-- R157, R158: a mismatch counts, records DUP_STATION with this station as source and the count as detail, and sends
the frame back as a lost claim does (to the front of the queue: log 17, the model's reading); at the third the station is MUTE, with no frame waiting or in flight. With no
frame in flight nothing moves (log 1, the model's choice). -/
def Obligations.MismatchCountsTowardMute : Prop :=
  ∀ (t : Nat) (s : State), s.takes →
    (s.li.inFlight = none → exec (.txMismatch t) s = .next (s.at t)) ∧
    (∀ q, s.li.inFlight = some q →
      exec (.txMismatch t) s = .next { s.at t with
        pf := s.pf.recording .dupStation s.pf.station.val (s.li.duplicates + 1)
        li := if s.li.duplicates < 2 then
            { s.li with
              queue := if s.li.queue.any (fun x => q.frame.sameSlot x.frame) then s.li.queue else q :: s.li.queue
              inFlight := none
              duplicates := s.li.duplicates + 1 }
          else { s.li with queue := [], inFlight := none, duplicates := s.li.duplicates + 1, mute := true } })

/-- R161: a frame sent whole leaves LI and the duplicate count returns to 0. A PRESENCE or REPORT does no more; a BEAT
is taken by this station's own followers of itself, as a received one is (R122: locked, at phase 0 and with their
follow-loss timers at three periods), and a MARK that no runner awaits does
nothing. With no frame in flight nothing moves (log 1, the model's choice). -/
def Obligations.CompletedFrameLeavesTheLine : Prop :=
  ∀ (t : Nat) (s : State), s.takes →
    let sent : State := { s.at t with li := { s.li with inFlight := none, duplicates := 0 } }
    (s.li.inFlight = none → exec (.txComplete t) s = .next (s.at t)) ∧
    (∀ q, s.li.inFlight = some q →
      ((∃ a b c, q.frame = .presence a b c) ∨ (∃ r, q.frame = .report r) → exec (.txComplete t) s = .next sent) ∧
      (∀ k r, q.frame = .mark k r →
        (∀ r' c, r' < 8 → s.runner r' = some c → ∀ m, c.waiting ≠ .await k (.due m)) →
        exec (.txComplete t) s = .next sent) ∧
      (∀ tag, q.frame = .beat tag → ∃ u, exec (.txComplete t) s = .next u ∧
        (let asked := (List.range 4).foldl (fun v g =>
          match s.tremGroup g with
          | none => v
          | some x =>
            if x.mode = .follow ∧ x.leader = s.pf.station ∧ x.tag = tag ∧ (s.trem g).running = true then
              paHold x.output v
            else v) (s.at t)
        u.pa = asked.pa ∧ u.cc = asked.cc ∧ u.pf = asked.pf) ∧
        u = { sent with
          tsu := { s.tsu with trems := u.tsu.trems }
          pa := u.pa, cc := u.cc
          pf := { s.pf with record := u.pf.record, later := u.pf.later, seen := u.pf.seen } } ∧
        (∀ g x, g < 4 → s.tremGroup g = some x →
          if x.mode = .follow ∧ x.leader = s.pf.station ∧ x.tag = tag ∧ (s.trem g).running = true then
            u.trem g = { s.trem g with
              locked := true, loss := some (max s.now t + 3 * (x.period * 1000))
              phase0 := some (max s.now t + x.period * 1000), phaseW := some (max s.now t + x.width * 1000) }
          else u.trem g = s.trem g) ∧
        ∀ g, s.tremGroup g = none → u.trem g = s.trem g))

/-- R153, R154, R162, R163: the bytes of the frame of a well-formed command are read back as that command, whatever its
operands. R152: so are the bits of the frame: each byte goes as a dominant start bit, its eight data bits with the most
significant first, and a recessive stop bit, and whatever follows the frame on the line is not read. -/
def Obligations.FramesAreReadAsTheyAreWritten : Prop :=
  ∀ (c : Instr) (f : Parts) (straps : Station), c.wellFormed = true → partsFor c = some f →
    (∀ t a mask straps', c = .restart t a mask straps' → straps' = straps) →
    receive c.moment false f.bytes straps = some c ∧
    (∀ surplus : List Bool, receiveLevels c.moment (lineLevels f.bytes ++ surplus) straps = some c) ∧
    ∀ i b, f.bytes[i]? = some b →
      (lineLevels f.bytes)[10 * i]? = some false ∧ (lineLevels f.bytes)[10 * i + 9]? = some true ∧
        ∀ j, j < 8 → (lineLevels f.bytes)[10 * i + 1 + j]? = some (b.getLsbD (7 - j))

/-- R162, R163, R164: every frame that the part sends passes the check at a receiver and carries what was handed over: a
PRESENCE its state, which a receiver reads back, its fault-present flag and its tag, a BEAT its tag, a MARK its number, a
REPORT its twenty bytes. The bytes of a REPORT are those of R162: chamber state, restart cause and later flag, the chain
statuses, the tag, the first-fault word and detail (with an empty record the source and the detail are sent 0: log 22, the
model's choice), the seen-kinds set, the number of sounding pipes, the two queue depths, the units in use, and a bit for
each effect that is a holder. -/
def Obligations.SentFramesPassTheCheck : Prop :=
  ∀ (t : Nat) (a straps : Station),
    (∀ (st : ChamberState) (fault : Bool) (tag : BitVec 16),
      receive t false ((Frame.presence st fault tag).parts a).bytes straps =
        some (.presence t a 1 (BitVec.ofNat 8 st.code) (if fault then 1 else 0) tag) ∧
      announcedOf (BitVec.ofNat 8 st.code) = some st) ∧
    (∀ r : Report,
      let byte := fun i => (r.payload.getD i 0).toNat
      let word := fun i => byte i * 256 + byte (i + 1)
      let kinds : List FaultKind := [.lineCheck, .dupStation, .txOverrun, .consoleExcess, .consoleLost, .strikeOverrun,
        .stackFull, .scriptRunaway, .syncShort, .windTimeout, .pressureLost, .chainFault, .followLost, .profileRefusal]
      (announcedOf (BitVec.ofNat 8 (byte 0 % 16)) = some r.state ∧
        byte 0 / 16 % 4 = (match r.cause with | .powerOn => 0 | .pin => 1 | .line => 2) ∧
        byte 0 / 64 = if r.later = true then 1 else 0) ∧
      (r.chains.length = 4 → ∀ c st, r.chains[c]? = some st →
        byte 1 / 4 ^ c % 4 = (match st with | .good => 0 | .suspect => 1 | .failed => 2)) ∧
      word 2 = r.tag.toNat ∧
      (r.record = none → word 4 = 0 ∧ word 6 = 0) ∧
      (∀ x, r.record = some x → 1 ≤ word 4 / 4096 ∧ kinds[word 4 / 4096 - 1]? = some x.kind ∧
        (x.source ≤ 2047 → word 4 % 4096 = x.source) ∧ (x.detail ≤ 65535 → word 6 = x.detail)) ∧
      word 8 = r.seen.toNat ∧
      (r.sounding ≤ 65535 → word 10 = r.sounding) ∧ (r.speechDepth ≤ 65535 → word 12 = r.speechDepth) ∧
      (r.actionDepth ≤ 128 → byte 14 = r.actionDepth) ∧ (r.units ≤ 255 → byte 15 = r.units) ∧
      (r.holders.length = 32 → ∀ e, e < 32 →
        (byte (19 - e / 8) / 2 ^ (e % 8) % 2 = 1 ↔ r.holders[e]? = some true)) ∧
      r.payload.length = 20 ∧
      receive t false ((Frame.report r).parts a).bytes straps = some (.reportReceived t a r.payload)) ∧
    (∀ tag : Fin 16, receive t false ((Frame.beat tag).parts a).bytes straps = some (.beat t a tag)) ∧
    ∀ (k : Fin 64) (r : Nat), receive t false ((Frame.mark k r).parts a).bytes straps = some (.mark t a k)

/-- R155: a frame fails for the lowest-numbered reason that applies: it was cut off or framed wrongly, its length is one
that its kind does not allow or above 20, its kind is none of its class, or its check bytes are not those of its bytes;
LINE_CHECK then names the station of its claim byte. R152: bytes that follow a frame which its length field completes are
not read. On the line, a frame whose stop bits are all recessive is read as its bytes, whatever follows it; one of whose
stop bits is dominant, or that a gap of 12 recessive bits cuts off, fails for framing. -/
def Obligations.DamagedFramesFailTheirCheck : Prop :=
  ∀ (t : Nat) (straps : Station) (f : Parts) (x y : Byte), f.payload.length < 32 →
    let whole := f.claim :: f.kind :: f.payload
    let allowed := lengthAllowed f.classNo.val f.code.val f.payload.length
    let fails := fun (framing : Bool) (bytes : List Byte) (reason : CheckReason) =>
      receive t framing bytes straps = some (.lineCheck t f.sender reason)
    fails true (whole ++ [x, y]) .framing ∧
    (∀ n, 0 < n → n < f.payload.length + 4 → fails false ((whole ++ [x, y]).take n) .framing) ∧
    (20 < f.payload.length ∨ allowed = some false → fails false (whole ++ [x, y]) .length) ∧
    (f.payload.length ≤ 20 → allowed = none → fails false (whole ++ [x, y]) .kind) ∧
    (f.payload.length ≤ 20 → allowed = some true → [x, y] ≠ wordBytes (checkOf whole) →
      fails false (whole ++ [x, y]) .check) ∧
    (∀ (framing : Bool) (surplus : List Byte),
      receive t framing (whole ++ [x, y] ++ surplus) straps = receive t framing (whole ++ [x, y]) straps) ∧
    ∀ surplus : List Bool,
      let levels := lineLevels (whole ++ [x, y])
      let framed := fun levels : List Bool =>
        receiveLevels t (levels ++ surplus) straps = some (.lineCheck t f.sender .framing)
      receiveLevels t (levels ++ surplus) straps = receive t false (whole ++ [x, y]) straps ∧
      (∀ i, i < f.payload.length + 4 → framed (levels.set (10 * i + 9) false)) ∧
      ∀ n, 0 < n → n < f.payload.length + 4 →
        framed (lineLevels ((whole ++ [x, y]).take n) ++ List.replicate 12 true)

/-! ### What every step keeps -/

/-- R52, R65, R77, R99, R119, R131, R142, R144: the quiet outside READY is kept by every step. -/
def Obligations.QuietOutsideReadyIsKept : Prop :=
  ∀ s u : State, s.QuietOutsideReady → step s = .next u → u.QuietOutsideReady

/-- R104, R139, R135, R183: that runner 0 holds the script of the chamber state, and that a profile is held from DARK on,
is kept by every step. -/
def Obligations.ChamberScriptsAreKept : Prop :=
  ∀ s u : State, s.ChamberSound → step s = .next u → u.ChamberSound

/-- R183: that the profile's fields are in their ranges is kept by every step; every image that is accepted gives a
profile in its ranges. R103: so no entry reaches a step that does not fit it or runs past the store: a STRIKE, HOLD or LIFT
names an output of a TRAP window of its effect's claim group, an AWAITLINE stands in chamber scripts alone, a SETLINE names
a line of a function that its script may drive. R117, R125: tremulants and shutters have their outputs in AUX windows. -/
def Obligations.ProfileRangesAreKept : Prop :=
  (∀ image p, loadImage image = .ok p → p.InRange) ∧
    ∀ s u : State, s.ProfileSound → step s = .next u → u.ProfileSound

/-- R62, R63, R64, R70, R71, R73: the laws of the arbiter are kept by every step. R44, R45, R51: so is what links the
demand to it: in READY a PIPE output is out of OFF exactly while its demand count is above 0, PA having been asked to OPEN
it when the count rose from 0, or at the entry to READY, and to RELEASE it when the count fell to 0. -/
def Obligations.ArbiterLawsAreKept : Prop :=
  ∀ s u : State, s.QuietOutsideReady → s.ArbiterSound → step s = .next u →
    u.ArbiterSound ∧
    (s.ChamberSound → s.ProfileSound → s.SetsSound → s.EffectsSound → s.ContextsSound → s.WithinBounds →
      s.PipesAnswered → u.PipesAnswered)

/-- R170, R172, R174, R175: the laws of each chain are kept by every step. -/
def Obligations.ChainLawsAreKept : Prop :=
  ∀ s u : State, s.ChamberSound → (∀ c, s.ChainSound c) → step s = .next u → ∀ c, u.ChainSound c

/-- R20, R21, R23, R24, R30, R31, R34: the laws of the slots, the merged touch and the pizzicato list are kept by every
step. -/
def Obligations.KeyboardLawsAreKept : Prop :=
  ∀ s u : State, s.ChamberSound → s.ProfileSound → s.KeyboardSound → step s = .next u → u.KeyboardSound

/-- R41, R48: every step keeps the demand, single and reiterate counts equal to the contributions that stand, and the
reiteration sets equal to the outputs whose reiterate count is above 0. R82, R118, R119: it keeps the trigger counts and the
tremulant on-counts equal to what their sources give, and a group running exactly while its on-count is above 0 in READY.
R8, R13, R15 to R18: RE's deltas
of a merged change, a stop change and a pizzicato expiry are those of the entries whose condition changes or holds, in
ascending entry index and then ascending key; R19: those of a TUNE are the −1 on the old output and then the +1 on the new.
R43, R44, R45: a delta that takes a demand count from 0 to 1 in READY asks for OPEN at once, one that takes it from 1 to 0
for RELEASE, and any other moves the count alone. R83: a TRAP delta moves the trap part at once, and at the close EE takes
the effects that received one, in the order first met, each with its count before and whether a +1 came, and acts on its
move; withheld deltas move nothing. R46, R47: at the close of an application taken in READY each bar whose
single count received a +1, or whose reiterate count rose from 0, is struck once, at its window's strike width, in the
order in which the bars first met that; the strikes stand before or after what EE does with the effects of the same
application (R13; the order is the model's free choice, log 3). Outside READY an application moves counts alone. -/
def Obligations.DemandFollowsTheContributions : Prop :=
  (∀ s u : State, s.ChamberSound → s.ProfileSound → s.KeyboardSound → s.SetsSound → step s = .next u →
    u.SetsSound ∧ (s.DemandCounted → u.DemandCounted) ∧ (s.CallsCounted → u.CallsCounted)) ∧
  (∀ (p : Profile) (on : Table Bool) (d k : Nat) (old new : Touch) (before after : Bool),
    inEntryOrder (fun i k' x => k' = k ∧ ∃ e c up, p.entries[i]? = some e ∧ e.division = d ∧ on.get e.stop = true ∧
      (if up = true then ¬ c.met old before ∧ c.met new after else c.met old before ∧ ¬ c.met new after) ∧
      p.delivers e c k up x) (mergedDeltas p on d k old new before after)) ∧
  (∀ (p : Profile) (touch : Nat → Nat → Touch) (pizz : Nat → Nat → Bool) (n : Nat) (up : Bool),
    inEntryOrder (fun i k x => ∃ e, p.entries[i]? = some e ∧ e.stop = n ∧
      ((∃ c, k < p.keyCount e.division ∧ c.met (touch e.division k) (pizz e.division k) ∧ p.delivers e c k up x) ∨
        ∃ g, e.kind = .trem g ∧ k = 0 ∧ x = .group g up)) (stopDeltas p touch pizz n up)) ∧
  (∀ (p : Profile) (on : Table Bool) (d k : Nat),
    inEntryOrder (fun i k' x => k' = k ∧ ∃ e, p.entries[i]? = some e ∧ e.division = d ∧ on.get e.stop = true ∧
      p.delivers e .pizz k false x ∧ ∀ f, e.kind ≠ .trap f .pizz) (pizzDeltas p on d k)) ∧
  (∀ (p : Profile) (old new : Option Nat),
    let kindOf := fun o => (p.windowOf o).map (·.kind)
    (∀ o, old = some o ∨ new = some o → kindOf o = some .pipe ∨ kindOf o = some .bar) →
    ∃ window : Nat → Nat,
      let delta := fun up o => Delta.count (if kindOf o = some .bar then .single else .pipe) (window o) o up
      tuneDeltas p old new = (old.map (delta false)).toList ++ (new.map (delta true)).toList) ∧
  (∀ (ready withhold : Bool) (s : State) (log : AppLog) (w o : Nat),
    let n := s.dt.pipe.get o
    let counts := fun n => { s with dt := { s.dt with pipe := s.dt.pipe.set o n } }
    takeDelta ready withhold (s, log) (.count .pipe w o true) =
      (if ready = true ∧ n = 0 then paOpen o (counts 1) else counts (n + 1), log) ∧
    takeDelta ready withhold (s, log) (.count .pipe w o false) =
      (if ready = true ∧ n = 1 then paRelease o (counts 0) else counts (n - 1), log)) ∧
  (∀ (ready up : Bool) (s : State) (log : AppLog) (e : Nat),
    takeDelta ready true (s, log) (.effect e up) = (s, log) ∧
    (takeDelta ready false (s, log) (.effect e up)).1 = s.setTrigger e { s.trigger e with
      trap := if up = true then (s.trigger e).trap + 1 else (s.trigger e).trap - 1 }) ∧
  ∀ (withhold : Bool) (deltas : List Delta) (s : State),
    let after := fun l : List Delta =>
      (l.foldl (takeDelta (decide (s.ch.state = .ready)) withhold) (s, { bars := [], effects := [] })).1
    let met := fun (l : List Delta) (o : Nat) => ∃ before w rest,
      l = before ++ .count .single w o true :: rest ∨
        l = before ++ .count .reiterate w o true :: rest ∧ (after before).dt.reiterate.get o = 0
    let struck := fun (bars : List Nat) (v : State) =>
      bars.foldl (fun v o => paStrike o (((v.prof.windowOf o).map (·.strikeWidth)).getD 0) v) v
    let acted := fun (effects : List (Nat × Nat × Bool)) (v : State) =>
      effects.foldl (fun v x => countMoved x.1 x.2.1 x.2.2 v) v
    (s.ch.state = .ready → ∃ (bars order : List Nat) (effects : List (Nat × Nat × Bool)) (v : State), bars.Nodup ∧
      order.Nodup ∧
      (∀ some_ rest, deltas = some_ ++ rest → ∃ first, first <+: order ∧
        (∀ e, e ∈ first ↔ ∃ up, Delta.effect e up ∈ some_) ∧ (rest = [] → first = order)) ∧
      (withhold = false →
        effects = order.map fun e => (e, (s.trigger e).count, decide (Delta.effect e true ∈ deltas))) ∧
      (∀ some_ rest, deltas = some_ ++ rest → ∃ first, first <+: bars ∧ (∀ o, o ∈ first ↔ met some_ o) ∧
        (rest = [] → first = bars)) ∧
      ((withhold = true ∨ ∀ e up, Delta.effect e up ∉ deltas) → effects = []) ∧
      (v = after deltas ∨ bars ≠ [] ∧ effects ≠ [] ∧ v = { after deltas with choices := (after deltas).choices + 1 }) ∧
      (application withhold deltas s = struck bars (acted effects v) ∨
        application withhold deltas s = acted effects (struck bars v))) ∧
    (s.ch.state ≠ .ready → (∀ x ∈ deltas, ∃ kind w o up, x = .count kind w o up) →
      application withhold deltas s =
        { s with dt := { (after deltas).dt with tuning := s.dt.tuning, clocks := s.dt.clocks } }) ∧
    (s.ch.state ≠ .ready → s.QuietOutsideReady → (∀ g up, Delta.group g up ∈ deltas → g < 4) →
      application withhold deltas s = after deltas ∧
        after deltas = { s with
          dt := { (after deltas).dt with tuning := s.dt.tuning, clocks := s.dt.clocks }
          ee := { s.ee with triggers := (after deltas).ee.triggers }
          tsu := { s.tsu with trems := (after deltas).tsu.trems } })

/-- R104, R125, R128: the bounds of the contexts, the stacks and the shutter sets are kept by every step. R86, R87: so are
the laws of the claim groups: holders have runners, priorities rise up the stack to the holder and stay above the pending
effect, no effect stands twice, and one is pending without a holder only while every runner is occupied. R102, R105, R109:
so is that every context stands at a waiting step that its script's entry reaches, with its tally 0 and its timer running
on a runner and frozen in a stack, and holds outputs of its effect's claim group alone. -/
def Obligations.BoundsAreKept : Prop :=
  ∀ s u : State, s.ChamberSound → step s = .next u →
    (s.WithinBounds → u.WithinBounds) ∧
    (s.ProfileSound → s.QuietOutsideReady → s.EffectsSound →
      u.EffectsSound ∧ (s.WithinBounds → s.ContextsSound → u.ContextsSound))

/-- R157 to R160, R166, R167: the laws of the transmit queue and of the peer table are kept by every step. -/
def Obligations.RelayLawsAreKept : Prop :=
  ∀ s u : State, s.RelaySound → step s = .next u → u.RelaySound

/-- The canonical form of every table is kept by every step, so that equal contents stay equal data (the model's own
form of the tables). -/
def Obligations.TablesStayCanonical : Prop :=
  ∀ s u : State, s.Canonical → step s = .next u → u.Canonical
end

