-- ==== Sys2Proof/Laws/Chains.lean ====
section
/-! SUPPORT. The order of the bits on a driver chain (R171): what each position sends and what each position returned. -/

namespace Sys2Proof.Machine

@[simp] theorem serialBits_length (n : Nat) (pattern : List Nat) : (serialBits n pattern).length = n := by
  simp [serialBits]

/-- The bit of position `j` is the one `n - 1 - j` from the first. -/
theorem serialBits_get {n j : Nat} (pattern : List Nat) (h : j < n) :
    (serialBits n pattern)[n - 1 - j]? = some (decide (j ∈ pattern)) := by
  have back : n - 1 - (n - 1 - j) = j := by omega
  have given : (List.range n).reverse[n - 1 - j]? = some j := by
    rw [List.getElem?_reverse (by simp; omega), List.length_range, back, List.getElem?_range h]
  rw [serialBits, List.getElem?_map, given]
  simp [List.contains_eq_mem]

/-- A position reads on exactly when its bit was given and was high. -/
theorem mem_returnedPositions {n j : Nat} {bits : List Bool} :
    j ∈ returnedPositions n bits ↔ j < n ∧ bits[n - 1 - j]? = some true := by
  simp only [returnedPositions, List.mem_filter, List.mem_range, List.getD_eq_getElem?_getD]
  cases bits[n - 1 - j]? <;> simp

/-- A chain that returns what was sent returns the pattern's positions. -/
theorem mem_returnedPositions_serialBits {n j : Nat} {pattern : List Nat} :
    j ∈ returnedPositions n (serialBits n pattern) ↔ j < n ∧ j ∈ pattern := by
  rw [mem_returnedPositions]
  refine and_congr_right fun h => ?_
  rw [serialBits_get pattern h]
  simp

end Sys2Proof.Machine
end

