-- ==== Sys2Proof/Laws/Line.lean ====
section
/-! SUPPORT. What the reader of a frame's levels does with one byte of the line: it takes a byte that is well formed, stops
at one whose stop bit is dominant, and stops at a gap. -/

namespace Sys2Proof.Machine

@[simp] theorem byteLevels_length (b : Byte) : (byteLevels b).length = 10 := by simp [byteLevels]

@[simp] theorem lineLevels_nil : lineLevels [] = [] := rfl

@[simp] theorem lineLevels_cons (b : Byte) (bytes : List Byte) :
    lineLevels (b :: bytes) = byteLevels b ++ lineLevels bytes := rfl

@[simp] theorem lineLevels_append (bytes more : List Byte) :
    lineLevels (bytes ++ more) = lineLevels bytes ++ lineLevels more := by simp [lineLevels]

@[simp] theorem afterStart_start (rest : Nat) (levels : List Bool) : afterStart rest (false :: levels) = some levels := rfl

/-- The data bits of a byte are read as the byte, whatever follows them. -/
theorem dataOf_byteLevels (b : Byte) (levels : List Bool) : dataOf ((byteLevels b).tail ++ levels) = b := by
  have bits : (List.range 8).map (fun i => ((byteLevels b).tail ++ levels).getD (7 - i) true) =
      [b.getLsbD 0, b.getLsbD 1, b.getLsbD 2, b.getLsbD 3, b.getLsbD 4, b.getLsbD 5, b.getLsbD 6, b.getLsbD 7] := rfl
  rw [dataOf, bits]
  clear bits levels
  revert b
  decide +kernel

/-- The line has been recessive for at most 9 bit times at the end of a byte, less than a gap. -/
theorem restAfter_le (b : Byte) : restAfter b ≤ 9 := by revert b; decide +kernel

/-- Twelve recessive bit times are a gap. -/
theorem afterStart_gap (rest : Nat) (levels : List Bool) : afterStart rest (List.replicate 12 true ++ levels) = none := by
  have go : ∀ n rest, 11 < rest + n → 0 < n → afterStart rest (List.replicate n true ++ levels) = none := by
    intro n
    induction n with
    | zero => intro rest _ h; exact absurd h (Nat.lt_irrefl 0)
    | succ n ih =>
      intro rest h _
      simp only [List.replicate_succ, List.cons_append, afterStart]
      split
      · exact ih (rest + 1) (by omega) (by omega)
      · rfl
  exact go 12 rest (by omega) (by omega)

/-- A byte whose stop bit is recessive is taken, and the reader goes on. -/
theorem readOn_byte (n : Nat) (got : List Byte) (rest : Nat) (b : Byte) (levels : List Bool)
    (more : frameComplete got = false) :
    readOn (n + 1) got rest (byteLevels b ++ levels) = readOn n (got ++ [b]) (restAfter b) levels := by
  have start : byteLevels b ++ levels = false :: ((byteLevels b).tail ++ levels) := rfl
  have stop : ((byteLevels b).tail ++ levels).getD 8 true = true := rfl
  have left : ((byteLevels b).tail ++ levels).drop 9 = levels := rfl
  simp only [readOn, more, start, afterStart_start, dataOf_byteLevels, stop, left, Bool.false_eq_true, if_false, if_true]

/-- A byte whose stop bit is dominant is taken, and ends the frame with a framing fault. -/
theorem readOn_broken (n : Nat) (got : List Byte) (rest : Nat) (b : Byte) (levels : List Bool)
    (more : frameComplete got = false) :
    readOn (n + 1) got rest ((byteLevels b).set 9 false ++ levels) = (got ++ [b], true) := by
  have start : (byteLevels b).set 9 false ++ levels = false :: ((((byteLevels b).tail).take 8 ++ [false]) ++ levels) := rfl
  have data : dataOf ((((byteLevels b).tail).take 8 ++ [false]) ++ levels) = dataOf ((byteLevels b).tail ++ levels) := rfl
  have stop : ((((byteLevels b).tail).take 8 ++ [false]) ++ levels).getD 8 true = false := rfl
  simp only [readOn, more, start, afterStart_start, data, dataOf_byteLevels, stop, Bool.false_eq_true, if_false]

/-- A gap before the frame is complete ends it with a framing fault. -/
theorem readOn_gap (n : Nat) (got : List Byte) (rest : Nat) (levels : List Bool) (more : frameComplete got = false) :
    readOn (n + 1) got rest (List.replicate 12 true ++ levels) = (got, true) := by
  simp only [readOn, more, afterStart_gap, Bool.false_eq_true, if_false]

/-- A complete frame is read no further. -/
theorem readOn_complete (n : Nat) (got : List Byte) (rest : Nat) (levels : List Bool) (whole : frameComplete got = true) :
    readOn (n + 1) got rest levels = (got, false) := by
  simp only [readOn, whole, if_true]

end Sys2Proof.Machine
end

