-- ==== Sys2Proof/Laws/Table.lean ====
section
/-! SUPPORT. The laws of the sparse tables: what is read after a write, and that a write keeps the canonical form. -/

namespace Sys2Proof.Machine

variable {α : Type}

theorem lookupIn_putIn_self [Inhabited α] (k : Nat) (v : α) (l : List (Nat × α)) (h : ∀ e ∈ l, e.1 ≠ k) :
    lookupIn (putIn k v l) k = v := by
  induction l with
  | nil => simp [putIn, lookupIn]
  | cons e rest ih =>
    obtain ⟨k', v'⟩ := e
    have hk : k' ≠ k := h (k', v') (by simp)
    unfold putIn
    split
    · simp [lookupIn]
    · simp [lookupIn, hk, ih fun e he => h e (by simp [he])]

theorem lookupIn_putIn_ne [Inhabited α] {k j : Nat} (hj : j ≠ k) (v : α) (l : List (Nat × α)) :
    lookupIn (putIn k v l) j = lookupIn l j := by
  induction l with
  | nil => simp [putIn, lookupIn, hj.symm]
  | cons e rest ih =>
    obtain ⟨k', v'⟩ := e
    unfold putIn
    split
    · simp [lookupIn, hj.symm]
    · simp [lookupIn, ih]

theorem lookupIn_eraseIn_self [Inhabited α] (k : Nat) (l : List (Nat × α)) :
    lookupIn (eraseIn k l) k = default := by
  induction l with
  | nil => rfl
  | cons e rest ih =>
    obtain ⟨k', v'⟩ := e
    unfold eraseIn at ih ⊢
    by_cases hk : k' = k
    · simp [hk, ih]
    · simp [lookupIn, hk, ih]

theorem lookupIn_eraseIn_ne [Inhabited α] {k j : Nat} (hj : j ≠ k) (l : List (Nat × α)) :
    lookupIn (eraseIn k l) j = lookupIn l j := by
  induction l with
  | nil => rfl
  | cons e rest ih =>
    obtain ⟨k', v'⟩ := e
    unfold eraseIn at ih ⊢
    by_cases hk : k' = k
    · simp [lookupIn, hk, hj.symm, ih]
    · simp [lookupIn, hk, ih]

theorem eraseIn_ne (k : Nat) (l : List (Nat × α)) : ∀ e ∈ eraseIn k l, e.1 ≠ k := by
  intro e he
  simpa [eraseIn] using (List.mem_filter.1 he).2

@[simp] theorem Table.get_empty [Inhabited α] (k : Nat) : (Table.empty : Table α).get k = default := rfl

/-- Reading back what was written. -/
@[simp] theorem Table.get_set_self [Inhabited α] [DecidableEq α] (m : Table α) (k : Nat) (v : α) :
    (m.set k v).get k = v := by
  unfold Table.set Table.get
  split
  · next h => simp [lookupIn_eraseIn_self, h]
  · exact lookupIn_putIn_self _ _ _ (eraseIn_ne _ _)

/-- A write leaves every other key alone. -/
theorem Table.get_set_ne [Inhabited α] [DecidableEq α] (m : Table α) {k j : Nat} (hj : j ≠ k) (v : α) :
    (m.set k v).get j = m.get j := by
  unfold Table.set Table.get
  split
  · exact lookupIn_eraseIn_ne hj _
  · simp [lookupIn_putIn_ne hj, lookupIn_eraseIn_ne hj]

theorem Table.get_set [Inhabited α] [DecidableEq α] (m : Table α) (k j : Nat) (v : α) :
    (m.set k v).get j = if j = k then v else m.get j := by
  split
  · next h => simp [h]
  · next h => exact m.get_set_ne h v

theorem mem_putIn {k : Nat} {v : α} {l : List (Nat × α)} {e : Nat × α} :
    e ∈ putIn k v l ↔ e = (k, v) ∨ e ∈ l := by
  induction l with
  | nil => simp [putIn]
  | cons x rest ih =>
    unfold putIn
    split
    · simp
    · simp [ih]; tauto

theorem putIn_rising {k : Nat} {v : α} {l : List (Nat × α)} (h : l.Pairwise (fun a b => a.1 < b.1))
    (hk : ∀ e ∈ l, e.1 ≠ k) : (putIn k v l).Pairwise (fun a b => a.1 < b.1) := by
  induction l with
  | nil => simp [putIn]
  | cons x rest ih =>
    obtain ⟨k', v'⟩ := x
    obtain ⟨hx, hrest⟩ := List.pairwise_cons.1 h
    unfold putIn
    split
    · next hlt =>
      refine List.pairwise_cons.2 ⟨?_, h⟩
      intro e he
      rcases List.mem_cons.1 he with rfl | he
      · exact hlt
      · exact hlt.trans (hx e he)
    · next hge =>
      refine List.pairwise_cons.2 ⟨?_, ih hrest fun e he => hk e (by simp [he])⟩
      intro e he
      rcases mem_putIn.1 he with rfl | he
      · have := hk (k', v') (by simp)
        simp at this hge ⊢
        omega
      · exact hx e he

/-- Every write keeps the canonical form. -/
theorem Table.wf_set [Inhabited α] [DecidableEq α] {m : Table α} (h : m.wf) (k : Nat) (v : α) : (m.set k v).wf := by
  obtain ⟨hp, hd⟩ := h
  have he : (eraseIn k m.entries).Pairwise (fun a b => a.1 < b.1) := hp.filter _
  have hd' : ∀ e ∈ eraseIn k m.entries, e.2 ≠ default := fun e h => hd e (List.mem_filter.1 h).1
  unfold Table.set
  split
  · exact ⟨he, hd'⟩
  · next hv =>
    refine ⟨putIn_rising he (eraseIn_ne k _), ?_⟩
    intro e h
    rcases mem_putIn.1 h with rfl | h
    · exact hv
    · exact hd' e h

theorem Table.wf_empty [Inhabited α] : (Table.empty : Table α).wf := by simp [Table.wf, Table.empty]

theorem lookupIn_eq_of_mem [Inhabited α] {l : List (Nat × α)} (h : l.Pairwise (fun a b => a.1 < b.1))
    {e : Nat × α} (he : e ∈ l) : lookupIn l e.1 = e.2 := by
  induction l with
  | nil => simp at he
  | cons x rest ih =>
    obtain ⟨k', v'⟩ := x
    obtain ⟨hx, hrest⟩ := List.pairwise_cons.1 h
    rcases List.mem_cons.1 he with rfl | he
    · simp [lookupIn]
    · have := hx e he
      simp [lookupIn, (ne_of_lt this), ih hrest he]

/-- In canonical form an entry is what its key reads as. -/
theorem Table.get_of_mem [Inhabited α] {m : Table α} (h : m.wf) {e : Nat × α} (he : e ∈ m.entries) :
    m.get e.1 = e.2 := lookupIn_eq_of_mem h.1 he

end Sys2Proof.Machine
end

