-- ==== Sys2Proof/Laws/State.lean ====
section
/-! SUPPORT. One lemma per field per update of the state (true by unfolding the record), and what the readers of a
table read after a write. -/

namespace Sys2Proof.Machine

@[simp] theorem State.arrive_profile (t : Nat) (s : State) : (s.arrive t).profile = s.profile := rfl
@[simp] theorem State.arrive_km (t : Nat) (s : State) : (s.arrive t).km = s.km := rfl
@[simp] theorem State.arrive_dt (t : Nat) (s : State) : (s.arrive t).dt = s.dt := rfl
@[simp] theorem State.arrive_pa (t : Nat) (s : State) : (s.arrive t).pa = s.pa := rfl
@[simp] theorem State.arrive_cc (t : Nat) (s : State) : (s.arrive t).cc = s.cc := rfl
@[simp] theorem State.arrive_li (t : Nat) (s : State) : (s.arrive t).li = s.li := rfl
@[simp] theorem State.arrive_pt (t : Nat) (s : State) : (s.arrive t).pt = s.pt := rfl
@[simp] theorem State.arrive_ee (t : Nat) (s : State) : (s.arrive t).ee = s.ee := rfl
@[simp] theorem State.arrive_tsu (t : Nat) (s : State) : (s.arrive t).tsu = s.tsu := rfl
@[simp] theorem State.arrive_ch (t : Nat) (s : State) : (s.arrive t).ch = s.ch := rfl
@[simp] theorem State.arrive_ll (t : Nat) (s : State) : (s.arrive t).ll = s.ll := rfl
@[simp] theorem State.arrive_pf (t : Nat) (s : State) : (s.arrive t).pf = s.pf := rfl
@[simp] theorem State.arrive_choices (t : Nat) (s : State) : (s.arrive t).choices = s.choices := rfl
@[simp] theorem State.arrive_pending (t : Nat) (s : State) : (s.arrive t).pending = s.pending := rfl

@[simp] theorem State.setOut_now (o : Nat) (v : OutState) (s : State) : (s.setOut o v).now = s.now := rfl
@[simp] theorem State.setOut_profile (o : Nat) (v : OutState) (s : State) : (s.setOut o v).profile = s.profile := rfl
@[simp] theorem State.setOut_km (o : Nat) (v : OutState) (s : State) : (s.setOut o v).km = s.km := rfl
@[simp] theorem State.setOut_dt (o : Nat) (v : OutState) (s : State) : (s.setOut o v).dt = s.dt := rfl
@[simp] theorem State.setOut_cc (o : Nat) (v : OutState) (s : State) : (s.setOut o v).cc = s.cc := rfl
@[simp] theorem State.setOut_li (o : Nat) (v : OutState) (s : State) : (s.setOut o v).li = s.li := rfl
@[simp] theorem State.setOut_pt (o : Nat) (v : OutState) (s : State) : (s.setOut o v).pt = s.pt := rfl
@[simp] theorem State.setOut_ee (o : Nat) (v : OutState) (s : State) : (s.setOut o v).ee = s.ee := rfl
@[simp] theorem State.setOut_tsu (o : Nat) (v : OutState) (s : State) : (s.setOut o v).tsu = s.tsu := rfl
@[simp] theorem State.setOut_ch (o : Nat) (v : OutState) (s : State) : (s.setOut o v).ch = s.ch := rfl
@[simp] theorem State.setOut_ll (o : Nat) (v : OutState) (s : State) : (s.setOut o v).ll = s.ll := rfl
@[simp] theorem State.setOut_pf (o : Nat) (v : OutState) (s : State) : (s.setOut o v).pf = s.pf := rfl
@[simp] theorem State.setOut_choices (o : Nat) (v : OutState) (s : State) : (s.setOut o v).choices = s.choices := rfl
@[simp] theorem State.setOut_pending (o : Nat) (v : OutState) (s : State) : (s.setOut o v).pending = s.pending := rfl

@[simp] theorem State.setChain_now (c : Nat) (v : Chain) (s : State) : (s.setChain c v).now = s.now := rfl
@[simp] theorem State.setChain_profile (c : Nat) (v : Chain) (s : State) : (s.setChain c v).profile = s.profile := rfl
@[simp] theorem State.setChain_km (c : Nat) (v : Chain) (s : State) : (s.setChain c v).km = s.km := rfl
@[simp] theorem State.setChain_dt (c : Nat) (v : Chain) (s : State) : (s.setChain c v).dt = s.dt := rfl
@[simp] theorem State.setChain_pa (c : Nat) (v : Chain) (s : State) : (s.setChain c v).pa = s.pa := rfl
@[simp] theorem State.setChain_li (c : Nat) (v : Chain) (s : State) : (s.setChain c v).li = s.li := rfl
@[simp] theorem State.setChain_pt (c : Nat) (v : Chain) (s : State) : (s.setChain c v).pt = s.pt := rfl
@[simp] theorem State.setChain_ee (c : Nat) (v : Chain) (s : State) : (s.setChain c v).ee = s.ee := rfl
@[simp] theorem State.setChain_tsu (c : Nat) (v : Chain) (s : State) : (s.setChain c v).tsu = s.tsu := rfl
@[simp] theorem State.setChain_ch (c : Nat) (v : Chain) (s : State) : (s.setChain c v).ch = s.ch := rfl
@[simp] theorem State.setChain_ll (c : Nat) (v : Chain) (s : State) : (s.setChain c v).ll = s.ll := rfl
@[simp] theorem State.setChain_pf (c : Nat) (v : Chain) (s : State) : (s.setChain c v).pf = s.pf := rfl
@[simp] theorem State.setChain_choices (c : Nat) (v : Chain) (s : State) : (s.setChain c v).choices = s.choices := rfl
@[simp] theorem State.setChain_pending (c : Nat) (v : Chain) (s : State) : (s.setChain c v).pending = s.pending := rfl

@[simp] theorem State.setPeer_now (a : Station) (v : Peer) (s : State) : (s.setPeer a v).now = s.now := rfl
@[simp] theorem State.setPeer_profile (a : Station) (v : Peer) (s : State) : (s.setPeer a v).profile = s.profile := rfl
@[simp] theorem State.setPeer_km (a : Station) (v : Peer) (s : State) : (s.setPeer a v).km = s.km := rfl
@[simp] theorem State.setPeer_dt (a : Station) (v : Peer) (s : State) : (s.setPeer a v).dt = s.dt := rfl
@[simp] theorem State.setPeer_pa (a : Station) (v : Peer) (s : State) : (s.setPeer a v).pa = s.pa := rfl
@[simp] theorem State.setPeer_cc (a : Station) (v : Peer) (s : State) : (s.setPeer a v).cc = s.cc := rfl
@[simp] theorem State.setPeer_li (a : Station) (v : Peer) (s : State) : (s.setPeer a v).li = s.li := rfl
@[simp] theorem State.setPeer_ee (a : Station) (v : Peer) (s : State) : (s.setPeer a v).ee = s.ee := rfl
@[simp] theorem State.setPeer_tsu (a : Station) (v : Peer) (s : State) : (s.setPeer a v).tsu = s.tsu := rfl
@[simp] theorem State.setPeer_ch (a : Station) (v : Peer) (s : State) : (s.setPeer a v).ch = s.ch := rfl
@[simp] theorem State.setPeer_ll (a : Station) (v : Peer) (s : State) : (s.setPeer a v).ll = s.ll := rfl
@[simp] theorem State.setPeer_pf (a : Station) (v : Peer) (s : State) : (s.setPeer a v).pf = s.pf := rfl
@[simp] theorem State.setPeer_choices (a : Station) (v : Peer) (s : State) : (s.setPeer a v).choices = s.choices := rfl
@[simp] theorem State.setPeer_pending (a : Station) (v : Peer) (s : State) : (s.setPeer a v).pending = s.pending := rfl

@[simp] theorem State.setLine_now (l : Nat) (v : Line) (s : State) : (s.setLine l v).now = s.now := rfl
@[simp] theorem State.setLine_profile (l : Nat) (v : Line) (s : State) : (s.setLine l v).profile = s.profile := rfl
@[simp] theorem State.setLine_km (l : Nat) (v : Line) (s : State) : (s.setLine l v).km = s.km := rfl
@[simp] theorem State.setLine_dt (l : Nat) (v : Line) (s : State) : (s.setLine l v).dt = s.dt := rfl
@[simp] theorem State.setLine_pa (l : Nat) (v : Line) (s : State) : (s.setLine l v).pa = s.pa := rfl
@[simp] theorem State.setLine_cc (l : Nat) (v : Line) (s : State) : (s.setLine l v).cc = s.cc := rfl
@[simp] theorem State.setLine_li (l : Nat) (v : Line) (s : State) : (s.setLine l v).li = s.li := rfl
@[simp] theorem State.setLine_pt (l : Nat) (v : Line) (s : State) : (s.setLine l v).pt = s.pt := rfl
@[simp] theorem State.setLine_ee (l : Nat) (v : Line) (s : State) : (s.setLine l v).ee = s.ee := rfl
@[simp] theorem State.setLine_tsu (l : Nat) (v : Line) (s : State) : (s.setLine l v).tsu = s.tsu := rfl
@[simp] theorem State.setLine_ch (l : Nat) (v : Line) (s : State) : (s.setLine l v).ch = s.ch := rfl
@[simp] theorem State.setLine_pf (l : Nat) (v : Line) (s : State) : (s.setLine l v).pf = s.pf := rfl
@[simp] theorem State.setLine_choices (l : Nat) (v : Line) (s : State) : (s.setLine l v).choices = s.choices := rfl
@[simp] theorem State.setLine_pending (l : Nat) (v : Line) (s : State) : (s.setLine l v).pending = s.pending := rfl

@[simp] theorem State.setTrem_now (g : Nat) (v : Trem) (s : State) : (s.setTrem g v).now = s.now := rfl
@[simp] theorem State.setTrem_profile (g : Nat) (v : Trem) (s : State) : (s.setTrem g v).profile = s.profile := rfl
@[simp] theorem State.setTrem_km (g : Nat) (v : Trem) (s : State) : (s.setTrem g v).km = s.km := rfl
@[simp] theorem State.setTrem_dt (g : Nat) (v : Trem) (s : State) : (s.setTrem g v).dt = s.dt := rfl
@[simp] theorem State.setTrem_pa (g : Nat) (v : Trem) (s : State) : (s.setTrem g v).pa = s.pa := rfl
@[simp] theorem State.setTrem_cc (g : Nat) (v : Trem) (s : State) : (s.setTrem g v).cc = s.cc := rfl
@[simp] theorem State.setTrem_li (g : Nat) (v : Trem) (s : State) : (s.setTrem g v).li = s.li := rfl
@[simp] theorem State.setTrem_pt (g : Nat) (v : Trem) (s : State) : (s.setTrem g v).pt = s.pt := rfl
@[simp] theorem State.setTrem_ee (g : Nat) (v : Trem) (s : State) : (s.setTrem g v).ee = s.ee := rfl
@[simp] theorem State.setTrem_ch (g : Nat) (v : Trem) (s : State) : (s.setTrem g v).ch = s.ch := rfl
@[simp] theorem State.setTrem_ll (g : Nat) (v : Trem) (s : State) : (s.setTrem g v).ll = s.ll := rfl
@[simp] theorem State.setTrem_pf (g : Nat) (v : Trem) (s : State) : (s.setTrem g v).pf = s.pf := rfl
@[simp] theorem State.setTrem_choices (g : Nat) (v : Trem) (s : State) : (s.setTrem g v).choices = s.choices := rfl
@[simp] theorem State.setTrem_pending (g : Nat) (v : Trem) (s : State) : (s.setTrem g v).pending = s.pending := rfl

@[simp] theorem State.setShutter_now (x : Nat) (v : Shutter) (s : State) : (s.setShutter x v).now = s.now := rfl
@[simp] theorem State.setShutter_profile (x : Nat) (v : Shutter) (s : State) : (s.setShutter x v).profile = s.profile := rfl
@[simp] theorem State.setShutter_km (x : Nat) (v : Shutter) (s : State) : (s.setShutter x v).km = s.km := rfl
@[simp] theorem State.setShutter_dt (x : Nat) (v : Shutter) (s : State) : (s.setShutter x v).dt = s.dt := rfl
@[simp] theorem State.setShutter_pa (x : Nat) (v : Shutter) (s : State) : (s.setShutter x v).pa = s.pa := rfl
@[simp] theorem State.setShutter_cc (x : Nat) (v : Shutter) (s : State) : (s.setShutter x v).cc = s.cc := rfl
@[simp] theorem State.setShutter_li (x : Nat) (v : Shutter) (s : State) : (s.setShutter x v).li = s.li := rfl
@[simp] theorem State.setShutter_pt (x : Nat) (v : Shutter) (s : State) : (s.setShutter x v).pt = s.pt := rfl
@[simp] theorem State.setShutter_ee (x : Nat) (v : Shutter) (s : State) : (s.setShutter x v).ee = s.ee := rfl
@[simp] theorem State.setShutter_ch (x : Nat) (v : Shutter) (s : State) : (s.setShutter x v).ch = s.ch := rfl
@[simp] theorem State.setShutter_ll (x : Nat) (v : Shutter) (s : State) : (s.setShutter x v).ll = s.ll := rfl
@[simp] theorem State.setShutter_pf (x : Nat) (v : Shutter) (s : State) : (s.setShutter x v).pf = s.pf := rfl
@[simp] theorem State.setShutter_choices (x : Nat) (v : Shutter) (s : State) : (s.setShutter x v).choices = s.choices := rfl
@[simp] theorem State.setShutter_pending (x : Nat) (v : Shutter) (s : State) : (s.setShutter x v).pending = s.pending := rfl

@[simp] theorem State.setTrigger_now (e : Nat) (v : Trigger) (s : State) : (s.setTrigger e v).now = s.now := rfl
@[simp] theorem State.setTrigger_profile (e : Nat) (v : Trigger) (s : State) : (s.setTrigger e v).profile = s.profile := rfl
@[simp] theorem State.setTrigger_km (e : Nat) (v : Trigger) (s : State) : (s.setTrigger e v).km = s.km := rfl
@[simp] theorem State.setTrigger_dt (e : Nat) (v : Trigger) (s : State) : (s.setTrigger e v).dt = s.dt := rfl
@[simp] theorem State.setTrigger_pa (e : Nat) (v : Trigger) (s : State) : (s.setTrigger e v).pa = s.pa := rfl
@[simp] theorem State.setTrigger_cc (e : Nat) (v : Trigger) (s : State) : (s.setTrigger e v).cc = s.cc := rfl
@[simp] theorem State.setTrigger_li (e : Nat) (v : Trigger) (s : State) : (s.setTrigger e v).li = s.li := rfl
@[simp] theorem State.setTrigger_pt (e : Nat) (v : Trigger) (s : State) : (s.setTrigger e v).pt = s.pt := rfl
@[simp] theorem State.setTrigger_tsu (e : Nat) (v : Trigger) (s : State) : (s.setTrigger e v).tsu = s.tsu := rfl
@[simp] theorem State.setTrigger_ch (e : Nat) (v : Trigger) (s : State) : (s.setTrigger e v).ch = s.ch := rfl
@[simp] theorem State.setTrigger_ll (e : Nat) (v : Trigger) (s : State) : (s.setTrigger e v).ll = s.ll := rfl
@[simp] theorem State.setTrigger_pf (e : Nat) (v : Trigger) (s : State) : (s.setTrigger e v).pf = s.pf := rfl
@[simp] theorem State.setTrigger_choices (e : Nat) (v : Trigger) (s : State) : (s.setTrigger e v).choices = s.choices := rfl
@[simp] theorem State.setTrigger_pending (e : Nat) (v : Trigger) (s : State) : (s.setTrigger e v).pending = s.pending := rfl

@[simp] theorem State.setGroup_now (g : Nat) (v : Group) (s : State) : (s.setGroup g v).now = s.now := rfl
@[simp] theorem State.setGroup_profile (g : Nat) (v : Group) (s : State) : (s.setGroup g v).profile = s.profile := rfl
@[simp] theorem State.setGroup_km (g : Nat) (v : Group) (s : State) : (s.setGroup g v).km = s.km := rfl
@[simp] theorem State.setGroup_dt (g : Nat) (v : Group) (s : State) : (s.setGroup g v).dt = s.dt := rfl
@[simp] theorem State.setGroup_pa (g : Nat) (v : Group) (s : State) : (s.setGroup g v).pa = s.pa := rfl
@[simp] theorem State.setGroup_cc (g : Nat) (v : Group) (s : State) : (s.setGroup g v).cc = s.cc := rfl
@[simp] theorem State.setGroup_li (g : Nat) (v : Group) (s : State) : (s.setGroup g v).li = s.li := rfl
@[simp] theorem State.setGroup_pt (g : Nat) (v : Group) (s : State) : (s.setGroup g v).pt = s.pt := rfl
@[simp] theorem State.setGroup_tsu (g : Nat) (v : Group) (s : State) : (s.setGroup g v).tsu = s.tsu := rfl
@[simp] theorem State.setGroup_ch (g : Nat) (v : Group) (s : State) : (s.setGroup g v).ch = s.ch := rfl
@[simp] theorem State.setGroup_ll (g : Nat) (v : Group) (s : State) : (s.setGroup g v).ll = s.ll := rfl
@[simp] theorem State.setGroup_pf (g : Nat) (v : Group) (s : State) : (s.setGroup g v).pf = s.pf := rfl
@[simp] theorem State.setGroup_choices (g : Nat) (v : Group) (s : State) : (s.setGroup g v).choices = s.choices := rfl
@[simp] theorem State.setGroup_pending (g : Nat) (v : Group) (s : State) : (s.setGroup g v).pending = s.pending := rfl

@[simp] theorem State.setRunner_now (r : Nat) (v : Option Context) (s : State) : (s.setRunner r v).now = s.now := rfl
@[simp] theorem State.setRunner_profile (r : Nat) (v : Option Context) (s : State) : (s.setRunner r v).profile = s.profile := rfl
@[simp] theorem State.setRunner_km (r : Nat) (v : Option Context) (s : State) : (s.setRunner r v).km = s.km := rfl
@[simp] theorem State.setRunner_dt (r : Nat) (v : Option Context) (s : State) : (s.setRunner r v).dt = s.dt := rfl
@[simp] theorem State.setRunner_pa (r : Nat) (v : Option Context) (s : State) : (s.setRunner r v).pa = s.pa := rfl
@[simp] theorem State.setRunner_cc (r : Nat) (v : Option Context) (s : State) : (s.setRunner r v).cc = s.cc := rfl
@[simp] theorem State.setRunner_li (r : Nat) (v : Option Context) (s : State) : (s.setRunner r v).li = s.li := rfl
@[simp] theorem State.setRunner_pt (r : Nat) (v : Option Context) (s : State) : (s.setRunner r v).pt = s.pt := rfl
@[simp] theorem State.setRunner_tsu (r : Nat) (v : Option Context) (s : State) : (s.setRunner r v).tsu = s.tsu := rfl
@[simp] theorem State.setRunner_ch (r : Nat) (v : Option Context) (s : State) : (s.setRunner r v).ch = s.ch := rfl
@[simp] theorem State.setRunner_ll (r : Nat) (v : Option Context) (s : State) : (s.setRunner r v).ll = s.ll := rfl
@[simp] theorem State.setRunner_pf (r : Nat) (v : Option Context) (s : State) : (s.setRunner r v).pf = s.pf := rfl
@[simp] theorem State.setRunner_choices (r : Nat) (v : Option Context) (s : State) : (s.setRunner r v).choices = s.choices := rfl
@[simp] theorem State.setRunner_pending (r : Nat) (v : Option Context) (s : State) : (s.setRunner r v).pending = s.pending := rfl

@[simp] theorem State.withChamber_now (st : ChamberState) (s : State) : (s.withChamber st).now = s.now := rfl
@[simp] theorem State.withChamber_profile (st : ChamberState) (s : State) : (s.withChamber st).profile = s.profile := rfl
@[simp] theorem State.withChamber_km (st : ChamberState) (s : State) : (s.withChamber st).km = s.km := rfl
@[simp] theorem State.withChamber_dt (st : ChamberState) (s : State) : (s.withChamber st).dt = s.dt := rfl
@[simp] theorem State.withChamber_pa (st : ChamberState) (s : State) : (s.withChamber st).pa = s.pa := rfl
@[simp] theorem State.withChamber_cc (st : ChamberState) (s : State) : (s.withChamber st).cc = s.cc := rfl
@[simp] theorem State.withChamber_li (st : ChamberState) (s : State) : (s.withChamber st).li = s.li := rfl
@[simp] theorem State.withChamber_pt (st : ChamberState) (s : State) : (s.withChamber st).pt = s.pt := rfl
@[simp] theorem State.withChamber_ee (st : ChamberState) (s : State) : (s.withChamber st).ee = s.ee := rfl
@[simp] theorem State.withChamber_tsu (st : ChamberState) (s : State) : (s.withChamber st).tsu = s.tsu := rfl
@[simp] theorem State.withChamber_ll (st : ChamberState) (s : State) : (s.withChamber st).ll = s.ll := rfl
@[simp] theorem State.withChamber_pf (st : ChamberState) (s : State) : (s.withChamber st).pf = s.pf := rfl
@[simp] theorem State.withChamber_choices (st : ChamberState) (s : State) : (s.withChamber st).choices = s.choices := rfl
@[simp] theorem State.withChamber_pending (st : ChamberState) (s : State) : (s.withChamber st).pending = s.pending := rfl

@[simp] theorem State.setSlot_now (c : Nat) (v : Slot) (s : State) : (s.setSlot c v).now = s.now := rfl
@[simp] theorem State.setSlot_profile (c : Nat) (v : Slot) (s : State) : (s.setSlot c v).profile = s.profile := rfl
@[simp] theorem State.setSlot_dt (c : Nat) (v : Slot) (s : State) : (s.setSlot c v).dt = s.dt := rfl
@[simp] theorem State.setSlot_pa (c : Nat) (v : Slot) (s : State) : (s.setSlot c v).pa = s.pa := rfl
@[simp] theorem State.setSlot_cc (c : Nat) (v : Slot) (s : State) : (s.setSlot c v).cc = s.cc := rfl
@[simp] theorem State.setSlot_li (c : Nat) (v : Slot) (s : State) : (s.setSlot c v).li = s.li := rfl
@[simp] theorem State.setSlot_pt (c : Nat) (v : Slot) (s : State) : (s.setSlot c v).pt = s.pt := rfl
@[simp] theorem State.setSlot_ee (c : Nat) (v : Slot) (s : State) : (s.setSlot c v).ee = s.ee := rfl
@[simp] theorem State.setSlot_tsu (c : Nat) (v : Slot) (s : State) : (s.setSlot c v).tsu = s.tsu := rfl
@[simp] theorem State.setSlot_ch (c : Nat) (v : Slot) (s : State) : (s.setSlot c v).ch = s.ch := rfl
@[simp] theorem State.setSlot_ll (c : Nat) (v : Slot) (s : State) : (s.setSlot c v).ll = s.ll := rfl
@[simp] theorem State.setSlot_pf (c : Nat) (v : Slot) (s : State) : (s.setSlot c v).pf = s.pf := rfl
@[simp] theorem State.setSlot_choices (c : Nat) (v : Slot) (s : State) : (s.setSlot c v).choices = s.choices := rfl
@[simp] theorem State.setSlot_pending (c : Nat) (v : Slot) (s : State) : (s.setSlot c v).pending = s.pending := rfl

@[simp] theorem State.setSlotTouch_now (c d k : Nat) (v : Touch) (s : State) : (s.setSlotTouch c d k v).now = s.now := rfl
@[simp] theorem State.setSlotTouch_profile (c d k : Nat) (v : Touch) (s : State) : (s.setSlotTouch c d k v).profile = s.profile := rfl
@[simp] theorem State.setSlotTouch_dt (c d k : Nat) (v : Touch) (s : State) : (s.setSlotTouch c d k v).dt = s.dt := rfl
@[simp] theorem State.setSlotTouch_pa (c d k : Nat) (v : Touch) (s : State) : (s.setSlotTouch c d k v).pa = s.pa := rfl
@[simp] theorem State.setSlotTouch_cc (c d k : Nat) (v : Touch) (s : State) : (s.setSlotTouch c d k v).cc = s.cc := rfl
@[simp] theorem State.setSlotTouch_li (c d k : Nat) (v : Touch) (s : State) : (s.setSlotTouch c d k v).li = s.li := rfl
@[simp] theorem State.setSlotTouch_pt (c d k : Nat) (v : Touch) (s : State) : (s.setSlotTouch c d k v).pt = s.pt := rfl
@[simp] theorem State.setSlotTouch_ee (c d k : Nat) (v : Touch) (s : State) : (s.setSlotTouch c d k v).ee = s.ee := rfl
@[simp] theorem State.setSlotTouch_tsu (c d k : Nat) (v : Touch) (s : State) : (s.setSlotTouch c d k v).tsu = s.tsu := rfl
@[simp] theorem State.setSlotTouch_ch (c d k : Nat) (v : Touch) (s : State) : (s.setSlotTouch c d k v).ch = s.ch := rfl
@[simp] theorem State.setSlotTouch_ll (c d k : Nat) (v : Touch) (s : State) : (s.setSlotTouch c d k v).ll = s.ll := rfl
@[simp] theorem State.setSlotTouch_pf (c d k : Nat) (v : Touch) (s : State) : (s.setSlotTouch c d k v).pf = s.pf := rfl
@[simp] theorem State.setSlotTouch_choices (c d k : Nat) (v : Touch) (s : State) : (s.setSlotTouch c d k v).choices = s.choices := rfl
@[simp] theorem State.setSlotTouch_pending (c d k : Nat) (v : Touch) (s : State) : (s.setSlotTouch c d k v).pending = s.pending := rfl

@[simp] theorem State.arrive_now (t : Nat) (s : State) : (s.arrive t).now = max s.now t := rfl
@[simp] theorem State.withChamber_ch (st : ChamberState) (s : State) :
    (s.withChamber st).ch = { s.ch with state := st } := rfl
@[simp] theorem State.withChamber_isReady (st : ChamberState) (s : State) :
    (s.withChamber st).isReady = (st == .ready) := rfl

@[simp] theorem State.out_setOut_self (o : Nat) (v : OutState) (s : State) : (s.setOut o v).out o = v := by
  simp [State.out, State.setOut]
theorem State.out_setOut (o : Nat) (v : OutState) (j : Nat) (s : State) :
    (s.setOut o v).out j = if j = o then v else s.out j := by
  simp [State.out, State.setOut, Table.get_set]

@[simp] theorem State.chain_setChain_self (c : Nat) (v : Chain) (s : State) : (s.setChain c v).chain c = v := by
  simp [State.chain, State.setChain]
theorem State.chain_setChain (c : Nat) (v : Chain) (j : Nat) (s : State) :
    (s.setChain c v).chain j = if j = c then v else s.chain j := by
  simp [State.chain, State.setChain, Table.get_set]

@[simp] theorem State.line_setLine_self (l : Nat) (v : Line) (s : State) : (s.setLine l v).line l = v := by
  simp [State.line, State.setLine]
theorem State.line_setLine (l : Nat) (v : Line) (j : Nat) (s : State) :
    (s.setLine l v).line j = if j = l then v else s.line j := by
  simp [State.line, State.setLine, Table.get_set]

@[simp] theorem State.trem_setTrem_self (g : Nat) (v : Trem) (s : State) : (s.setTrem g v).trem g = v := by
  simp [State.trem, State.setTrem]
theorem State.trem_setTrem (g : Nat) (v : Trem) (j : Nat) (s : State) :
    (s.setTrem g v).trem j = if j = g then v else s.trem j := by
  simp [State.trem, State.setTrem, Table.get_set]

@[simp] theorem State.shutter_setShutter_self (x : Nat) (v : Shutter) (s : State) : (s.setShutter x v).shutter x = v := by
  simp [State.shutter, State.setShutter]
theorem State.shutter_setShutter (x : Nat) (v : Shutter) (j : Nat) (s : State) :
    (s.setShutter x v).shutter j = if j = x then v else s.shutter j := by
  simp [State.shutter, State.setShutter, Table.get_set]

@[simp] theorem State.trigger_setTrigger_self (e : Nat) (v : Trigger) (s : State) : (s.setTrigger e v).trigger e = v := by
  simp [State.trigger, State.setTrigger]
theorem State.trigger_setTrigger (e : Nat) (v : Trigger) (j : Nat) (s : State) :
    (s.setTrigger e v).trigger j = if j = e then v else s.trigger j := by
  simp [State.trigger, State.setTrigger, Table.get_set]

@[simp] theorem State.group_setGroup_self (g : Nat) (v : Group) (s : State) : (s.setGroup g v).group g = v := by
  simp [State.group, State.setGroup]
theorem State.group_setGroup (g : Nat) (v : Group) (j : Nat) (s : State) :
    (s.setGroup g v).group j = if j = g then v else s.group j := by
  simp [State.group, State.setGroup, Table.get_set]

@[simp] theorem State.runner_setRunner_self (r : Nat) (v : Option Context) (s : State) : (s.setRunner r v).runner r = v := by
  simp [State.runner, State.setRunner]
theorem State.runner_setRunner (r : Nat) (v : Option Context) (j : Nat) (s : State) :
    (s.setRunner r v).runner j = if j = r then v else s.runner j := by
  simp [State.runner, State.setRunner, Table.get_set]

@[simp] theorem State.slot_setSlot_self (c : Nat) (v : Slot) (s : State) : (s.setSlot c v).slot c = v := by
  simp [State.slot, State.setSlot]
theorem State.slot_setSlot (c : Nat) (v : Slot) (j : Nat) (s : State) :
    (s.setSlot c v).slot j = if j = c then v else s.slot j := by
  simp [State.slot, State.setSlot, Table.get_set]

@[simp] theorem State.peer_setPeer_self (a : Station) (v : Peer) (s : State) : (s.setPeer a v).peer a = v := by
  simp [State.peer, State.setPeer]
theorem State.peer_setPeer (a : Station) (v : Peer) (b : Station) (s : State) :
    (s.setPeer a v).peer b = if b = a then v else s.peer b := by
  simp [State.peer, State.setPeer, Table.get_set, Fin.ext_iff]

@[simp] theorem State.chain_setOut_other (o : Nat) (v : OutState) (j : Nat) (s : State) : (s.setOut o v).chain j = s.chain j := rfl
@[simp] theorem State.line_setOut_other (o : Nat) (v : OutState) (j : Nat) (s : State) : (s.setOut o v).line j = s.line j := rfl
@[simp] theorem State.trem_setOut_other (o : Nat) (v : OutState) (j : Nat) (s : State) : (s.setOut o v).trem j = s.trem j := rfl
@[simp] theorem State.shutter_setOut_other (o : Nat) (v : OutState) (j : Nat) (s : State) : (s.setOut o v).shutter j = s.shutter j := rfl
@[simp] theorem State.trigger_setOut_other (o : Nat) (v : OutState) (j : Nat) (s : State) : (s.setOut o v).trigger j = s.trigger j := rfl
@[simp] theorem State.group_setOut_other (o : Nat) (v : OutState) (j : Nat) (s : State) : (s.setOut o v).group j = s.group j := rfl
@[simp] theorem State.runner_setOut_other (o : Nat) (v : OutState) (j : Nat) (s : State) : (s.setOut o v).runner j = s.runner j := rfl
@[simp] theorem State.slot_setOut_other (o : Nat) (v : OutState) (j : Nat) (s : State) : (s.setOut o v).slot j = s.slot j := rfl
@[simp] theorem State.peer_setOut_other (o : Nat) (v : OutState) (j : Station) (s : State) : (s.setOut o v).peer j = s.peer j := rfl
@[simp] theorem State.out_setChain_other (c : Nat) (v : Chain) (j : Nat) (s : State) : (s.setChain c v).out j = s.out j := rfl
@[simp] theorem State.line_setChain_other (c : Nat) (v : Chain) (j : Nat) (s : State) : (s.setChain c v).line j = s.line j := rfl
@[simp] theorem State.trem_setChain_other (c : Nat) (v : Chain) (j : Nat) (s : State) : (s.setChain c v).trem j = s.trem j := rfl
@[simp] theorem State.shutter_setChain_other (c : Nat) (v : Chain) (j : Nat) (s : State) : (s.setChain c v).shutter j = s.shutter j := rfl
@[simp] theorem State.trigger_setChain_other (c : Nat) (v : Chain) (j : Nat) (s : State) : (s.setChain c v).trigger j = s.trigger j := rfl
@[simp] theorem State.group_setChain_other (c : Nat) (v : Chain) (j : Nat) (s : State) : (s.setChain c v).group j = s.group j := rfl
@[simp] theorem State.runner_setChain_other (c : Nat) (v : Chain) (j : Nat) (s : State) : (s.setChain c v).runner j = s.runner j := rfl
@[simp] theorem State.slot_setChain_other (c : Nat) (v : Chain) (j : Nat) (s : State) : (s.setChain c v).slot j = s.slot j := rfl
@[simp] theorem State.peer_setChain_other (c : Nat) (v : Chain) (j : Station) (s : State) : (s.setChain c v).peer j = s.peer j := rfl
@[simp] theorem State.out_setPeer_other (a : Station) (v : Peer) (j : Nat) (s : State) : (s.setPeer a v).out j = s.out j := rfl
@[simp] theorem State.chain_setPeer_other (a : Station) (v : Peer) (j : Nat) (s : State) : (s.setPeer a v).chain j = s.chain j := rfl
@[simp] theorem State.line_setPeer_other (a : Station) (v : Peer) (j : Nat) (s : State) : (s.setPeer a v).line j = s.line j := rfl
@[simp] theorem State.trem_setPeer_other (a : Station) (v : Peer) (j : Nat) (s : State) : (s.setPeer a v).trem j = s.trem j := rfl
@[simp] theorem State.shutter_setPeer_other (a : Station) (v : Peer) (j : Nat) (s : State) : (s.setPeer a v).shutter j = s.shutter j := rfl
@[simp] theorem State.trigger_setPeer_other (a : Station) (v : Peer) (j : Nat) (s : State) : (s.setPeer a v).trigger j = s.trigger j := rfl
@[simp] theorem State.group_setPeer_other (a : Station) (v : Peer) (j : Nat) (s : State) : (s.setPeer a v).group j = s.group j := rfl
@[simp] theorem State.runner_setPeer_other (a : Station) (v : Peer) (j : Nat) (s : State) : (s.setPeer a v).runner j = s.runner j := rfl
@[simp] theorem State.slot_setPeer_other (a : Station) (v : Peer) (j : Nat) (s : State) : (s.setPeer a v).slot j = s.slot j := rfl
@[simp] theorem State.out_setLine_other (l : Nat) (v : Line) (j : Nat) (s : State) : (s.setLine l v).out j = s.out j := rfl
@[simp] theorem State.chain_setLine_other (l : Nat) (v : Line) (j : Nat) (s : State) : (s.setLine l v).chain j = s.chain j := rfl
@[simp] theorem State.trem_setLine_other (l : Nat) (v : Line) (j : Nat) (s : State) : (s.setLine l v).trem j = s.trem j := rfl
@[simp] theorem State.shutter_setLine_other (l : Nat) (v : Line) (j : Nat) (s : State) : (s.setLine l v).shutter j = s.shutter j := rfl
@[simp] theorem State.trigger_setLine_other (l : Nat) (v : Line) (j : Nat) (s : State) : (s.setLine l v).trigger j = s.trigger j := rfl
@[simp] theorem State.group_setLine_other (l : Nat) (v : Line) (j : Nat) (s : State) : (s.setLine l v).group j = s.group j := rfl
@[simp] theorem State.runner_setLine_other (l : Nat) (v : Line) (j : Nat) (s : State) : (s.setLine l v).runner j = s.runner j := rfl
@[simp] theorem State.slot_setLine_other (l : Nat) (v : Line) (j : Nat) (s : State) : (s.setLine l v).slot j = s.slot j := rfl
@[simp] theorem State.peer_setLine_other (l : Nat) (v : Line) (j : Station) (s : State) : (s.setLine l v).peer j = s.peer j := rfl
@[simp] theorem State.out_setTrem_other (g : Nat) (v : Trem) (j : Nat) (s : State) : (s.setTrem g v).out j = s.out j := rfl
@[simp] theorem State.chain_setTrem_other (g : Nat) (v : Trem) (j : Nat) (s : State) : (s.setTrem g v).chain j = s.chain j := rfl
@[simp] theorem State.line_setTrem_other (g : Nat) (v : Trem) (j : Nat) (s : State) : (s.setTrem g v).line j = s.line j := rfl
@[simp] theorem State.shutter_setTrem_other (g : Nat) (v : Trem) (j : Nat) (s : State) : (s.setTrem g v).shutter j = s.shutter j := rfl
@[simp] theorem State.trigger_setTrem_other (g : Nat) (v : Trem) (j : Nat) (s : State) : (s.setTrem g v).trigger j = s.trigger j := rfl
@[simp] theorem State.group_setTrem_other (g : Nat) (v : Trem) (j : Nat) (s : State) : (s.setTrem g v).group j = s.group j := rfl
@[simp] theorem State.runner_setTrem_other (g : Nat) (v : Trem) (j : Nat) (s : State) : (s.setTrem g v).runner j = s.runner j := rfl
@[simp] theorem State.slot_setTrem_other (g : Nat) (v : Trem) (j : Nat) (s : State) : (s.setTrem g v).slot j = s.slot j := rfl
@[simp] theorem State.peer_setTrem_other (g : Nat) (v : Trem) (j : Station) (s : State) : (s.setTrem g v).peer j = s.peer j := rfl
@[simp] theorem State.out_setShutter_other (x : Nat) (v : Shutter) (j : Nat) (s : State) : (s.setShutter x v).out j = s.out j := rfl
@[simp] theorem State.chain_setShutter_other (x : Nat) (v : Shutter) (j : Nat) (s : State) : (s.setShutter x v).chain j = s.chain j := rfl
@[simp] theorem State.line_setShutter_other (x : Nat) (v : Shutter) (j : Nat) (s : State) : (s.setShutter x v).line j = s.line j := rfl
@[simp] theorem State.trem_setShutter_other (x : Nat) (v : Shutter) (j : Nat) (s : State) : (s.setShutter x v).trem j = s.trem j := rfl
@[simp] theorem State.trigger_setShutter_other (x : Nat) (v : Shutter) (j : Nat) (s : State) : (s.setShutter x v).trigger j = s.trigger j := rfl
@[simp] theorem State.group_setShutter_other (x : Nat) (v : Shutter) (j : Nat) (s : State) : (s.setShutter x v).group j = s.group j := rfl
@[simp] theorem State.runner_setShutter_other (x : Nat) (v : Shutter) (j : Nat) (s : State) : (s.setShutter x v).runner j = s.runner j := rfl
@[simp] theorem State.slot_setShutter_other (x : Nat) (v : Shutter) (j : Nat) (s : State) : (s.setShutter x v).slot j = s.slot j := rfl
@[simp] theorem State.peer_setShutter_other (x : Nat) (v : Shutter) (j : Station) (s : State) : (s.setShutter x v).peer j = s.peer j := rfl
@[simp] theorem State.out_setTrigger_other (e : Nat) (v : Trigger) (j : Nat) (s : State) : (s.setTrigger e v).out j = s.out j := rfl
@[simp] theorem State.chain_setTrigger_other (e : Nat) (v : Trigger) (j : Nat) (s : State) : (s.setTrigger e v).chain j = s.chain j := rfl
@[simp] theorem State.line_setTrigger_other (e : Nat) (v : Trigger) (j : Nat) (s : State) : (s.setTrigger e v).line j = s.line j := rfl
@[simp] theorem State.trem_setTrigger_other (e : Nat) (v : Trigger) (j : Nat) (s : State) : (s.setTrigger e v).trem j = s.trem j := rfl
@[simp] theorem State.shutter_setTrigger_other (e : Nat) (v : Trigger) (j : Nat) (s : State) : (s.setTrigger e v).shutter j = s.shutter j := rfl
@[simp] theorem State.group_setTrigger_other (e : Nat) (v : Trigger) (j : Nat) (s : State) : (s.setTrigger e v).group j = s.group j := rfl
@[simp] theorem State.runner_setTrigger_other (e : Nat) (v : Trigger) (j : Nat) (s : State) : (s.setTrigger e v).runner j = s.runner j := rfl
@[simp] theorem State.slot_setTrigger_other (e : Nat) (v : Trigger) (j : Nat) (s : State) : (s.setTrigger e v).slot j = s.slot j := rfl
@[simp] theorem State.peer_setTrigger_other (e : Nat) (v : Trigger) (j : Station) (s : State) : (s.setTrigger e v).peer j = s.peer j := rfl
@[simp] theorem State.out_setGroup_other (g : Nat) (v : Group) (j : Nat) (s : State) : (s.setGroup g v).out j = s.out j := rfl
@[simp] theorem State.chain_setGroup_other (g : Nat) (v : Group) (j : Nat) (s : State) : (s.setGroup g v).chain j = s.chain j := rfl
@[simp] theorem State.line_setGroup_other (g : Nat) (v : Group) (j : Nat) (s : State) : (s.setGroup g v).line j = s.line j := rfl
@[simp] theorem State.trem_setGroup_other (g : Nat) (v : Group) (j : Nat) (s : State) : (s.setGroup g v).trem j = s.trem j := rfl
@[simp] theorem State.shutter_setGroup_other (g : Nat) (v : Group) (j : Nat) (s : State) : (s.setGroup g v).shutter j = s.shutter j := rfl
@[simp] theorem State.trigger_setGroup_other (g : Nat) (v : Group) (j : Nat) (s : State) : (s.setGroup g v).trigger j = s.trigger j := rfl
@[simp] theorem State.runner_setGroup_other (g : Nat) (v : Group) (j : Nat) (s : State) : (s.setGroup g v).runner j = s.runner j := rfl
@[simp] theorem State.slot_setGroup_other (g : Nat) (v : Group) (j : Nat) (s : State) : (s.setGroup g v).slot j = s.slot j := rfl
@[simp] theorem State.peer_setGroup_other (g : Nat) (v : Group) (j : Station) (s : State) : (s.setGroup g v).peer j = s.peer j := rfl
@[simp] theorem State.out_setRunner_other (r : Nat) (v : Option Context) (j : Nat) (s : State) : (s.setRunner r v).out j = s.out j := rfl
@[simp] theorem State.chain_setRunner_other (r : Nat) (v : Option Context) (j : Nat) (s : State) : (s.setRunner r v).chain j = s.chain j := rfl
@[simp] theorem State.line_setRunner_other (r : Nat) (v : Option Context) (j : Nat) (s : State) : (s.setRunner r v).line j = s.line j := rfl
@[simp] theorem State.trem_setRunner_other (r : Nat) (v : Option Context) (j : Nat) (s : State) : (s.setRunner r v).trem j = s.trem j := rfl
@[simp] theorem State.shutter_setRunner_other (r : Nat) (v : Option Context) (j : Nat) (s : State) : (s.setRunner r v).shutter j = s.shutter j := rfl
@[simp] theorem State.trigger_setRunner_other (r : Nat) (v : Option Context) (j : Nat) (s : State) : (s.setRunner r v).trigger j = s.trigger j := rfl
@[simp] theorem State.group_setRunner_other (r : Nat) (v : Option Context) (j : Nat) (s : State) : (s.setRunner r v).group j = s.group j := rfl
@[simp] theorem State.slot_setRunner_other (r : Nat) (v : Option Context) (j : Nat) (s : State) : (s.setRunner r v).slot j = s.slot j := rfl
@[simp] theorem State.peer_setRunner_other (r : Nat) (v : Option Context) (j : Station) (s : State) : (s.setRunner r v).peer j = s.peer j := rfl
@[simp] theorem State.out_withChamber_other (st : ChamberState) (j : Nat) (s : State) : (s.withChamber st).out j = s.out j := rfl
@[simp] theorem State.chain_withChamber_other (st : ChamberState) (j : Nat) (s : State) : (s.withChamber st).chain j = s.chain j := rfl
@[simp] theorem State.line_withChamber_other (st : ChamberState) (j : Nat) (s : State) : (s.withChamber st).line j = s.line j := rfl
@[simp] theorem State.trem_withChamber_other (st : ChamberState) (j : Nat) (s : State) : (s.withChamber st).trem j = s.trem j := rfl
@[simp] theorem State.shutter_withChamber_other (st : ChamberState) (j : Nat) (s : State) : (s.withChamber st).shutter j = s.shutter j := rfl
@[simp] theorem State.trigger_withChamber_other (st : ChamberState) (j : Nat) (s : State) : (s.withChamber st).trigger j = s.trigger j := rfl
@[simp] theorem State.group_withChamber_other (st : ChamberState) (j : Nat) (s : State) : (s.withChamber st).group j = s.group j := rfl
@[simp] theorem State.runner_withChamber_other (st : ChamberState) (j : Nat) (s : State) : (s.withChamber st).runner j = s.runner j := rfl
@[simp] theorem State.slot_withChamber_other (st : ChamberState) (j : Nat) (s : State) : (s.withChamber st).slot j = s.slot j := rfl
@[simp] theorem State.peer_withChamber_other (st : ChamberState) (j : Station) (s : State) : (s.withChamber st).peer j = s.peer j := rfl
@[simp] theorem State.out_setSlot_other (c : Nat) (v : Slot) (j : Nat) (s : State) : (s.setSlot c v).out j = s.out j := rfl
@[simp] theorem State.chain_setSlot_other (c : Nat) (v : Slot) (j : Nat) (s : State) : (s.setSlot c v).chain j = s.chain j := rfl
@[simp] theorem State.line_setSlot_other (c : Nat) (v : Slot) (j : Nat) (s : State) : (s.setSlot c v).line j = s.line j := rfl
@[simp] theorem State.trem_setSlot_other (c : Nat) (v : Slot) (j : Nat) (s : State) : (s.setSlot c v).trem j = s.trem j := rfl
@[simp] theorem State.shutter_setSlot_other (c : Nat) (v : Slot) (j : Nat) (s : State) : (s.setSlot c v).shutter j = s.shutter j := rfl
@[simp] theorem State.trigger_setSlot_other (c : Nat) (v : Slot) (j : Nat) (s : State) : (s.setSlot c v).trigger j = s.trigger j := rfl
@[simp] theorem State.group_setSlot_other (c : Nat) (v : Slot) (j : Nat) (s : State) : (s.setSlot c v).group j = s.group j := rfl
@[simp] theorem State.runner_setSlot_other (c : Nat) (v : Slot) (j : Nat) (s : State) : (s.setSlot c v).runner j = s.runner j := rfl
@[simp] theorem State.peer_setSlot_other (c : Nat) (v : Slot) (j : Station) (s : State) : (s.setSlot c v).peer j = s.peer j := rfl
@[simp] theorem State.out_setSlotTouch_other (c d k : Nat) (v : Touch) (j : Nat) (s : State) : (s.setSlotTouch c d k v).out j = s.out j := rfl
@[simp] theorem State.chain_setSlotTouch_other (c d k : Nat) (v : Touch) (j : Nat) (s : State) : (s.setSlotTouch c d k v).chain j = s.chain j := rfl
@[simp] theorem State.line_setSlotTouch_other (c d k : Nat) (v : Touch) (j : Nat) (s : State) : (s.setSlotTouch c d k v).line j = s.line j := rfl
@[simp] theorem State.trem_setSlotTouch_other (c d k : Nat) (v : Touch) (j : Nat) (s : State) : (s.setSlotTouch c d k v).trem j = s.trem j := rfl
@[simp] theorem State.shutter_setSlotTouch_other (c d k : Nat) (v : Touch) (j : Nat) (s : State) : (s.setSlotTouch c d k v).shutter j = s.shutter j := rfl
@[simp] theorem State.trigger_setSlotTouch_other (c d k : Nat) (v : Touch) (j : Nat) (s : State) : (s.setSlotTouch c d k v).trigger j = s.trigger j := rfl
@[simp] theorem State.group_setSlotTouch_other (c d k : Nat) (v : Touch) (j : Nat) (s : State) : (s.setSlotTouch c d k v).group j = s.group j := rfl
@[simp] theorem State.runner_setSlotTouch_other (c d k : Nat) (v : Touch) (j : Nat) (s : State) : (s.setSlotTouch c d k v).runner j = s.runner j := rfl
@[simp] theorem State.peer_setSlotTouch_other (c d k : Nat) (v : Touch) (j : Station) (s : State) : (s.setSlotTouch c d k v).peer j = s.peer j := rfl

@[simp] theorem State.prof_setOut (o : Nat) (v : OutState) (s : State) : (s.setOut o v).prof = s.prof := rfl
@[simp] theorem State.prof_setChain (c : Nat) (v : Chain) (s : State) : (s.setChain c v).prof = s.prof := rfl

end Sys2Proof.Machine
end

