-- ==== Sys2Proof/Laws/Reach.lean ====
section
/-! SUPPORT. What each shared operation can touch, said once: the state after it is the state before it with the named
blocks changed and no other. -/

namespace Sys2Proof.Machine

/-! ### Operations over a list -/

/-- An operation that reaches only some blocks, taken along a list, reaches only those blocks. -/
theorem foldl_reach {β : Type} (R : State → State → Prop) (refl : ∀ s, R s s)
    (trans : ∀ a b c, R a b → R b c → R a c) (f : State → β → State) (h : ∀ s x, R s (f s x)) :
    ∀ (l : List β) (s : State), R s (l.foldl f s) := by
  intro l
  induction l with
  | nil => exact fun s => refl s
  | cons x rest ih => exact fun s => trans _ _ _ (h s x) (ih _)

/-! ### LI and PF -/

/-- PF with the record, the later flag and the seen-kinds set of another. -/
abbrev Pf.withRecord (p q : Pf) : Pf := { p with record := q.record, later := q.later, seen := q.seen }

/-- A fault report reaches PF's record, later flag and seen-kinds set alone. -/
def ReachPf (s t : State) : Prop := t = { s with pf := s.pf.withRecord t.pf }

theorem reportFault_reach (k : FaultKind) (a b : Nat) (s : State) : ReachPf s (reportFault k a b s) := rfl

/-- A fault report leaves all of PF but the record, the later flag and the seen-kinds set. -/
theorem reportFault_pf (k : FaultKind) (a b : Nat) (s : State) :
    (reportFault k a b s).pf = { s.pf with
      record := some (s.pf.record.getD { kind := k, source := a, detail := b }),
      later := s.pf.later || s.pf.record.isSome,
      seen := s.pf.seen ||| k.seenBit } := rfl

/-- A hand-over to LI reaches LI and PF alone. -/
def ReachLi (s t : State) : Prop := t = { s with li := t.li, pf := s.pf.withRecord t.pf }

theorem handOver_reach (f : Frame) (s : State) : ReachLi s (handOver f s) := by
  unfold ReachLi handOver
  split
  · rfl
  · split
    · rfl
    · split
      · rfl
      · cases f <;> rfl

theorem handPresence_reach (s : State) : ReachLi s (handPresence s) := handOver_reach _ _

/-- A PRESENCE, which drops without a record, leaves PF alone. -/
theorem handPresence_pf (s : State) : (handPresence s).pf = s.pf := by
  unfold handPresence handOver
  split
  · rfl
  · split
    · rfl
    · split <;> rfl

/-! ### CC -/

/-- An operation of CC reaches the chains alone. -/
def ReachCc (s t : State) : Prop := t = { s with cc := t.cc }

theorem startShift_reach (c : Nat) (s : State) : ReachCc s (startShift c s) := by
  unfold ReachCc startShift; split <;> rfl

theorem shiftWanted_reach (c : Nat) (s : State) : ReachCc s (shiftWanted c s) := by
  unfold shiftWanted
  split
  · rfl
  · exact startShift_reach c s

theorem energizedNotice_reach (o : Nat) (s : State) : ReachCc s (energizedNotice o s) := shiftWanted_reach _ _

/-! ### PA -/

/-- A grant or the exit reaches PA and CC alone. -/
def ReachGrant (s t : State) : Prop := t = { s with pa := t.pa, cc := t.cc }

theorem ReachGrant.trans {a b c : State} (h : ReachGrant a b) (k : ReachGrant b c) : ReachGrant a c := by
  unfold ReachGrant at *; rw [k, h]

theorem ReachCc.grant {s t : State} (h : ReachCc s t) : ReachGrant s t := by
  unfold ReachCc at h; unfold ReachGrant; rw [h]

theorem grant_reach (c : Candidate) (s : State) : ReachGrant s (grant c s) := by
  have h := energizedNotice_reach c.output { s with pa := grantPa s c }
  unfold ReachCc at h; unfold ReachGrant grant; rw [h]

/-- A grant gives PA what R72 and R73 say; the notice to CC leaves PA alone. -/
theorem grant_pa (c : Candidate) (s : State) : (grant c s).pa = grantPa s c := by
  have h := energizedNotice_reach c.output { s with pa := grantPa s c }
  unfold ReachCc at h; unfold grant; rw [h]

theorem chooseUpTo_reach (n : Nat) (s : State) : ReachGrant s (chooseUpTo n s) := by
  induction n generalizing s with
  | zero => rfl
  | succ n ih =>
    unfold chooseUpTo
    split
    · rfl
    · split
      · exact (grant_reach _ s).trans (ih _)
      · rfl

theorem chooseGrants_reach (s : State) : ReachGrant s (chooseGrants s) := chooseUpTo_reach _ s

theorem paExit_reach (s : State) : ReachGrant s (paExit s) := by
  have h : ReachCc { s with pa := .cleared } (paExit s) :=
    foldl_reach ReachCc (fun _ => rfl) (fun a b c h k => by unfold ReachCc at *; rw [k, h])
      (fun s o => energizedNotice o s) (fun s o => energizedNotice_reach o s) _ _
  unfold ReachCc at h; unfold ReachGrant; rw [h]

/-- R77: the exit clears PA. -/
theorem paExit_pa (s : State) : (paExit s).pa = .cleared := by
  have h : ReachCc { s with pa := .cleared } (paExit s) :=
    foldl_reach ReachCc (fun _ => rfl) (fun a b c h k => by unfold ReachCc at *; rw [k, h])
      (fun s o => energizedNotice o s) (fun s o => energizedNotice_reach o s) _ _
  unfold ReachCc at h; rw [h]

/-- A request to PA reaches PA, CC and PF alone. -/
def ReachPa (s t : State) : Prop := t = { s with pa := t.pa, cc := t.cc, pf := s.pf.withRecord t.pf }

theorem ReachPa.refl (s : State) : ReachPa s s := rfl

theorem ReachPa.trans {a b c : State} (h : ReachPa a b) (k : ReachPa b c) : ReachPa a c := by
  unfold ReachPa at *; rw [k, h]

theorem ReachGrant.pa {s t : State} (h : ReachGrant s t) : ReachPa s t := by
  unfold ReachGrant at h; unfold ReachPa; rw [h]

theorem ReachPf.pa {s t : State} (h : ReachPf s t) : ReachPa s t := by
  unfold ReachPf at h; unfold ReachPa; rw [h]

theorem paEvent_reach {f : State → State} (h : ∀ s, ReachPa s (f s)) (s : State) : ReachPa s (paEvent f s) := by
  unfold paEvent
  split
  · exact (h s).trans (chooseGrants_reach _).pa
  · rfl

theorem joinAction_reach (o : Nat) (k : ActionKind) (s : State) : ReachPa s (joinAction o k s) := by
  unfold joinAction; split <;> rfl

theorem paOpen_reach (o : Nat) (s : State) : ReachPa s (paOpen o s) :=
  paEvent_reach (fun s => by split <;> rfl) s

theorem paHold_reach (o : Nat) (s : State) : ReachPa s (paHold o s) :=
  paEvent_reach (fun s => by
    split
    · exact joinAction_reach _ _ _
    all_goals rfl) s

theorem paStrike_reach (o w : Nat) (s : State) : ReachPa s (paStrike o w s) :=
  paEvent_reach (fun s => by
    split
    · exact joinAction_reach _ _ _
    · rfl) s

theorem releaseOut_reach (o : Nat) (s : State) : ReachGrant s (releaseOut o s) := by
  unfold releaseOut
  split
  · rfl
  · rfl
  · have h := energizedNotice_reach o { s with pa :=
      { s.pa with outs := s.pa.outs.set o .off, units := s.pa.units - s.weight o } }
    unfold ReachCc at h; unfold ReachGrant; rw [h]
  · have h := energizedNotice_reach o (s.setOut o .off)
    unfold ReachCc at h; unfold ReachGrant; rw [h]; rfl
  · rfl

theorem paRelease_reach (o : Nat) (s : State) : ReachPa s (paRelease o s) :=
  paEvent_reach (fun s => (releaseOut_reach o s).pa) s

theorem pullInEnds_reach (o : Nat) (s : State) : ReachPa s (pullInEnds o s) := by
  unfold pullInEnds
  split
  · refine paEvent_reach (fun s => ?_) s
    rfl
  · rfl

theorem strikeEnds_reach (o : Nat) (s : State) : ReachPa s (strikeEnds o s) := by
  unfold strikeEnds
  split
  · rfl
  · refine paEvent_reach (fun s => ?_) s
    split
    · rfl
    · have h := energizedNotice_reach o { s with pa :=
        { s.pa with outs := s.pa.outs.set o .off, units := s.pa.units - s.weight o } }
      unfold ReachCc at h; unfold ReachPa; rw [h]

theorem forOutputs_reach {f : Nat → State → State} (h : ∀ o s, ReachPa s (f o s)) (l : List Nat) (s : State) :
    ReachPa s (forOutputs f l s) :=
  foldl_reach ReachPa ReachPa.refl (fun _ _ _ => ReachPa.trans) _ (fun s o => h o s) l s

/-- R65: outside READY every request is ignored. -/
theorem paEvent_notReady {f : State → State} {s : State} (h : s.isReady = false) : paEvent f s = s := by
  simp [paEvent, h]

/-! ### LL and the runners -/

/-- The drive of an output line reaches LL and the runners alone. -/
def ReachLl (s t : State) : Prop := t = { s with ll := t.ll, ee := t.ee }

theorem offerLine_reach (l : Nat) (v : Bool) (s : State) : ReachLl s (offerLine l v s) := by
  unfold offerLine
  split
  · split <;> rfl
  · rfl

theorem driveLine_reach (l : Nat) (v : Bool) (s : State) : ReachLl s (driveLine l v s) := by
  unfold driveLine
  split
  · dsimp only
    split
    · have h := offerLine_reach l v (s.setLine l { s.line l with driven := v })
      unfold ReachLl at *; rw [h]; rfl
    · rfl
  · rfl

theorem driveLamps_reach (v : Bool) (s : State) : ReachLl s (driveLamps v s) :=
  foldl_reach ReachLl (fun _ => rfl) (fun a b c h k => by unfold ReachLl at *; rw [k, h]) _
    (fun s l => by
      split
      · exact driveLine_reach l v s
      · rfl) _ s

/-- A pass of a runner, and what EE does, reaches PA, CC, PF, LI, LL and the runners and groups alone. -/
def ReachEe (s t : State) : Prop :=
  t = { s with pa := t.pa, cc := t.cc, pf := s.pf.withRecord t.pf, li := t.li, ll := t.ll, ee := t.ee }

theorem ReachEe.refl (s : State) : ReachEe s s := rfl

theorem ReachEe.trans {a b c : State} (h : ReachEe a b) (k : ReachEe b c) : ReachEe a c := by
  unfold ReachEe at *; rw [k, h]

theorem ReachPa.ee {s t : State} (h : ReachPa s t) : ReachEe s t := by
  unfold ReachPa at h; unfold ReachEe; rw [h]

theorem ReachLi.ee {s t : State} (h : ReachLi s t) : ReachEe s t := by
  unfold ReachLi at h; unfold ReachEe; rw [h]

theorem ReachLl.ee {s t : State} (h : ReachLl s t) : ReachEe s t := by
  unfold ReachLl at h; unfold ReachEe; rw [h]

theorem tallied_reach (r i : Nat) (c : Context) {s t : State} (h : ReachEe s t) :
    ReachEe s (tallied r i c t).2.2 := by
  unfold tallied
  dsimp only
  split
  · exact h
  · exact h.trans (reportFault_reach _ _ _ _).pa.ee

theorem takeStep_reach (r : Nat) (c : Context) (s : State) : ReachEe s (takeStep r c s).2.2 := by
  unfold takeStep
  dsimp only
  split
  · exact .refl s
  · exact .refl s
  · exact tallied_reach _ _ _ (paStrike_reach _ _ _).ee
  · split
    · exact tallied_reach _ _ _ (paHold_reach _ _).ee
    · split
      · exact tallied_reach _ _ _ (paHold_reach _ _).ee
      · exact tallied_reach _ _ _ (.refl s)
  · exact tallied_reach _ _ _ (paRelease_reach _ _).ee
  · exact tallied_reach _ _ _ (.refl s)
  · exact tallied_reach _ _ _ (handOver_reach _ _).ee
  · exact .refl s
  · split
    · exact tallied_reach _ _ _ (.refl s)
    · exact .refl s
  · exact tallied_reach _ _ _ (driveLine_reach _ _ _).ee
  · exact tallied_reach _ _ _ (.refl s)
  · exact .refl s

theorem takeSteps_reach (r n : Nat) (c : Context) (s : State) : ReachEe s (takeSteps r n c s).2.2 := by
  induction n generalizing c s with
  | zero => exact .refl s
  | succ n ih =>
    have h := takeStep_reach r c s
    unfold takeSteps
    split
    · next e => rw [e] at h; exact h.trans (ih _ _)
    · exact h

theorem runPass_reach (r : Nat) (c : Context) (s : State) : ReachEe s (runPass r c s).2.2 := takeSteps_reach r 17 c s

/-! ### EE -/

theorem clearGroup_reach (g : Nat) (s : State) : ReachEe s (clearGroup g s) := by
  refine (forOutputs_reach paRelease_reach (s.groupOutputs g) s).ee.trans ?_
  refine foldl_reach ReachEe ReachEe.refl (fun _ _ _ => ReachEe.trans) _ (fun s r => ?_) _ _
  unfold emptyHeld
  split
  · split <;> rfl
  · rfl

theorem resumeHolder_reach (g : Nat) (c : Context) (rest : List Context) (s : State) :
    ReachEe s (resumeHolder g c rest s).2 := by
  have h := (forOutputs_reach paHold_reach c.held
    (s.setGroup g { s.group g with holder := c.script.effect, stack := rest })).ee
  exact ReachEe.trans (b := s.setGroup g { s.group g with holder := c.script.effect, stack := rest }) rfl h

theorem nextWork_reach (g : Nat) (s : State) {x : Context × State} (h : nextWork g s = some x) : ReachEe s x.2 := by
  unfold nextWork at h
  dsimp only at h
  split at h
  · cases h; rfl
  · split at h
    · cases h; rfl
    · cases h; exact resumeHolder_reach _ _ _ _
  · cases h; exact resumeHolder_reach _ _ _ _
  · obtain ⟨y, -, rfl⟩ := Option.map_eq_some_iff.1 h
    rfl

theorem endHolder_reach (r : Nat) (c : Context) (s : State) : ReachEe s (endHolder r c s).2 := by
  have h0 : ReachEe s ((forOutputs paRelease c.held s).setRunner r none) :=
    (forOutputs_reach paRelease_reach c.held s).ee.trans rfl
  unfold endHolder
  dsimp only
  split
  · next h => exact h0.trans (nextWork_reach _ _ h)
  · exact h0.trans rfl

theorem runOn_reach (n r : Nat) (c : Context) (s : State) : ReachEe s (runOn n r c s) := by
  induction n generalizing c s with
  | zero => rfl
  | succ n ih =>
    have hp := runPass_reach r c (s.setRunner r (some c))
    have h0 : ReachEe s (s.setRunner r (some c)) := rfl
    unfold runOn
    split
    · next c' s' e =>
      rw [e] at hp
      have he := endHolder_reach r c' s'
      split
      · next e2 => rw [e2] at he; exact h0.trans (hp.trans he)
      · next c'' s'' e2 =>
        rw [e2] at he
        split
        · exact h0.trans (hp.trans (he.trans (ih _ _)))
        · exact h0.trans (hp.trans (he.trans rfl))
    · next e => rw [e] at hp; exact h0.trans (hp.trans rfl)

theorem runEffect_reach (r : Nat) (c : Context) (s : State) : ReachEe s (runEffect r c s) := by
  unfold runEffect
  split
  · exact runOn_reach _ _ _ _
  · rfl

theorem holderEnds_reach (r : Nat) (c : Context) (s : State) : ReachEe s (holderEnds r c s) := by
  have he := endHolder_reach r c s
  unfold holderEnds
  split
  · next e => rw [e] at he; exact he
  · next e => rw [e] at he; exact he.trans (runEffect_reach _ _ _)

theorem startEffect_reach (e r : Nat) (s : State) : ReachEe s (startEffect e r s) :=
  ReachEe.trans (b := (becomeHolder e s).2) rfl (runEffect_reach _ _ _)

theorem makePending_reach (e : Nat) (s : State) : ReachEe s (makePending e s) := by
  unfold makePending
  dsimp only
  split
  · rfl
  · split <;> rfl

theorem preempt_reach (e r : Nat) (c : Context) (s : State) : ReachEe s (preempt e r c s) := by
  unfold preempt
  dsimp only
  split
  · rfl
  · refine ReachEe.trans
      (b := s.setGroup (s.groupOf e) { s.group (s.groupOf e) with
        stack := c.saved s.now :: (s.group (s.groupOf e)).stack }) rfl ?_
    exact (clearGroup_reach _ _).trans (startEffect_reach _ _ _)

theorem restartInPlace_reach (e r : Nat) (s : State) : ReachEe s (restartInPlace e r s) :=
  (clearGroup_reach _ s).trans (startEffect_reach _ _ _)

theorem triggerInReady_reach (e : Nat) (s : State) : ReachEe s (triggerInReady e s) := by
  unfold triggerInReady
  dsimp only
  split
  · rfl
  · split
    · split
      · exact startEffect_reach _ _ _
      · exact makePending_reach _ _
    · split
      · rfl
      · split
        · rfl
        · split
          · split
            · exact restartInPlace_reach _ _ _
            · rfl
          · split
            · exact preempt_reach _ _ _ _
            · exact makePending_reach _ _

theorem levelRelease_reach (e : Nat) (s : State) : ReachEe s (levelRelease e s) := by
  unfold levelRelease
  dsimp only
  split
  · split
    · rfl
    · split
      · rfl
      · split
        · split
          · exact runEffect_reach _ _ _
          · exact holderEnds_reach _ _ _
        · rfl
  · split <;> rfl

theorem stopEffects_reach (s : State) : ReachEe s (stopEffects s) := by
  unfold ReachEe stopEffects; rfl

theorem clearAllGroups_reach (s : State) : ReachEe s (clearAllGroups s) :=
  foldl_reach ReachEe ReachEe.refl (fun _ _ _ => ReachEe.trans) _ (fun s g => clearGroup_reach g s) _ s

theorem zeroKeyParts_reach (s : State) : ReachEe s (zeroKeyParts s) := by
  unfold ReachEe zeroKeyParts; rfl

theorem eeAllOff_reach (s : State) : ReachEe s (eeAllOff s) :=
  (clearAllGroups_reach s).trans ((stopEffects_reach _).trans (zeroKeyParts_reach _))

theorem eeExit_reach (s : State) : ReachEe s (eeExit s) := (clearAllGroups_reach s).trans (stopEffects_reach _)

/-- What a trigger and all that moves a count reach: as EE, and CH's rest timer. -/
def ReachTrig (s t : State) : Prop :=
  t = { s with pa := t.pa, cc := t.cc, pf := s.pf.withRecord t.pf, li := t.li, ll := t.ll, ee := t.ee,
               ch := { s.ch with rest := t.ch.rest } }

theorem ReachTrig.refl (s : State) : ReachTrig s s := rfl

theorem ReachTrig.trans {a b c : State} (h : ReachTrig a b) (k : ReachTrig b c) : ReachTrig a c := by
  unfold ReachTrig at *; rw [k, h]

theorem ReachEe.trig {s t : State} (h : ReachEe s t) : ReachTrig s t := by
  unfold ReachEe at h; unfold ReachTrig; rw [h]

theorem restartRest_reach (s : State) : ReachTrig s (restartRest s) := by
  unfold restartRest; split <;> rfl

theorem trigger_reach (e : Nat) (s : State) : ReachTrig s (trigger e s) := by
  unfold trigger
  split
  · exact (restartRest_reach s).trans (triggerInReady_reach _ _).trig
  · rfl

theorem countMoved_reach (e b : Nat) (up : Bool) (s : State) : ReachTrig s (countMoved e b up s) := by
  unfold countMoved
  split
  · split
    · exact trigger_reach _ _
    · rfl
  · dsimp only
    split
    · exact trigger_reach _ _
    · split
      · exact (levelRelease_reach _ _).trig
      · rfl
  · rfl

theorem studDelta_reach (e : Nat) (up : Bool) (s : State) : ReachTrig s (studDelta e up s) :=
  ReachTrig.trans (b := s.setTrigger e { s.trigger e with stud := up }) rfl (countMoved_reach _ _ _ _)

theorem cueEdge_reach (e : Nat) (v : Bool) (s : State) : ReachTrig s (cueEdge e v s) := by
  unfold cueEdge
  split
  · split
    · exact trigger_reach _ _
    · rfl
  · exact ReachTrig.trans (b := s.setTrigger e { s.trigger e with cue := v }) rfl (countMoved_reach _ _ _ _)
  · rfl

end Sys2Proof.Machine
end

