-- ==== Sys2Proof/Laws/ReachChamber.lean ====
section
/-! SUPPORT. What the operations of TSU, DT and CH can touch, said once. -/

namespace Sys2Proof.Machine

/-! ### TSU -/

/-- What TSU reaches: its own state, PA, CC, LI and PF's record. -/
def ReachTsu (s t : State) : Prop :=
  t = { s with pa := t.pa, cc := t.cc, pf := s.pf.withRecord t.pf, li := t.li, tsu := t.tsu }

theorem ReachTsu.refl (s : State) : ReachTsu s s := rfl

theorem ReachTsu.trans {a b c : State} (h : ReachTsu a b) (k : ReachTsu b c) : ReachTsu a c := by
  unfold ReachTsu at *; rw [k, h]

theorem ReachPa.tsu {s t : State} (h : ReachPa s t) : ReachTsu s t := by
  unfold ReachPa at h; unfold ReachTsu; rw [h]

theorem ReachLi.tsu {s t : State} (h : ReachLi s t) : ReachTsu s t := by
  unfold ReachLi at h; unfold ReachTsu; rw [h]

theorem setTrem_reach (g : Nat) (v : Trem) (s : State) : ReachTsu s (s.setTrem g v) := rfl

theorem setShutter_reach (x : Nat) (v : Shutter) (s : State) : ReachTsu s (s.setShutter x v) := rfl

theorem phase0At_reach (t g : Nat) (s : State) : ReachTsu s (phase0At t g s) := by
  unfold phase0At
  split
  · rfl
  · dsimp only
    split
    · exact ((setTrem_reach _ _ s).trans (paHold_reach _ _).tsu).trans (handOver_reach _ _).tsu
    · exact (setTrem_reach _ _ s).trans (paHold_reach _ _).tsu

theorem startGroup_reach (g : Nat) (s : State) : ReachTsu s (startGroup g s) :=
  (setTrem_reach _ _ s).trans (phase0At_reach _ _ _)

theorem stopGroup_reach (g : Nat) (s : State) : ReachTsu s (stopGroup g s) := by
  unfold stopGroup
  dsimp only
  split
  · rfl
  · exact (setTrem_reach _ _ s).trans (paRelease_reach _ _).tsu

theorem groupDelta_reach (g : Nat) (up : Bool) (s : State) : ReachTsu s (groupDelta g up s) := by
  unfold groupDelta
  dsimp only
  split
  · split
    · exact (setTrem_reach _ _ s).trans (startGroup_reach _ _)
    · rfl
  · split
    · exact (setTrem_reach _ _ s).trans (stopGroup_reach _ _)
    · rfl

theorem takeBeat_reach (a : Station) (tag : Fin 16) (s : State) (g : Nat) : ReachTsu s (takeBeat a tag s g) := by
  unfold takeBeat
  split
  · rfl
  · split
    · exact (setTrem_reach _ _ s).trans (phase0At_reach _ _ _)
    · rfl

theorem offerBeat_reach (a : Station) (tag : Fin 16) (s : State) : ReachTsu s (offerBeat a tag s) :=
  foldl_reach ReachTsu ReachTsu.refl (fun _ _ _ => ReachTsu.trans) _ (fun s g => takeBeat_reach a tag s g) _ s

theorem shutterStep_reach (x : Nat) (s : State) : ReachTsu s (shutterStep x s) := by
  unfold shutterStep
  split
  · rfl
  · dsimp only
    split
    · exact (setShutter_reach _ _ s).trans (paHold_reach _ _).tsu
    · split
      · exact (setShutter_reach _ _ s).trans (paRelease_reach _ _).tsu
      · rfl

theorem judgePosition_reach (x p : Nat) (cfg : ShutterSet) (s : State) : ReachTsu s (judgePosition x p cfg s) := by
  unfold judgePosition
  dsimp only
  split
  · split
    · exact (setShutter_reach _ _ s).trans (shutterStep_reach _ _)
    · rfl
  · rfl

theorem takePair_reach (c shoe p : Nat) (s : State) (x : Nat) : ReachTsu s (takePair c shoe p s x) := by
  unfold takePair
  split
  · rfl
  · dsimp only
    split
    · exact (setShutter_reach _ _ s).trans (judgePosition_reach _ _ _ _)
    · rfl

theorem takePairs_reach (c : Nat) (pairs : List (Fin 8 × Byte)) (s : State) : ReachTsu s (takePairs c pairs s) := by
  unfold takePairs
  apply foldl_reach ReachTsu ReachTsu.refl (fun _ _ _ => ReachTsu.trans)
  intro s pair
  apply foldl_reach ReachTsu ReachTsu.refl (fun _ _ _ => ReachTsu.trans)
  intro s x
  exact takePair_reach _ _ _ _ _

theorem releaseShoes_reach (c : Nat) (s : State) : ReachTsu s (releaseShoes c s) :=
  foldl_reach ReachTsu ReachTsu.refl (fun _ _ _ => ReachTsu.trans) _
    (fun s x => by unfold releaseOwner; dsimp only; split <;> rfl) _ s

theorem tsuEnter_reach (s : State) : ReachTsu s (tsuEnter s) := by
  unfold tsuEnter
  refine ReachTsu.trans (foldl_reach ReachTsu ReachTsu.refl (fun _ _ _ => ReachTsu.trans) _ (fun s g => ?_) _ s)
    (foldl_reach ReachTsu ReachTsu.refl (fun _ _ _ => ReachTsu.trans) _ (fun s x => shutterStep_reach x s) _ _)
  unfold enterGroup
  split
  · exact startGroup_reach _ _
  · rfl

theorem tsuExit_reach (s : State) : ReachTsu s (tsuExit s) := by
  unfold tsuExit
  exact ReachTsu.trans (foldl_reach ReachTsu ReachTsu.refl (fun _ _ _ => ReachTsu.trans) _ (fun s _ => setTrem_reach _ _ s) _ s)
    (foldl_reach ReachTsu ReachTsu.refl (fun _ _ _ => ReachTsu.trans) _ (fun s _ => setShutter_reach _ _ s) _ _)

/-! ### DT and whole applications -/

/-- What an application reaches: DT, TSU, EE, the runners, PA, CC, LI, LL, PF's record, the rest timer and the count of
free orders. -/
def ReachApp (s t : State) : Prop :=
  t = { s with dt := t.dt, pa := t.pa, cc := t.cc, pf := s.pf.withRecord t.pf, li := t.li, ll := t.ll, ee := t.ee,
               tsu := t.tsu, ch := { s.ch with rest := t.ch.rest }, choices := t.choices }

theorem ReachApp.refl (s : State) : ReachApp s s := rfl

theorem ReachApp.trans {a b c : State} (h : ReachApp a b) (k : ReachApp b c) : ReachApp a c := by
  unfold ReachApp at *; rw [k, h]

theorem ReachTsu.app {s t : State} (h : ReachTsu s t) : ReachApp s t := by
  unfold ReachTsu at h; unfold ReachApp; rw [h]

theorem ReachTrig.app {s t : State} (h : ReachTrig s t) : ReachApp s t := by
  unfold ReachTrig at h; unfold ReachApp; rw [h]

theorem ReachPa.app {s t : State} (h : ReachPa s t) : ReachApp s t := h.ee.trig.app

/-- Two operations in either order reach what both reach. -/
theorem eitherOrder_reach (R : State → State → Prop) (trans : ∀ a b c, R a b → R b c → R a c)
    (counted : ∀ (s : State) (n : Nat), R s { s with choices := n }) {f g : State → State} (hf : ∀ s, R s (f s))
    (hg : ∀ s, R s (g s)) (s : State) : R s (eitherOrder f g s) := by
  unfold eitherOrder
  dsimp only
  refine trans _ _ _ (counted s (s.choices + 1)) ?_
  split
  · exact trans _ _ _ (hf _) (hg _)
  · exact trans _ _ _ (hg _) (hf _)

theorem takeDelta_reach (ready w : Bool) (x : State × AppLog) (d : Delta) : ReachApp x.1 (takeDelta ready w x d).1 := by
  obtain ⟨s, log⟩ := x
  unfold takeDelta
  dsimp only
  split
  · split
    · exact ReachApp.trans (b := { s with dt := { s.dt with pipe := _ } }) rfl (paOpen_reach _ _).app
    · split
      · exact ReachApp.trans (b := { s with dt := { s.dt with pipe := _ } }) rfl (paRelease_reach _ _).app
      · rfl
  · rfl
  · rfl
  · split <;> rfl
  · exact (groupDelta_reach _ _ _).app

theorem takeDeltas_reach (ready w : Bool) (l : List Delta) (x : State × AppLog) :
    ReachApp x.1 (l.foldl (takeDelta ready w) x).1 := by
  induction l generalizing x with
  | nil => exact .refl _
  | cons d rest ih => exact (takeDelta_reach ready w x d).trans (ih _)

theorem strikeBar_reach (o : Nat) (s : State) : ReachPa s (strikeBar o s) := paStrike_reach _ _ s

theorem actOnEffects_reach (l : List (Nat × Nat × Bool)) (s : State) : ReachApp s (actOnEffects l s) := by
  unfold actOnEffects
  apply foldl_reach ReachApp ReachApp.refl (fun _ _ _ => ReachApp.trans)
  intro s x
  exact ReachTrig.app (countMoved_reach _ _ _ s)

theorem closeApplication_reach (ready : Bool) (log : AppLog) (s : State) :
    ReachApp s (closeApplication ready log s) := by
  unfold closeApplication
  dsimp only
  generalize (if ready then log.bars else []) = bars
  split
  · exact eitherOrder_reach ReachApp (fun _ _ _ => ReachApp.trans) (fun _ _ => rfl)
      (f := forOutputs strikeBar bars) (fun s => (forOutputs_reach strikeBar_reach _ s).app) (actOnEffects_reach _) s
  · exact (forOutputs_reach strikeBar_reach _ s).app.trans (actOnEffects_reach _ _)

/-- What an application reaches. -/
theorem application_reach (w : Bool) (l : List Delta) (s : State) : ReachApp s (application w l s) := by
  unfold application
  exact (takeDeltas_reach _ _ l (s, _)).trans (closeApplication_reach _ _ _)

theorem startClocks_reach (s : State) : ReachApp s (startClocks s) :=
  foldl_reach ReachApp ReachApp.refl (fun _ _ _ => ReachApp.trans) _
    (fun s i => by split; · split <;> rfl
                   · rfl) _ s

theorem dtEnter_reach (s : State) : ReachApp s (dtEnter s) :=
  (startClocks_reach s).trans (forOutputs_reach paOpen_reach _ _).app

theorem dtExit_reach (s : State) : ReachApp s (dtExit s) := by
  unfold ReachApp dtExit
  rfl

theorem moveHold_reach (new : Option Hold) (s : State) : ReachApp s (moveHold new s) :=
  ReachApp.trans (b := { s with dt := { s.dt with tuning := new } }) rfl (application_reach _ _ _)

theorem endHold_reach (s : State) : ReachApp s (endHold s) := by
  unfold endHold
  split
  · rfl
  · exact moveHold_reach _ _

/-! ### CH -/

/-- What a change of the chamber state reaches: all that an application reaches, and all of CH. -/
def ReachCh (s t : State) : Prop :=
  t = { s with dt := t.dt, pa := t.pa, cc := t.cc, pf := s.pf.withRecord t.pf, li := t.li, ll := t.ll, ee := t.ee,
               tsu := t.tsu, ch := t.ch, choices := t.choices }

theorem ReachCh.refl (s : State) : ReachCh s s := rfl

theorem ReachCh.trans {a b c : State} (h : ReachCh a b) (k : ReachCh b c) : ReachCh a c := by
  unfold ReachCh at *; rw [k, h]

theorem ReachApp.ch {s t : State} (h : ReachApp s t) : ReachCh s t := by
  unfold ReachApp at h; unfold ReachCh; rw [h]

theorem ReachEe.ch {s t : State} (h : ReachEe s t) : ReachCh s t := h.trig.app.ch

theorem ReachLi.ch {s t : State} (h : ReachLi s t) : ReachCh s t := h.ee.ch

theorem ReachLl.ch {s t : State} (h : ReachLl s t) : ReachCh s t := h.ee.ch

theorem withChamber_reach (st : ChamberState) (s : State) : ReachCh s (s.withChamber st) := rfl

theorem exitNotices_reach (s : State) : ReachCh s (exitNotices s) := by
  unfold exitNotices
  refine ReachCh.trans ((paExit_reach s).pa.ee.ch.trans
    ((eeExit_reach _).ch.trans ((tsuExit_reach _).app.ch.trans (dtExit_reach _).ch))) ?_
  dsimp only
  generalize dtExit (tsuExit (eeExit (paExit s))) = u
  exact ReachCh.trans (b := { u with ch := { u.ch with rest := none } }) rfl (driveLamps_reach _ _).ch

/-- What a change of chamber state reaches. -/
theorem moveTo_reach (st : ChamberState) (s : State) : ReachCh s (moveTo st s) := by
  unfold moveTo
  dsimp only
  split
  · exact (withChamber_reach st s).trans ((exitNotices_reach _).trans (handPresence_reach _).ch)
  · exact (withChamber_reach st s).trans (handPresence_reach _).ch

theorem readyNotices_reach (s : State) : ReachCh s (readyNotices s) := by
  unfold readyNotices
  dsimp only
  refine ReachCh.trans (withChamber_reach .ready s) ?_
  refine ReachCh.trans (b := if (s.withChamber .ready).calledPipes ≠ [] ∧ (s.withChamber .ready).tsuAsks = true then
    eitherOrder dtEnter tsuEnter (s.withChamber .ready) else tsuEnter (dtEnter (s.withChamber .ready))) ?_
    ((restartRest_reach _).app.ch.trans (driveLamps_reach _ _).ch)
  split
  · exact eitherOrder_reach ReachCh (fun _ _ _ => ReachCh.trans) (fun _ _ => rfl) (fun s => (dtEnter_reach s).ch)
      (fun s => (tsuEnter_reach s).app.ch) _
  · exact (dtEnter_reach _).ch.trans (tsuEnter_reach _).app.ch

theorem enterReady_reach (s : State) : ReachCh s (enterReady s) :=
  (readyNotices_reach s).trans (handPresence_reach _).ch

theorem enterGathering_reach (s : State) : ReachCh s (enterGathering s) := by
  unfold enterGathering
  dsimp only
  refine (moveTo_reach .gathering s).trans ?_
  split
  · exact enterReady_reach _
  · rfl

theorem judgeGathering_reach (s : State) : ReachCh s (judgeGathering s) := by
  unfold judgeGathering
  split
  · exact ReachCh.trans (b := stopSync s) rfl (enterReady_reach _)
  · rfl

theorem chamberEnded_reach (sc : Script) (s : State) : ReachCh s (chamberEnded sc s) := by
  unfold chamberEnded
  split
  · split
    · split
      · exact enterGathering_reach _
      · exact enterReady_reach _
    · rfl
  · split
    · exact moveTo_reach _ _
    · rfl
  · split
    · exact ReachCh.trans (b := { s with ch := { s.ch with origin := .dark } }) rfl (moveTo_reach _ _)
    · rfl
  · rfl
  · rfl

theorem runChamber_reach (s : State) : ReachCh s (runChamber s) := by
  unfold runChamber
  split
  · rfl
  · next c _ =>
    split
    · have hp := runPass_reach 0 c s
      split
      · next e => rw [e] at hp; exact hp.ch.trans (ReachCh.trans rfl' (chamberEnded_reach _ _))
      · next e => rw [e] at hp; exact hp.ch.trans rfl'
    · rfl
where
  rfl' {r : Nat} {v : Option Context} {s : State} : ReachCh s (s.setRunner r v) := rfl

theorem setRunner_reach (r : Nat) (v : Option Context) (s : State) : ReachCh s (s.setRunner r v) := rfl

theorem startScript_reach (sc : Script) (entry : Option Nat) (s : State) : ReachCh s (startScript sc entry s) := by
  unfold startScript
  split
  · exact (setRunner_reach _ _ s).trans (chamberEnded_reach _ _)
  · exact (setRunner_reach _ _ s).trans (runChamber_reach _)

theorem enterDarkening_reach (s : State) : ReachCh s (enterDarkening s) := by
  unfold enterDarkening
  refine ReachCh.trans (b := stopSync (s.setRunner 0 none)) rfl ?_
  exact (moveTo_reach _ _).trans (startScript_reach _ _ _)

theorem admitWake_reach (s : State) : ReachCh s (admitWake s) := by
  unfold admitWake
  dsimp only
  refine ReachCh.trans (b := { s.setRunner 0 none with ch := { s.ch with
    origin := if s.ch.state = .dark then Origin.dark else .other } }) rfl ?_
  exact (moveTo_reach _ _).trans (startScript_reach _ _ _)

theorem offerWake_reach (c : WakeCause) (s : State) : ReachCh s (offerWake c s) := by
  unfold offerWake
  split
  · exact admitWake_reach _
  · rfl

theorem enterSettling_reach (s : State) : ReachCh s (enterSettling s) :=
  (moveTo_reach _ s).trans (startScript_reach _ _ _)

theorem wakeTimeout_reach (l i : Nat) (s : State) : ReachCh s (wakeTimeout l i s) :=
  (reportFault_reach _ _ _ s).pa.ee.ch.trans (enterDarkening_reach _)

theorem pressureLoss_reach (l : Nat) (s : State) : ReachCh s (pressureLoss l s) := by
  unfold pressureLoss
  dsimp only
  split
  · refine (reportFault_reach .pressureLost l (ChamberState.code .ready) s).pa.ee.ch.trans ?_
    refine ReachCh.trans (b := { (reportFault .pressureLost l (ChamberState.code .ready) s) with
      ch := { (reportFault .pressureLost l (ChamberState.code .ready) s).ch with origin := .other } }) rfl ?_
    exact (moveTo_reach _ _).trans (startScript_reach _ _ _)
  · split
    · refine (reportFault_reach .pressureLost l (ChamberState.code .gathering) s).pa.ee.ch.trans ?_
      refine ReachCh.trans (b := stopSync (reportFault .pressureLost l (ChamberState.code .gathering) s)) rfl ?_
      exact (moveTo_reach _ _).trans (startScript_reach _ _ _)
    · rfl

theorem syncShort_reach (s : State) : ReachCh s (syncShort s) := by
  unfold syncShort
  split
  · exact ReachCh.trans (b := stopSync s) rfl (enterReady_reach _)
  · refine ReachCh.trans (b := stopSync s) rfl ((readyNotices_reach _).trans ?_)
    exact (reportFault_reach _ _ _ _).pa.ee.ch.trans (handPresence_reach _).ch

theorem restExpires_reach (s : State) : ReachCh s (restExpires s) := by
  unfold restExpires
  split
  · exact enterSettling_reach _
  · exact (restartRest_reach _).app.ch

end Sys2Proof.Machine
end

