-- ==== Sys2Proof/Laws/ReachKeyboard.lean ====
section
/-! SUPPORT. What the operations of KM can touch, said once. -/

namespace Sys2Proof.Machine

/-- What KM reaches: its own state and all that a change of the chamber state reaches. The clock, the profile, PT, the
station, tag and cause of PF and the queue of commands stand. -/
def ReachKm (s t : State) : Prop :=
  t = { s with km := t.km, dt := t.dt, pa := t.pa, cc := t.cc, pf := s.pf.withRecord t.pf, li := t.li, ll := t.ll,
               ee := t.ee, tsu := t.tsu, ch := t.ch, choices := t.choices }

theorem ReachKm.refl (s : State) : ReachKm s s := rfl

theorem ReachKm.trans {a b c : State} (h : ReachKm a b) (k : ReachKm b c) : ReachKm a c := by
  unfold ReachKm at *; rw [k, h]

theorem ReachCh.km {s t : State} (h : ReachCh s t) : ReachKm s t := by
  unfold ReachCh at h; unfold ReachKm; rw [h]

theorem ReachApp.km {s t : State} (h : ReachApp s t) : ReachKm s t := h.ch.km

theorem ReachTrig.km {s t : State} (h : ReachTrig s t) : ReachKm s t := h.app.km

theorem ReachTsu.km {s t : State} (h : ReachTsu s t) : ReachKm s t := h.app.km

theorem ReachPa.km {s t : State} (h : ReachPa s t) : ReachKm s t := h.app.km

/-- A fold of operations that reach no more than KM does. -/
theorem fold_reachKm {α : Type} (f : State → α → State) (hf : ∀ s x, ReachKm s (f s x)) (l : List α) (s : State) :
    ReachKm s (l.foldl f s) :=
  foldl_reach ReachKm ReachKm.refl (fun _ _ _ => ReachKm.trans) f hf l s

theorem removePizz_reach (d k : Nat) (s : State) : ReachKm s (removePizz d k s) := rfl

theorem pizzExpiry_reach (d k : Nat) (s : State) : ReachKm s (pizzExpiry d k s) :=
  (application_reach _ _ s).km.trans (removePizz_reach _ _ _)

theorem makeRoom_reach (s : State) : ReachKm s (makeRoom s) := by
  unfold makeRoom
  split
  · split
    · exact pizzExpiry_reach _ _ _
    · rfl
  · rfl

theorem createPizz_reach (d k : Nat) (s : State) : ReachKm s (createPizz d k s) := by
  unfold createPizz
  dsimp only
  exact ReachKm.trans (makeRoom_reach s) rfl

theorem studDeltas_reach (k : Nat) (old new : Touch) (s : State) : ReachKm s (studDeltas k old new s) := by
  unfold studDeltas
  split
  · exact fold_reachKm _ (fun s e => (studDelta_reach e true s).km) _ s
  · split
    · exact fold_reachKm _ (fun s e => (studDelta_reach e false s).km) _ s
    · rfl

theorem mergedChange_reach (allOff : Bool) (d k : Nat) (old new : Touch) (s : State) :
    ReachKm s (mergedChange allOff d k old new s) := by
  unfold mergedChange
  dsimp only
  have setMerged : ReachKm s { s with km := { s.km with merged := s.km.merged.set (cell d k) new } } := rfl
  refine setMerged.trans ?_
  generalize { s with km := { s.km with merged := s.km.merged.set (cell d k) new } } = a
  have created : ReachKm a (if new = .second then createPizz d k a else a) := by
    split
    · exact createPizz_reach _ _ _
    · rfl
  generalize a.hasPizz d k = before
  refine created.trans ?_
  generalize (if new = .second then createPizz d k a else a) = b
  have removed : ReachKm b (if old = .second then removePizz d k b else b) := by
    split
    · exact removePizz_reach _ _ _
    · rfl
  refine removed.trans ?_
  generalize (if old = .second then removePizz d k b else b) = c
  refine (application_reach allOff (mergedDeltas c.prof c.km.stopOn d k old new before (c.hasPizz d k)) c).km.trans ?_
  generalize application allOff (mergedDeltas c.prof c.km.stopOn d k old new before (c.hasPizz d k)) c = e
  have studs : ReachKm e (if d = 7 ∧ allOff = false then studDeltas k old new e else e) := by
    split
    · exact studDeltas_reach _ _ _ _
    · rfl
  refine studs.trans ?_
  generalize (if d = 7 ∧ allOff = false then studDeltas k old new e else e) = f
  refine (restartRest_reach f).km.trans ?_
  split
  · exact (offerWake_reach _ _).km
  · rfl

theorem remerge_reach (allOff : Bool) (d k : Nat) (s : State) : ReachKm s (remerge allOff d k s) := by
  unfold remerge
  dsimp only
  split
  · rfl
  · exact mergedChange_reach _ _ _ _ _ _

theorem setSlot_reach (c : Nat) (v : Slot) (s : State) : ReachKm s (s.setSlot c v) := rfl

theorem setSlotTouch_reach (c d k : Nat) (v : Touch) (s : State) : ReachKm s (s.setSlotTouch c d k v) := rfl

theorem setTouch_reach (c d k : Nat) (v : Touch) (s : State) : ReachKm s (setTouch c d k v s) := by
  unfold setTouch
  split
  · rfl
  · exact (setSlotTouch_reach _ _ _ _ s).trans (remerge_reach _ _ _ _)

theorem refuseConsole_reach (a : Station) (detail : Nat) (s : State) : ReachKm s (refuseConsole a detail s) := by
  unfold refuseConsole
  split
  · rfl
  · exact ReachKm.trans (b := { s with km := { s.km with refused := s.km.refused.set a.val true } }) rfl
      (reportFault_reach _ _ _ _).pa.km

theorem withSlot_reach (a : Station) (detail : Nat) {apply : Nat → State → State} (h : ∀ c s, ReachKm s (apply c s))
    (s : State) : ReachKm s (withSlot a detail apply s) := by
  unfold withSlot
  split
  · exact h _ _
  · split
    · exact (setSlot_reach _ _ s).trans (h _ _)
    · exact refuseConsole_reach _ _ _

theorem keyChange_reach (c d : Nat) (s : State) (x : Fin 64 × BitVec 2) : ReachKm s (keyChange c d s x) := by
  unfold keyChange
  split
  · exact setTouch_reach _ _ _ _ _
  · rfl

theorem snapKeys_reach (c d : Nat) (codes : List (BitVec 2)) (s : State) : ReachKm s (snapKeys c d codes s) := by
  unfold snapKeys
  exact fold_reachKm _ (fun s k => setTouch_reach _ _ _ _ _) _ s

theorem stopChange_reach (s : State) (x : Fin 1024 × Bool) : ReachKm s (stopChange s x) := by
  unfold stopChange
  dsimp only
  split
  · refine ReachKm.trans (b := { s with km := { s.km with stopOn := s.km.stopOn.set x.1.val x.2 } }) rfl ?_
    exact (application_reach _ _ _).km.trans (restartRest_reach _).km
  · rfl

theorem dropDivision_reach (c : Nat) (s : State) (d : Nat) : ReachKm s (dropDivision c s d) := by
  unfold dropDivision
  exact fold_reachKm _ (fun s k => setTouch_reach _ _ _ _ _) _ s

theorem endHoldOf_reach (a : Station) (s : State) : ReachKm s (endHoldOf a s) := by
  unfold endHoldOf
  split
  · exact (endHold_reach _).km
  · rfl

theorem consoleLoss_reach (a : Station) (c : Nat) (s : State) : ReachKm s (consoleLoss a c s) := by
  unfold consoleLoss
  have lost := ((fold_reachKm _ (dropDivision_reach c) (List.range 8) s).trans (releaseShoes_reach c _).km).trans
    ((endHoldOf_reach a _).trans (setSlot_reach c { station := none, touch := .empty } _))
  dsimp only
  split
  · exact lost.trans (reportFault_reach _ _ _ _).pa.km
  · exact lost

theorem stationLost_reach (a : Station) (s : State) : ReachKm s (stationLost a s) := by
  unfold stationLost
  dsimp only
  refine ReachKm.trans (b := { s with km := { s.km with refused := s.km.refused.set a.val false } }) rfl ?_
  split
  · exact consoleLoss_reach _ _ _
  · exact endHoldOf_reach _ _

theorem allOffKey_reach (d : Nat) (s : State) (k : Nat) : ReachKm s (allOffKey d s k) := by
  unfold allOffKey
  split
  · rfl
  · exact (fold_reachKm _ (fun s c => setSlotTouch_reach _ _ _ _ s) _ s).trans (remerge_reach _ _ _ _)

theorem allOffDivision_reach (s : State) (d : Nat) : ReachKm s (allOffDivision s d) := by
  unfold allOffDivision
  exact fold_reachKm _ (fun s k => allOffKey_reach d s k) _ s

theorem allOff_reach (s : State) : ReachKm s (allOff s) := by
  unfold allOff
  exact (eeAllOff_reach s).trig.km.trans
    ((fold_reachKm _ (fun s d => allOffDivision_reach s d) _ _).trans (endHold_reach _).km)

end Sys2Proof.Machine
end

