-- ==== Sys2Proof/Laws/Taken.lean ====
section
/-! SUPPORT. A command that the part takes: what `taken` and `frame` come to in a state that takes commands. -/

namespace Sys2Proof.Machine

/-- Runner 0 does nothing where no pass of it is due. -/
theorem runChamber_waits {s : State} (h : ∀ c, s.runner 0 = some c → c.waiting ≠ .running) : runChamber s = s := by
  unfold runChamber
  split
  · rfl
  · next c e => rw [if_neg (h c e)]

/-- A command that is taken, with the pass of runner 0 that it may make due. -/
theorem taken_eq {t : Nat} {f : State → State} {s : State} (h : s.takes) :
    taken t f s = .next (runChamber (f (s.at t))) := by
  unfold taken
  have held : (s.arrive t).pf.held = false := h.1
  simp only [held]
  rfl

/-- A command that leaves runner 0 as it was is its effect alone. -/
theorem taken_run {t : Nat} {f : State → State} {s : State} (h : s.takes)
    (k : (f (s.at t)).runner 0 = s.runner 0) : taken t f s = .next (f (s.at t)) := by
  rw [taken_eq h, runChamber_waits]
  rw [k]
  exact h.2

/-- Hearing a frame's sender, as the statements say it. -/
theorem heard_at (t : Nat) (a : Station) (s : State) : heard a (s.at t) = s.hearing t a := rfl

/-- A checked frame that is taken, with the pass of runner 0 that it may make due. -/
theorem frame_eq {t : Nat} {a : Station} {f : State → State} {s : State} (h : s.listens) :
    frame t a f s = .next (runChamber (f (s.hearing t a))) := by
  unfold frame
  have hp : (s.at t).ch.state ≠ .profileFault := h.2
  rw [taken_eq h.1, if_neg hp, heard_at]

/-- A checked frame that leaves runner 0 as it was is its effect alone. -/
theorem frame_run {t : Nat} {a : Station} {f : State → State} {s : State} (h : s.listens)
    (k : (f (s.hearing t a)).runner 0 = s.runner 0) : frame t a f s = .next (f (s.hearing t a)) := by
  rw [frame_eq h, runChamber_waits]
  rw [k]
  exact h.1.2

/-- In PROFILE_FAULT no frame is taken. -/
theorem frame_profileFault {t : Nat} {a : Station} {f : State → State} {s : State} (h : s.takes)
    (hp : s.ch.state = .profileFault) : frame t a f s = .next (s.at t) := by
  unfold frame
  have hs : (s.at t).ch.state = .profileFault := hp
  rw [taken_run h] <;> rw [if_pos hs]
  rfl

/-- From acceptance onward an accepted frame has its effect. -/
theorem accepted_run {f : State → State} {s : State} (h : s.profile.isSome = true) : accepted f s = f s := by
  unfold accepted
  rw [if_pos h]

/-- A running timer whose moment has come has run out. -/
theorem expired_iff (s : State) (timer : Option Nat) : s.expired timer = true ↔ dueAt s.now timer := by
  unfold State.expired dueAt
  cases timer with
  | none => simp
  | some due => simp

/-- A station's silence timer is over exactly when the station is HEARD and its timer has run out. -/
theorem silenceOver_iff (s : State) (a : Station) :
    s.silenceOver a = true ↔ (s.peer a).state = .heard ∧ dueAt s.now (s.peer a).silence := by
  unfold State.silenceOver
  rw [Bool.and_eq_true, decide_eq_true_eq, expired_iff]

/-- What a loss leaves of the entry: LOST where the timer has run out, and where a frame of this moment met its end, the
entry as that frame left it, without a state announced before (R37, R59, R168). -/
theorem entryAtLoss_iff {s : State} {a : Station} {v : Peer} :
    s.entryAtLoss a = some v ↔
      (s.silenceOver a = true ∧ v = .declaredLost) ∨
        (s.silenceOver a = false ∧ ∃ x, (s.peer a).crossed = some x ∧ x.moment = s.now ∧
          v = { s.peer a with announced := if x.presence then (s.peer a).announced else none, crossed := none }) := by
  unfold State.entryAtLoss Peer.crossedLoss
  cases s.silenceOver a with
  | true => simp [eq_comm (a := v)]
  | false =>
    cases (s.peer a).crossed with
    | none => simp
    | some x =>
      by_cases m : x.moment = s.now <;> simp [m, eq_comm (a := v)]

end Sys2Proof.Machine
end

