-- ==== Sys2Proof/Laws/Pass.lean ====
section
/-! SUPPORT. Setting a table's key twice, and a pass that begins with a WAIT. -/

namespace Sys2Proof.Machine

/-- The entries without a key, after an entry of that key has been put among them. -/
theorem eraseIn_putIn {α : Type} (k : Nat) (v : α) (l : List (Nat × α)) (h : ∀ e ∈ l, e.1 ≠ k) :
    eraseIn k (putIn k v l) = l := by
  induction l with
  | nil => simp [putIn, eraseIn]
  | cons x xs ih =>
    obtain ⟨k', v'⟩ := x
    have hk : k' ≠ k := h _ List.mem_cons_self
    have hxs := ih (fun e he => h e (List.mem_cons_of_mem _ he))
    have hf : xs.filter (fun e => e.1 != k) = xs :=
      List.filter_eq_self.2 fun e he => by simpa using h e (List.mem_cons_of_mem _ he)
    unfold putIn
    split
    · simp [eraseIn, hk, hf]
    · simp only [eraseIn] at hxs ⊢
      simp [hk, hxs]

/-- The second of two writes to one key stands. -/
@[simp] theorem Table.set_set {α : Type} [Inhabited α] [DecidableEq α] (m : Table α) (k : Nat) (a b : α) :
    (m.set k a).set k b = m.set k b := by
  have gone : ∀ l : List (Nat × α), eraseIn k (eraseIn k l) = eraseIn k l := by
    intro l
    simp [eraseIn, List.filter_filter]
  have same : eraseIn k (m.set k a).entries = eraseIn k m.entries := by
    unfold Table.set
    split
    · exact gone _
    · exact eraseIn_putIn k a _ (eraseIn_ne k m.entries)
  unfold Table.set at same ⊢
  split <;> simp_all

@[simp] theorem State.setRunner_setRunner (r : Nat) (a b : Option Context) (s : State) :
    (s.setRunner r a).setRunner r b = s.setRunner r b := by
  simp [State.setRunner]

/-- A context after it has taken a WAIT step (R107). -/
def Context.nowWaiting (c : Context) (until_ : Nat) : Context := { c with waiting := .wait (.due until_), tally := 0 }

/-- A pass that begins with a WAIT ends there (R105, R107). -/
theorem runPass_wait (r : Nat) (c : Context) (d : Nat) (s : State) (h : s.prof.steps[c.index]? = some (.wait d)) :
    runPass r c s = (.waits, c.nowWaiting (s.now + ms d), s) := by
  unfold runPass takeSteps takeStep
  simp only [h, beginsToWait, Context.nowWaiting]

/-- A due pass of an effect runner that begins with a WAIT. -/
theorem runEffect_wait (r : Nat) (c : Context) (d : Nat) (s : State) (due : c.waiting = .running)
    (h : s.prof.steps[c.index]? = some (.wait d)) :
    runEffect r c s = s.setRunner r (some (c.nowWaiting (s.now + ms d))) := by
  unfold runEffect
  rw [if_pos due]
  unfold handOns runOn
  have h' : (s.setRunner r (some c)).prof.steps[c.index]? = some (.wait d) := h
  rw [runPass_wait _ _ d _ h']
  simp only [State.setRunner_setRunner]
  rfl

/-- A runner whose wait is over, at a WAIT step (R105, R107). -/
theorem resumePass_wait (r : Nat) (c : Context) (d : Nat) (s : State)
    (h : s.prof.steps[c.index + 1]? = some (.wait d)) :
    resumePass r c s = s.setRunner r (some (c.resumed.nowWaiting (s.now + ms d))) := by
  unfold resumePass
  split
  · next h0 =>
    subst h0
    unfold runChamber
    have due : c.resumed.waiting = .running := rfl
    simp only [State.runner_setRunner_self, due, if_true]
    have h' : (s.setRunner 0 (some c.resumed)).prof.steps[c.resumed.index]? = some (.wait d) := h
    rw [runPass_wait _ _ d _ h']
    simp only [State.setRunner_setRunner]
    rfl
  · exact runEffect_wait _ _ _ _ rfl h

end Sys2Proof.Machine
end

