-- ==== Sys2Proof/Laws/Passes.lean ====
section
/-! SUPPORT. A pass of a runner, step by step (R105, R106), the steps an entry reaches (R102), and the window of an
output where no two windows share one (R2). -/

namespace Sys2Proof.Machine

/-! ### Steps and passes -/

/-- R106: a non-waiting step is counted; the sixteenth is a runaway. -/
theorem tallied_eq (r i : Nat) (c : Context) (s : State) :
    tallied r i c s =
      if c.tally < 15 then (.going, { c with tally := c.tally + 1 }, s)
      else (.ended, { c with tally := c.tally + 1 }, { s with pf := s.pf.recording .scriptRunaway r i }) := by
  unfold tallied
  by_cases h : c.tally < 15
  · rw [if_pos h]
    exact if_pos (by show c.tally + 1 < 16; omega)
  · rw [if_neg h]
    exact if_neg (by show ¬ c.tally + 1 < 16; omega)

/-- After a non-waiting step the pass goes on with the tally one higher, below 16, or the script has ended. -/
theorem tallied_going {r i : Nat} {c c' : Context} {s s' : State} (h : tallied r i c s = (.going, c', s')) :
    c'.tally = c.tally + 1 ∧ c.tally < 15 := by
  rw [tallied_eq] at h
  split at h
  · cases h; exact ⟨rfl, ‹_›⟩
  · cases h

@[simp] theorem Context.setRegister_tally (c : Context) (v : Option Nat) (reg : Register) :
    (c.setRegister v reg).tally = c.tally := by
  cases reg <;> rfl

@[simp] theorem Context.loop_tally (c : Context) (target count : Nat) (reg : Register) (endless : Bool) :
    (c.loop target count reg endless).tally = c.tally := by
  unfold Context.loop
  simp only
  repeat' split
  all_goals simp

/-- R106: a step after which the pass goes on has raised the tally by one, to 15 at the most. -/
theorem takeStep_going {r : Nat} {c c' : Context} {s s' : State} (h : takeStep r c s = (.going, c', s')) :
    c'.tally = c.tally + 1 ∧ c.tally < 15 := by
  unfold takeStep at h
  simp only at h
  repeat' split at h
  all_goals first
    | exact absurd h (by simp [beginsToWait])
    | exact tallied_going h
    | simpa using tallied_going h

/-- Steps that make a pass are taken within their number. -/
theorem takeSteps_of_passTo {r : Nat} {c c' : Context} {s s' : State} {e : PassEnd} (h : PassTo r c s e c' s') :
    ∀ n, 1 ≤ n → 16 ≤ n + c.tally → takeSteps r n c s = (e, c', s') := by
  induction h with
  | stop step ends =>
    intro n low _
    obtain ⟨m, rfl⟩ : ∃ m, n = m + 1 := ⟨n - 1, by omega⟩
    unfold takeSteps
    rw [step]
    split
    · next going => cases going; exact absurd rfl ends
    · rfl
  | onward step _ rest =>
    intro n low enough
    obtain ⟨tally, few⟩ := takeStep_going step
    obtain ⟨m, rfl⟩ : ∃ m, n = m + 1 := ⟨n - 1, by omega⟩
    unfold takeSteps
    rw [step]
    exact rest m (by omega) (by omega)

/-- R105, R106: what a pass comes to is what the model's bounded pass answers. -/
theorem runPass_of_passTo {r : Nat} {c c' : Context} {s s' : State} {e : PassEnd} (h : PassTo r c s e c' s') :
    runPass r c s = (e, c', s') :=
  takeSteps_of_passTo h 17 (by omega) (by omega)

/-! ### The steps an entry reaches -/

/-- R102: at most two steps follow one. -/
theorem successors_length (steps : List ScriptStep) (i : Nat) : (successors steps i).length ≤ 2 := by
  unfold successors
  split <;> simp

/-- A walk that has seen `seen` and has `work` before it, and steps enough, answers a set that holds the stored steps of
both and every stored step that follows one of its own. -/
theorem reachFrom_closed (steps : List ScriptStep) : ∀ (n : Nat) (work seen : List Nat), seen.Nodup →
    (∀ i ∈ seen, i < steps.length) → work.length + 2 * (steps.length - seen.length) ≤ n →
    (∀ i ∈ seen, ∀ k ∈ successors steps i, k < steps.length → k ∈ seen ∨ k ∈ work) →
    let out := reachFrom steps n work seen
    (∀ i ∈ seen, i ∈ out) ∧ (∀ i ∈ work, i < steps.length → i ∈ out) ∧
      ∀ i ∈ out, ∀ k ∈ successors steps i, k < steps.length → k ∈ out := by
  have empty : ∀ (n : Nat) (seen : List Nat), reachFrom steps n [] seen = seen := by
    intro n seen
    cases n <;> rfl
  intro n
  induction n with
  | zero =>
    intro work seen _ _ room closed
    obtain rfl : work = [] := List.eq_nil_of_length_eq_zero (by omega)
    simp only [empty]
    exact ⟨fun i h => h, fun i h => (by cases h), fun i h k hk low => (closed i h k hk low).resolve_right (by simp)⟩
  | succ n ih =>
    intro work seen once stored room closed
    cases work with
    | nil =>
      simp only [empty]
      exact ⟨fun i h => h, fun i h => (by cases h), fun i h k hk low => (closed i h k hk low).resolve_right (by simp)⟩
    | cons i work =>
      simp only [List.length_cons] at room
      unfold reachFrom
      split
      · next known =>
        obtain ⟨kept, met, done⟩ := ih work seen once stored (by omega) fun j hj k hk low => by
          rcases closed j hj k hk low with h | h
          · exact .inl h
          · rcases List.mem_cons.1 h with rfl | h
            · exact .inl (known.resolve_right (by omega))
            · exact .inr h
        refine ⟨kept, fun j hj low => ?_, done⟩
        rcases List.mem_cons.1 hj with rfl | hj
        · exact kept _ (known.resolve_right (by omega))
        · exact met j hj low
      · next fresh =>
        obtain ⟨new, low⟩ : i ∉ seen ∧ i < steps.length := by
          constructor
          · exact fun h => fresh (.inl h)
          · exact Nat.lt_of_not_le fun h => fresh (.inr h)
        have once' : (i :: seen).Nodup := List.nodup_cons.2 ⟨new, once⟩
        have stored' : ∀ j ∈ i :: seen, j < steps.length := by
          intro j hj
          rcases List.mem_cons.1 hj with rfl | hj
          · exact low
          · exact stored j hj
        have fits : (i :: seen).length ≤ steps.length := by
          have h := (List.subperm_of_subset once' (l₂ := List.range steps.length)
            fun j hj => List.mem_range.2 (stored' j hj)).length_le
          simpa using h
        have two := successors_length steps i
        simp only [List.length_cons] at fits
        obtain ⟨kept, met, done⟩ := ih (successors steps i ++ work) (i :: seen) once' stored'
          (by simp only [List.length_append, List.length_cons]; omega)
          fun j hj k hk lowk => by
            rcases List.mem_cons.1 hj with rfl | hj
            · exact .inr (List.mem_append_left _ hk)
            · rcases closed j hj k hk lowk with h | h
              · exact .inl (List.mem_cons_of_mem _ h)
              · rcases List.mem_cons.1 h with rfl | h
                · exact .inl List.mem_cons_self
                · exact .inr (List.mem_append_right _ h)
        refine ⟨fun j hj => kept j (List.mem_cons_of_mem _ hj), fun j hj lowj => ?_, done⟩
        rcases List.mem_cons.1 hj with rfl | hj
        · exact kept _ List.mem_cons_self
        · exact met j (List.mem_append_right _ hj) lowj

/-- R102, R103: where every step that an entry reaches is stored, the check of the image finds each of them. -/
theorem Profile.Reaches.mem_reachable {p : Profile} {i j : Nat} (h : p.Reaches i j)
    (stored : ∀ k, p.Reaches i k → k < p.steps.length) : j ∈ reachable p.steps (some i) := by
  obtain ⟨_, met, closed⟩ := reachFrom_closed p.steps (2 * p.steps.length + 1) [i] [] List.nodup_nil
    (fun _ h => (by cases h)) (by simp only [List.length_cons, List.length_nil]; omega) (fun _ h => (by cases h))
  show j ∈ reachFrom p.steps (2 * p.steps.length + 1) [i] []
  induction h with
  | here => exact met i List.mem_cons_self (stored i (.here i))
  | onward before step ih => exact closed _ ih _ step (stored _ (.onward before step))

/-! ### The window of an output -/

/-- R2: where no two windows share an output, the window that contains an output is its window. -/
theorem Profile.InRange.windowOf {p : Profile} (h : p.InRange) {w : Window} {o : Nat} (m : w ∈ p.windows)
    (c : w.contains o = true) : p.windowOf o = some w := by
  have apart := h.disjoint
  unfold Profile.windowOf
  revert m apart
  generalize p.windows = l
  intro m apart
  induction l with
  | nil => cases m
  | cons v rest ih =>
    rw [List.find?_cons]
    rcases List.mem_cons.1 m with rfl | later
    · rw [c]
    · have no : v.contains o = false := by
        cases hv : v.contains o with
        | false => rfl
        | true => rw [List.rel_of_pairwise_cons apart later o hv] at c; cases c
      rw [no]
      exact ih later (List.Pairwise.of_cons apart)

/-- R103: an output of a TRAP window of a claim group is an output of kind TRAP. -/
theorem Profile.InRange.trap {p : Profile} (h : p.InRange) {g o : Nat} (t : inTrapOf p.windows g o = true) :
    (p.windowOf o).map (·.kind) = some .trap := by
  unfold inTrapOf at t
  obtain ⟨w, m, c⟩ := List.any_eq_true.1 t
  simp only [Bool.and_eq_true, beq_iff_eq] at c
  rw [h.windowOf m c.2, Option.map_some, c.1.1]

/-- R117, R125: an output of an AUX window is an output of kind AUX. -/
theorem Profile.InRange.aux {p : Profile} (h : p.InRange) {o : Nat} (t : inAux p.windows o = true) :
    (p.windowOf o).map (·.kind) = some .aux := by
  unfold inAux at t
  obtain ⟨w, m, c⟩ := List.any_eq_true.1 t
  simp only [Bool.and_eq_true, beq_iff_eq] at c
  rw [h.windowOf m c.2, Option.map_some, c.1]

end Sys2Proof.Machine
end

