-- ==== Sys2Proof/Laws/PerInstr.lean ====
section
/-! SUPPORT. What holds of every command as syntax, one lemma for each constructor. -/

namespace Sys2Proof.Laws

open Sys2Proof.Machine

/-- The commands that are checked frames are those that have a sender, and the frame laid out for one carries that
sender in its claim byte (R153). -/
def SenderOfFrame.Statement (i : Instr) : Prop := (partsFor i).map (·.sender) = i.sender

theorem SenderOfFrame.powerOn (t : Nat) (straps : Station) :
    SenderOfFrame.Statement (.powerOn t straps) := rfl

theorem SenderOfFrame.pinReset (t : Nat) (straps : Station) :
    SenderOfFrame.Statement (.pinReset t straps) := rfl

theorem SenderOfFrame.profileLoadEnd (t : Nat) (image : List Byte) :
    SenderOfFrame.Statement (.profileLoadEnd t image) := rfl

theorem SenderOfFrame.lineCheck (t : Nat) (sender : Station) (reason : CheckReason) :
    SenderOfFrame.Statement (.lineCheck t sender reason) := rfl

theorem SenderOfFrame.alloff (t : Nat) (sender : Station) :
    SenderOfFrame.Statement (.alloff t sender) := rfl

theorem SenderOfFrame.restart (t : Nat) (sender : Station) (mask : BitVec 16) (straps : Station) :
    SenderOfFrame.Statement (.restart t sender mask straps) := rfl

theorem SenderOfFrame.keys (t : Nat) (sender : Station) (division : Fin 8) (changes : List (Fin 64 × BitVec 2)) :
    SenderOfFrame.Statement (.keys t sender division changes) := rfl

theorem SenderOfFrame.snap (t : Nat) (sender : Station) (division : Fin 8) (codes : List (BitVec 2)) :
    SenderOfFrame.Statement (.snap t sender division codes) := rfl

theorem SenderOfFrame.shoe (t : Nat) (sender : Station) (pairs : List (Fin 8 × Byte)) :
    SenderOfFrame.Statement (.shoe t sender pairs) := rfl

theorem SenderOfFrame.beat (t : Nat) (sender : Station) (tag : Fin 16) :
    SenderOfFrame.Statement (.beat t sender tag) := rfl

theorem SenderOfFrame.mark (t : Nat) (sender : Station) (mark : Fin 64) :
    SenderOfFrame.Statement (.mark t sender mark) := rfl

theorem SenderOfFrame.stops (t : Nat) (sender : Station) (changes : List (Fin 1024 × Bool)) :
    SenderOfFrame.Statement (.stops t sender changes) := rfl

theorem SenderOfFrame.chamberWake (t : Nat) (sender : Station) (mask : BitVec 16) :
    SenderOfFrame.Statement (.chamberWake t sender mask) := rfl

theorem SenderOfFrame.chamberRest (t : Nat) (sender : Station) (mask : BitVec 16) :
    SenderOfFrame.Statement (.chamberRest t sender mask) := rfl

theorem SenderOfFrame.chamberDark (t : Nat) (sender : Station) (mask : BitVec 16) :
    SenderOfFrame.Statement (.chamberDark t sender mask) := rfl

theorem SenderOfFrame.tune (t : Nat) (sender : Station) (station : Station) (output : BitVec 16) :
    SenderOfFrame.Statement (.tune t sender station output) := rfl

theorem SenderOfFrame.clear (t : Nat) (sender : Station) (mask : BitVec 16) :
    SenderOfFrame.Statement (.clear t sender mask) := rfl

theorem SenderOfFrame.ask (t : Nat) (sender : Station) (station : Station) :
    SenderOfFrame.Statement (.ask t sender station) := rfl

theorem SenderOfFrame.presence (t : Nat) (sender : Station) (role state flags : Byte) (tag : BitVec 16) :
    SenderOfFrame.Statement (.presence t sender role state flags tag) := rfl

theorem SenderOfFrame.reportReceived (t : Nat) (sender : Station) (payload : List Byte) :
    SenderOfFrame.Statement (.reportReceived t sender payload) := rfl

theorem SenderOfFrame.silenceTimerExpiry (t : Nat) (station : Station) :
    SenderOfFrame.Statement (.silenceTimerExpiry t station) := rfl

theorem SenderOfFrame.pizzicatoExpiry (t : Nat) (division : Fin 8) (key : Fin 64) :
    SenderOfFrame.Statement (.pizzicatoExpiry t division key) := rfl

theorem SenderOfFrame.reiterationClockEdge (t : Nat) (window : Fin 32) :
    SenderOfFrame.Statement (.reiterationClockEdge t window) := rfl

theorem SenderOfFrame.pullInEnd (t : Nat) (output : Fin 1536) :
    SenderOfFrame.Statement (.pullInEnd t output) := rfl

theorem SenderOfFrame.strikeEnd (t : Nat) (output : Fin 1536) :
    SenderOfFrame.Statement (.strikeEnd t output) := rfl

theorem SenderOfFrame.shiftEnd (t : Nat) (chain : Fin 4) (returned : List Bool) :
    SenderOfFrame.Statement (.shiftEnd t chain returned) := rfl

theorem SenderOfFrame.refreshTimerExpiry (t : Nat) (chain : Fin 4) :
    SenderOfFrame.Statement (.refreshTimerExpiry t chain) := rfl

theorem SenderOfFrame.waitEnd (t : Nat) (runner : Fin 8) :
    SenderOfFrame.Statement (.waitEnd t runner) := rfl

theorem SenderOfFrame.awaitTimeout (t : Nat) (runner : Fin 8) :
    SenderOfFrame.Statement (.awaitTimeout t runner) := rfl

theorem SenderOfFrame.awaitlineTimeout (t : Nat) :
    SenderOfFrame.Statement (.awaitlineTimeout t) := rfl

theorem SenderOfFrame.phase0 (t : Nat) (group : Fin 4) :
    SenderOfFrame.Statement (.phase0 t group) := rfl

theorem SenderOfFrame.phaseW (t : Nat) (group : Fin 4) :
    SenderOfFrame.Statement (.phaseW t group) := rfl

theorem SenderOfFrame.followLossExpiry (t : Nat) (group : Fin 4) :
    SenderOfFrame.Statement (.followLossExpiry t group) := rfl

theorem SenderOfFrame.ownerHoldExpiry (t : Nat) (set : Fin 2) :
    SenderOfFrame.Statement (.ownerHoldExpiry t set) := rfl

theorem SenderOfFrame.stepTimerExpiry (t : Nat) (set : Fin 2) :
    SenderOfFrame.Statement (.stepTimerExpiry t set) := rfl

theorem SenderOfFrame.syncTimeout (t : Nat) :
    SenderOfFrame.Statement (.syncTimeout t) := rfl

theorem SenderOfFrame.restTimerExpiry (t : Nat) :
    SenderOfFrame.Statement (.restTimerExpiry t) := rfl

theorem SenderOfFrame.lineRawChange (t : Nat) (line : Fin 12) (level : Bool) :
    SenderOfFrame.Statement (.lineRawChange t line level) := rfl

theorem SenderOfFrame.debounceExpiry (t : Nat) (line : Fin 12) :
    SenderOfFrame.Statement (.debounceExpiry t line) := rfl

theorem SenderOfFrame.presencePeriodExpiry (t : Nat) :
    SenderOfFrame.Statement (.presencePeriodExpiry t) := rfl

theorem SenderOfFrame.txStart (t : Nat) :
    SenderOfFrame.Statement (.txStart t) := rfl

theorem SenderOfFrame.claimLost (t : Nat) :
    SenderOfFrame.Statement (.claimLost t) := rfl

theorem SenderOfFrame.txMismatch (t : Nat) :
    SenderOfFrame.Statement (.txMismatch t) := rfl

theorem SenderOfFrame.txComplete (t : Nat) :
    SenderOfFrame.Statement (.txComplete t) := rfl

theorem SenderOfFrame.profileHeaderRead (t : Nat) (tag : BitVec 16) :
    SenderOfFrame.Statement (.profileHeaderRead t tag) := rfl

theorem SenderOfFrame.endOfPinReset (t : Nat) :
    SenderOfFrame.Statement (.endOfPinReset t) := rfl

end Sys2Proof.Laws
end

