-- ==== Sys2Proof/Tests/Slice0.lean ====
section
/-! SUPPORT. The model's own tests: the smoke of WellFormed, worked figures of the spec on small states, and for every
statement with hypotheses a state and operands that meet them. -/

namespace Sys2Proof.Tests

set_option Elab.async false

open Sys2Proof.Machine

/-! ### A small chamber -/

/-- A local line of a function, without debounce. -/
def plainLine (f : LineFunction) : LineRecord := { function := f, debounceCode := 0, effect := 1 }

/-- Division 0 plays a pipe rank, a bar rank and an effect; there are two tremulant groups and a shutter set. -/
def house : Profile where
  params :=
    { pizzicatoWindow := 120, budget := 48, actionRunLimit := 4, chainLengths := [64, 0, 0, 0], refreshInterval := 50,
      wakeMask := { start := false, line := true, localPower := true, play := true }, syncSet := 6, syncTimeout := 10,
      restDelay := 30 }
  divisions := List.replicate 8 { keyCount := 4, baseNote := 36 }
  windows :=
    [{ kind := .pipe, first := 0, size := 24, firstNote := 36, weight := 2, pullIn := 8, strikeWidth := 0,
       reiteration := 0, claimGroup := 0 },
     { kind := .bar, first := 24, size := 8, firstNote := 36, weight := 1, pullIn := 4, strikeWidth := 20,
       reiteration := 100, claimGroup := 0 },
     { kind := .trap, first := 32, size := 4, firstNote := 0, weight := 4, pullIn := 10, strikeWidth := 0,
       reiteration := 0, claimGroup := 3 },
     { kind := .aux, first := 36, size := 8, firstNote := 0, weight := 1, pullIn := 10, strikeWidth := 0,
       reiteration := 0, claimGroup := 0 }]
  entries :=
    [{ stop := 1, division := 0, kind := .voice 0 0 .single .breakBack .breakBack .first },
     { stop := 2, division := 0, kind := .voice 1 0 .reiterate .silent .silent .first },
     { stop := 3, division := 0, kind := .trem 0 },
     { stop := 4, division := 0, kind := .trap 0 .first },
     { stop := 5, division := 0, kind := .voice 0 12 .single .breakBack .breakBack .pizz }]
  effects :=
    [{ mode := .edge, priority := 3, group := 3, onEntry := 0, offEntry := none, stud := none, cueLine := none },
     { mode := .level, priority := 5, group := 3, onEntry := 0, offEntry := some 2, stud := none, cueLine := some 2 },
     { mode := .edge, priority := 3, group := 5, onEntry := 0, offEntry := none, stud := none, cueLine := none },
     { mode := .edge, priority := 4, group := 3, onEntry := 1, offEntry := none, stud := none, cueLine := none }]
  groups :=
    [{ output := 36, period := 200, width := 100, mode := .lead, tag := 3, leader := 0 },
     { output := 37, period := 200, width := 100, mode := .follow, tag := 3, leader := 1 }]
  sets := [{ shoe := 1, first := 38, stages := 4, hysteresis := 2, interval := 50, ownerHold := 2000 }]
  lines :=
    [plainLine .pressure, plainLine .power, plainLine .cue, plainLine .alloff, plainLine .readyLamp,
      { function := .power, debounceCode := 3, effect := 0 }] ++ List.replicate 6 (plainLine .none)
  wakeEntry := none
  restEntry := none
  darkEntry := none
  steps := [.wait 50, .wait 30, .wait 20, .done]

/-- The chamber in a state of CH, with every block as a reset leaves it and no frame waiting. -/
def chamber (p : Profile) (st : ChamberState) : State :=
  { State.reset with
    now := 1000
    profile := some p
    ch := { state := st, origin := .dark, sync := if st = .gathering then some 900 else none, rest := none }
    li := { queue := [], inFlight := none, mute := false, duplicates := 0, presencePeriod := some 900 } }

/-- The chamber READY. -/
def live : State := chamber house .ready

/-- A context that waits, at a step. -/
def contextAt (script : Script) (index : Nat) (waiting : Waiting) : Context :=
  { script := script, index := index, waiting := waiting, registerA := none, registerB := none, held := [],
    rearmed := false, tally := 0 }

/-- A property of the next state that a command answers. -/
def nextHas (o : Result) (p : State → Bool) : Bool :=
  match o with
  | .next u => p u
  | .fault _ | .refused _ => false

theorem takes_of {s : State} (held : s.pf.held = false) (idle : s.runner 0 = none) : s.takes :=
  ⟨held, fun c e => by rw [idle] at e; cases e⟩

theorem takes_with {s : State} {c : Context} (held : s.pf.held = false) (h : s.runner 0 = some c)
    (w : c.waiting ≠ .running) : s.takes :=
  ⟨held, fun d e => by rw [h] at e; cases e; exact w⟩

theorem live_takes : live.takes := takes_of rfl rfl
theorem live_listens : live.listens := ⟨live_takes, by decide⟩
theorem live_serves : live.serves := ⟨live_listens, rfl⟩

theorem chamber_serves {p : Profile} {st : ChamberState} (h : st ≠ .profileFault) : (chamber p st).serves :=
  ⟨⟨takes_of rfl rfl, h⟩, rfl⟩

theorem reset_listens : State.reset.listens := ⟨takes_of rfl rfl, by decide⟩

/-- A state whose arbiter is empty keeps the arbiter's laws. -/
theorem arbiter_empty {s : State} (h : s.pa = .cleared) : s.ArbiterSound where
  waiting o := by
    simp only [State.out, h, Pa.cleared, Table.get, Table.empty, lookupIn, List.map_nil, List.not_mem_nil, or_self, iff_false]
    decide
  once := by simp [h, Pa.cleared]
  capacity := by simp [h, Pa.cleared]
  canonical := by rw [h]; exact ⟨List.Pairwise.nil, by simp [Pa.cleared, Table.empty]⟩
  units := by simp [h, Pa.cleared, Table.empty]
  budget := by simp [h, Pa.cleared]
  runLimit := by simp [h, Pa.cleared]
  runCount := by simp [h, Pa.cleared]
  settled c e := by simp [State.candidate, h, Pa.cleared] at e

/-- The arbiter with one output energized and both queues empty. -/
def oneOut (o : Nat) (v : OutState) (units : Nat) : Pa :=
  { outs := ⟨[(o, v)]⟩, speech := [], action := [], units := units, runCount := 0 }

/-- A state with one output energized keeps the arbiter's laws. -/
theorem arbiter_one {s : State} {o units : Nat} {v : OutState} (h : s.pa = oneOut o v units) (e : v.energized = true)
    (u : units = v.unitsHeld (s.weight o)) (b : units ≤ s.prof.params.budget) : s.ArbiterSound where
  waiting x := by
    have off : v ≠ .waiting := by rintro rfl; cases e
    simp only [State.out, h, oneOut, Table.get, lookupIn, List.map_nil, List.not_mem_nil, or_self, iff_false]
    split
    · exact off
    · decide
  once := by simp [h, oneOut]
  capacity := by simp [h, oneOut]
  canonical := by
    rw [h]
    refine ⟨by simp [oneOut], ?_⟩
    intro x hx
    simp only [oneOut, List.mem_singleton] at hx
    subst hx
    rintro rfl
    cases e
  units := by simp [h, oneOut, u]
  budget := by simpa [h, oneOut] using b
  runLimit := by simp [h, oneOut]
  runCount := by simp [h, oneOut]
  settled c k := by simp [State.candidate, h, oneOut] at k

/-- The house with the smallest pull-in budget (R62). -/
def tight : Profile := { house with params := { house.params with budget := 8 } }

/-- The arbiter with the budget of `tight` drawn by two TRAP outputs and an AUX output waiting for an action. -/
def spent (k : ActionKind) : Pa :=
  { outs := ⟨[(32, .pulling 9000), (33, .pulling 9000), (36, .waiting)]⟩, speech := []
    action := [{ output := 36, kind := k }], units := 8, runCount := 0 }

/-- The chamber with the spent arbiter. -/
def waitingRoom (k : ActionKind) : State := { chamber tight .ready with pa := spent k }

/-- The waiting room keeps the arbiter's laws. -/
theorem waitingRoom_arbiter (k : ActionKind) : (waitingRoom k).ArbiterSound where
  waiting x := by
    simp only [State.out, waitingRoom, spent, Table.get, lookupIn, List.map_cons, List.map_nil, List.not_mem_nil,
      false_or, List.mem_singleton]
    have other : (default : OutState) ≠ .waiting := by decide
    split
    · next e => subst e; simp
    · split
      · next e => subst e; simp
      · split
        · next e => simp [e]
        · next e => simp [Ne.symm e, other]
  once := by simp [waitingRoom, spent]
  capacity := by simp [waitingRoom, spent]
  canonical := by
    refine ⟨by simp [waitingRoom, spent], ?_⟩
    intro x hx
    simp only [waitingRoom, spent, List.mem_cons, List.not_mem_nil, or_false] at hx
    rcases hx with rfl | rfl | rfl <;> exact (by decide)
  units := rfl
  budget := (by decide : 8 ≤ 8)
  runLimit := (by decide : 0 ≤ 4)
  runCount _ := rfl
  settled c e := by
    simp only [State.candidate, waitingRoom, spent, Option.some.injEq] at e
    subst e
    exact (by decide : 0 < 1)

theorem live_arbiter : live.ArbiterSound := arbiter_empty rfl

/-- No key is down. -/
theorem keyboard_empty {s : State} (h : s.km = State.reset.km) : s.KeyboardSound where
  free c _ _ := by simp only [State.slot, h]; rfl
  distinct c c' a _ _ e := by simp only [State.slot, h] at e; cases e
  keys c d k _ _ _ _ := by simp only [State.slotTouch, State.slot, h]; rfl
  merged d k _ _ := by simp only [State.mergedTouch, State.highest, State.slotTouch, State.slot, h]; rfl
  entries e he := by rw [h] at he; cases he
  once := by rw [h]; exact List.Pairwise.nil
  ordered := by rw [h]; exact List.Pairwise.nil
  capacity := by rw [h]; exact Nat.zero_le _

theorem live_keyboard : live.KeyboardSound := keyboard_empty rfl

theorem house_keys (d : Nat) : house.keyCount d ≤ 64 ∧ house.baseNote d ≤ 96 := by
  rcases Nat.lt_or_ge d 8 with h | h
  · interval_cases d <;> decide
  · have e : house.divisions[d]? = none := List.getElem?_eq_none (by simpa [house] using h)
    simp [Profile.keyCount, Profile.baseNote, e]

/-- The CUE lines of the house and the effects that name them are one another's (R80, R176). -/
theorem house_cueLines (e l : Nat) : (house.effects[e]?).bind (·.cueLine) = some l ↔
    house.lineFunction l = .cue ∧ (house.lines[l]?).map (·.effect) = some e := by
  have few : house.effects.length = 4 := rfl
  have twelve : house.lines.length = 12 := rfl
  rcases Nat.lt_or_ge l 12 with hl | hl
  · rcases Nat.lt_or_ge e 4 with he | he
    · interval_cases e <;> interval_cases l <;> decide
    · rw [List.getElem?_eq_none (by omega)]
      interval_cases l <;> simp [house, plainLine, Profile.lineFunction]
      omega
  · have none : house.lines[l]? = none := List.getElem?_eq_none (by omega)
    simp only [Profile.lineFunction, none, Option.map_none]
    rcases Nat.lt_or_ge e 4 with he | he
    · interval_cases e <;> simp [house]
      omega
    · rw [List.getElem?_eq_none (by omega)]
      simp

/-- Every step that a step of the house's store reaches is one of the store. -/
theorem house_reaches {i j : Nat} (h : house.Reaches i j) (k : i < 4) : j < 4 := by
  induction h with
  | here => exact k
  | @onward j _ _ step before =>
    revert step
    interval_cases j <;> simp [successors, house] <;> omega

theorem house_inRange : house.InRange where
  window := by decide
  budget := by decide
  runLimit := by decide
  chains := by decide
  refresh := by decide
  syncTimeout := by decide
  restDelay := by decide
  divisions := rfl
  keys := house_keys
  studKeys := by decide
  windows := by decide
  windowRanges := by decide
  barRanges := by decide
  onOneChain := by
    intro w hw o ho
    have spans : w.first + w.size ≤ 44 ∧ w.first / 384 = 0 := by
      clear ho
      revert w
      decide
    simp only [Window.contains, decide_eq_true_eq] at ho
    have low : o < 44 := by omega
    have e : o / 384 = 0 := by omega
    refine ⟨by omega, by simp [chainOf, e, spans.2], ?_⟩
    have len : house.chainLength (chainOf o) = 64 := by simp only [chainOf, e]; rfl
    rw [len]
    omega
  disjoint := by
    have far : house.windows.Pairwise (fun v w => v.first + v.size ≤ w.first) := by decide
    refine far.imp ?_
    intro v w h o ho
    simp only [Window.contains, decide_eq_true_eq, decide_eq_false_iff_not] at ho ⊢
    omega
  entries := by
    refine ⟨by decide, ?_⟩
    simp [house, StopEntry.inRange]
  effects := by simp [house]
  cueLines := house_cueLines
  groups := by decide
  sets := by decide
  lines := by decide
  chamberEntries := by simp [house, Profile.chamberEntersAt]
  steps := by simp [house, ScriptStep.inRange]
  groupOutputs := by decide
  setOutputs := by
    intro x hx o ho
    have it : x.first = 38 ∧ x.stages = 4 := by
      clear ho
      revert x
      decide
    simp only [ShutterSet.uses, it.1, it.2, decide_eq_true_eq] at ho
    have low : 38 ≤ o := ho.1
    have high : o < 42 := ho.2
    interval_cases o <;> decide
  effectSteps := by
    intro x hx i j enters reaches
    have entry : i < 4 := by
      simp only [house, List.mem_cons, List.not_mem_nil, or_false, Effect.entersAt] at hx enters
      rcases hx with rfl | rfl | rfl | rfl <;> simp at enters <;> omega
    have stored := house_reaches reaches entry
    clear reaches
    interval_cases j <;> exact ⟨_, rfl, trivial⟩
  chamberSteps := by
    intro i j enters
    simp [house, Profile.chamberEntersAt] at enters

theorem profiled {s : State} (h : s.profile = some house) : s.ProfileSound := by
  intro p e
  rw [h] at e
  cases e
  exact house_inRange

theorem live_profile : live.ProfileSound := profiled rfl

/-- A chamber that is READY, or as a reset leaves it, is quiet. -/
theorem chamber_quiet (p : Profile) (st : ChamberState) : (chamber p st).QuietOutsideReady where
  arbiter _ := rfl
  effects _ := ⟨rfl, fun r _ _ => rfl⟩
  clocks _ := rfl
  groups _ := fun g _ => rfl
  shutters _ := fun x _ => ⟨rfl, rfl⟩
  rest _ := rfl
  sync := by cases st <;> simp [chamber]

/-- A chamber in a state that no chamber script is run in, with a profile, and runner 0 idle. -/
theorem chamber_sound {s : State} (idle : s.runner 0 = none)
    (h : s.ch.state ≠ .winding ∧ s.ch.state ≠ .settling ∧ s.ch.state ≠ .darkening) (p : s.profile ≠ none)
    (k : ¬ (s.ch.state = .loading ∨ s.ch.state = .profileFault)) : s.ChamberSound where
  scripted c e := by rw [idle] at e; cases e
  idle _ := h
  profiled := iff_of_false p k

theorem live_sound : live.ChamberSound := chamber_sound rfl (by decide) (by decide) (by decide)

/-! ### Witnesses: the step, resets, loading and the record -/

theorem witness_EveryCommandRunsAndKeepsTheQueue : State.reset.pending = [] := rfl

/-- The chamber with NRST low. -/
def held : State := { live with pf := { live.pf with held := true } }

/-- The chamber in PROFILE_FAULT. -/
def faulty : State := { State.reset with ch := { State.reset.ch with state := .profileFault } }

theorem faulty_takes : faulty.takes := takes_of rfl rfl

theorem witness_PowerOnAndRestartResetEveryBlock :
    live.ll.wf ∧ live.takes ∧ (faulty.takes ∧ faulty.ch.state = .profileFault) ∧
      (live.ch.state ≠ .profileFault ∧ (0xFFFE#16).getLsbD live.pf.station.val = false) ∧
      (0x0001#16).getLsbD live.pf.station.val = true :=
  ⟨by decide, live_takes, ⟨faulty_takes, rfl⟩, by decide, by decide⟩

theorem witness_PinResetHoldsUntilItsEnd :
    live.pf.held = false ∧ live.ll.wf ∧
      (live.listens ∧ (0x0001#16).getLsbD live.pf.station.val = true ∧
        (∃ u, exec (.restart 1000 3 1 4) live = .next u ∧ 1000 ≤ u.now) ∧
        live.pf.resetAt ≠ some (max live.now 1000)) ∧
      (held.pf.held = true ∧ (∀ t straps, Instr.alloff 0 3 ≠ .powerOn t straps) ∧
        (∀ t straps, Instr.alloff 0 3 ≠ .pinReset t straps) ∧ (∀ t, Instr.alloff 0 3 ≠ .endOfPinReset t) ∧
        ∀ t l v, Instr.alloff 0 3 ≠ .lineRawChange t l v) :=
  ⟨rfl, by decide, ⟨live_listens, by decide, ⟨_, rfl, by decide⟩, by decide⟩, rfl, by simp, by simp, by simp, by simp⟩

/-- R182: a memory that does not answer is refused for its identifier. -/
theorem test_empty_memory_is_refused : loadImage [] = .error { sectionNo := 0, code := 1, source := 0 } := by
  have h : (wordAt [] 0 == 3624) = false := by decide
  rw [loadImage, h]
  rfl

theorem witness_RefusedImageEntersProfileFault :
    (State.reset.takes ∧ State.reset.ch.state = .loading ∧
      loadImage [] = .error { sectionNo := 0, code := 1, source := 0 } ∧
      State.reset.li.mute = false ∧ State.reset.li.queue.length < 8) ∧
    (live.takes ∧ live.ch.state ≠ .loading) :=
  ⟨⟨reset_listens.1, rfl, test_empty_memory_is_refused, rfl, by decide⟩, live_takes, by decide⟩

/-- Section 1 of a small image: one chain of 64 positions and a wake mask. -/
def smallParams (mask : Nat) : List Nat := [0, 120, 48, 4, 0, 64, 0, 0, 0, 0, 0, 0, 0, mask, 0, 0, 10, 30]

/-- Sections 2 to 7: eight divisions, no window and no stop entry, one LEVEL effect of line 2, no group and no set. -/
def smallSections : List Nat :=
  List.flatten [List.flatten (List.replicate 8 [32, 36]), [0, 0], [0, 0], [0, 1], [1, 5, 3, 0, 0, 0, 0, 255, 2], [0, 0],
    [0, 0]]

/-- Sections 8 to 10: line 2 is the CUE line of effect 0, no chamber entry, and one step, DONE. -/
def smallLines : List Nat :=
  List.flatten [List.replicate 6 0, [3, 0, 0], List.replicate 27 0, List.replicate 6 255, [0, 1], [10, 0, 0, 0]]

/-- The body of the small image. -/
def smallBody (mask : Nat) : List Byte :=
  (smallParams mask ++ smallSections ++ smallLines).map (BitVec.ofNat 8)

/-- A line of the small image. -/
def emptyLine (f : LineFunction) : LineRecord := { function := f, debounceCode := 0, effect := 0 }

/-- A body with its header (R181) and its check. -/
def imageOf (body : List Byte) : List Byte :=
  0x0E#8 :: 0x28#8 :: (wordBytes (BitVec.ofNat 16 body.length) ++ (0x12#8 :: 0x34#8 :: (wordBytes (checkOf body) ++ body)))

theorem wordOf (w : BitVec 16) : (w.extractLsb' 8 8).toNat * 256 + (w.extractLsb' 0 8).toNat = w.toNat := by
  simp only [BitVec.extractLsb'_toNat, Nat.shiftRight_zero]
  have := w.isLt
  rw [Nat.shiftRight_eq_div_pow]
  omega

/-- The image of a body passes the checks of its header. -/
theorem loadImage_imageOf (body : List Byte) (h : body.length ≤ 16376) :
    loadImage (imageOf body) = loadSections (imageOf body) body.length := by
  have low : body.length % 65536 = body.length := Nat.mod_eq_of_lt (by omega)
  have w0 : wordAt (imageOf body) 0 = 3624 := by simp [wordAt, byteAt, imageOf]
  have w2 : wordAt (imageOf body) 2 = body.length := by
    simp [wordAt, byteAt, imageOf, wordBytes, wordOf, low, -BitVec.extractLsb'_toNat]
  have w6 : wordAt (imageOf body) 6 = (checkOf body).toNat := by
    simp [wordAt, byteAt, imageOf, wordBytes, wordOf, -BitVec.extractLsb'_toNat]
  have b8 : bytesAt (imageOf body) 8 body.length = body := by
    simp [bytesAt, imageOf, wordBytes]
  simp [loadImage, w0, w2, w6, b8, require, h]
  rfl

/-- What the small image says (R181), with START in its wake mask or not. -/
def smallProfile (start : Bool) : Profile where
  params :=
    { pizzicatoWindow := 120, budget := 48, actionRunLimit := 4, chainLengths := [64, 0, 0, 0], refreshInterval := 0,
      wakeMask := { start := start, line := false, localPower := false, play := false }, syncSet := 0,
      syncTimeout := 10, restDelay := 30 }
  divisions := List.replicate 8 { keyCount := 32, baseNote := 36 }
  windows := []
  entries := []
  effects :=
    [{ mode := .level, priority := 5, group := 3, onEntry := 0, offEntry := some 0, stud := none, cueLine := some 2 }]
  groups := []
  sets := []
  lines := List.replicate 2 (emptyLine .none) ++ [emptyLine .cue] ++ List.replicate 9 (emptyLine .none)
  wakeEntry := none
  restEntry := none
  darkEntry := none
  steps := [.done]

/-- R181 to R183: the small image is read field by field. -/
theorem test_image_is_read (start : Bool) :
    (loadSections (imageOf (smallBody start.toNat)) 101).toOption = some (smallProfile start) := by
  cases start <;> decide +kernel

theorem small_loads (start : Bool) : loadImage (imageOf (smallBody start.toNat)) = .ok (smallProfile start) := by
  have n : (smallBody start.toNat).length = 101 := by simp [smallBody, smallParams, smallSections, smallLines]
  rw [loadImage_imageOf _ (by omega), n]
  have h := test_image_is_read start
  cases e : loadSections (imageOf (smallBody start.toNat)) 101 with
  | ok p => rw [e] at h; cases h; rfl
  | error x => rw [e] at h; cases h

theorem witness_AcceptedImageIsTaken :
    State.reset.takes ∧ State.reset.ch.state = .loading ∧
      (loadImage (imageOf (smallBody 0)) = .ok (smallProfile false) ∧
        (smallProfile false).params.wakeMask.start = false ∧
        (∃ x, (smallProfile false).effects[0]? = some x ∧ x.mode = .level ∧ x.cueLine = some 2) ∧
        (smallProfile false).chainLength 0 ≠ 0 ∧ (State.reset.chain 0).status ≠ .failed ∧
        State.reset.pa = .cleared) ∧
      (loadImage (imageOf (smallBody 1)) = .ok (smallProfile true) ∧ (smallProfile true).params.wakeMask.start = true) :=
  ⟨reset_listens.1, rfl, ⟨small_loads false, rfl, ⟨_, rfl, rfl, rfl⟩, by decide, by decide, rfl⟩, small_loads true, rfl⟩

/-- Images taken with the LOADING PRESENCE still waiting, with no frame waiting, and by a MUTE station. -/
theorem witness_AcceptedImageIsTaken_announced :
    (State.reset.li.mute = false ∧
      State.reset.li.queue = [] ++ { frame := .presence .loading false 0, age := 0 } :: [] ∧
      ∀ q ∈ ([] ++ [] : List Queued), ∀ a b c, q.frame ≠ .presence a b c) ∧
    ∀ mute, let s := { State.reset with li := { State.reset.li with queue := [], mute := mute } }
      s.takes ∧ s.ch.state = .loading ∧ s.li.mute = mute ∧ (∀ q ∈ s.li.queue, ∀ a b c, q.frame ≠ .presence a b c) ∧
        s.li.queue.length < 8 :=
  ⟨⟨rfl, rfl, by simp⟩, fun mute => ⟨takes_of rfl rfl, rfl, rfl, by simp, by simp⟩⟩

/-- A header alone, with a body's length and check. -/
def headerOf (length check : BitVec 16) : List Byte :=
  [0x0E#8, 0x28#8] ++ wordBytes length ++ [0#8, 0#8] ++ wordBytes check

theorem witness_ImageHeaderIsCheckedFirst :
    wordAt ([] : List Byte) 0 ≠ 3624 ∧
    (wordAt (headerOf 16377 0) 0 = 3624 ∧ 16376 < wordAt (headerOf 16377 0) 2) ∧
    (wordAt (headerOf 0 0) 0 = 3624 ∧ wordAt (headerOf 0 0) 2 ≤ 16376 ∧
      (checkOf (bytesAt (headerOf 0 0) 8 0)).toNat ≠ wordAt (headerOf 0 0) 6) := by
  refine ⟨by decide +kernel, ⟨by decide +kernel, ?_⟩, by decide +kernel, ?_, by decide +kernel⟩
  · have e : wordAt (headerOf 16377 0) 2 = 16377 := by decide +kernel
    omega
  · have e : wordAt (headerOf 0 0) 2 = 0 := by decide +kernel
    omega

/-- The chamber with a fault in its record. -/
def recorded : State :=
  { live with pf := { live.pf with
      record := some { kind := .syncShort, source := 2, detail := 1 }, later := true, seen := 0x100 } }

theorem recorded_takes : recorded.takes := takes_of rfl rfl

theorem witness_FirstFaultOutlivesEveryCommand :
    live.takes ∧ (∀ t straps, Instr.clear 0 3 0xFFFE ≠ .powerOn t straps) ∧
      (∀ t a mask, Instr.clear 0 3 0xFFFE = .clear t a mask → mask.getLsbD recorded.pf.station.val = false) ∧
      (∃ u, exec (.clear 0 3 0xFFFE) recorded = .next u) ∧
      recorded.pf.record = some { kind := .syncShort, source := 2, detail := 1 } ∧ recorded.pf.later = true ∧
      recorded.pf.seen.getLsbD 8 = true :=
  ⟨live_takes, by simp, by intro t a mask e; cases e; decide, ⟨_, rfl⟩, rfl, rfl, by decide⟩

theorem witness_ClearEmptiesTheRecord :
    (recorded.takes ∧ recorded.ch.state ≠ .profileFault ∧ (0x0001#16).getLsbD recorded.pf.station.val = true ∧
      recorded.pf.record ≠ none) ∧
      (faulty.takes ∧ faulty.ch.state = .profileFault) ∧ (0xFFFE#16).getLsbD recorded.pf.station.val = false :=
  ⟨⟨recorded_takes, by decide, by decide, by decide⟩, ⟨faulty_takes, rfl⟩, by decide⟩

/-- A REPORT that waits. -/
def oldReport : Report := default

/-- The chamber with a REPORT between two other frames. -/
def reporting : State :=
  { live with li := { live.li with
      queue := [{ frame := .beat 1, age := 5 }, { frame := .report oldReport, age := 7 },
        { frame := .mark 2 1, age := 8 }] } }

/-- The chamber with eight marks waiting. -/
def crowded : State :=
  { live with li := { live.li with queue := List.replicate 8 { frame := .mark 2 1, age := 8 } } }

/-- A MUTE station. -/
def muted : State := { live with li := { live.li with mute := true, duplicates := 3 } }

theorem witness_AskIsAnsweredWithAReport :
    (live.takes ∧ (1 : Station) ≠ live.pf.station ∧ (0 : Station) = live.pf.station) ∧
      (muted.takes ∧ muted.li.mute = true) ∧
      (live.li.mute = false ∧ (∀ q ∈ live.li.queue, ∀ x, q.frame ≠ .report x) ∧ live.li.queue.length < 8) ∧
      (reporting.takes ∧ reporting.li.mute = false ∧
        reporting.li.queue = [{ frame := .beat 1, age := 5 }] ++ { frame := .report oldReport, age := 7 } ::
          [{ frame := .mark 2 1, age := 8 }] ∧
        ∀ q ∈ ([{ frame := .beat 1, age := 5 }] ++ [{ frame := .mark 2 1, age := 8 }] : List Queued),
          ∀ y, q.frame ≠ .report y) ∧
      (crowded.takes ∧ crowded.li.mute = false ∧ (∀ q ∈ crowded.li.queue, ∀ x, q.frame ≠ .report x) ∧
        8 ≤ crowded.li.queue.length) :=
  ⟨⟨live_takes, by decide, by decide⟩, ⟨takes_of rfl rfl, rfl⟩, ⟨rfl, by simp [live, chamber], by decide⟩,
    ⟨takes_of rfl rfl, rfl, rfl, by simp⟩, takes_of rfl rfl, rfl, by simp [crowded], by decide⟩

/-- A pipe that sounds. -/
theorem witness_AskIsAnsweredWithAReport_sounding :
    let s := { live with pa := oneOut 3 .holding 0 }
    s.takes ∧ s.pa.outs.wf ∧ s.outputIs .pipe 3 ∧ s.out 3 = .holding :=
  ⟨takes_of rfl rfl, by decide, by unfold State.outputIs; decide, rfl⟩

/-! ### Witnesses: received frames and the keyboard -/

theorem witness_EveryCheckedFrameIsHeard :
    (live.listens ∧ (Instr.restart 0 3 0xFFFE 0).sender = some 3 ∧
      (∀ t mask straps, Instr.restart 0 3 0xFFFE 0 = .restart t 3 mask straps →
        mask.getLsbD live.pf.station.val = false)) ∧
    (faulty.takes ∧ faulty.ch.state = .profileFault ∧ (Instr.clear 0 3 1).sender = some 3 ∧
      ∀ t b, Instr.clear 0 3 1 ≠ .ask t 3 b) ∧
    (State.reset.listens ∧ State.reset.profile = none ∧ (Instr.alloff 0 3).sender = some 3 ∧
      (∀ t mask straps, Instr.alloff 0 3 ≠ .restart t 3 mask straps) ∧ (∀ t mask, Instr.alloff 0 3 ≠ .clear t 3 mask) ∧
      (∀ t b, Instr.alloff 0 3 ≠ .ask t 3 b) ∧
      ∀ t role state flags tag, Instr.alloff 0 3 ≠ .presence t 3 role state flags tag) :=
  ⟨⟨live_listens, rfl, by intro t mask straps e; cases e; decide⟩, ⟨faulty_takes, rfl, rfl, by simp⟩,
    reset_listens, rfl, rfl, by simp, by simp, by simp, by simp⟩

/-- The chamber with station 5 bound to slot 2. -/
def bound : State := live.setSlot 2 { station := some 5, touch := .empty }

theorem bound_serves : bound.serves := ⟨⟨takes_of rfl rfl, by decide⟩, rfl⟩

theorem witness_KeysAndSnapSetTheSendersSlot :
    (bound.serves ∧ bound.slotOf 5 = some 2) ∧
      (live.serves ∧ live.slotOf 5 = none ∧ live.freeSlot = some 0 ∧ live.ProfileSound ∧ live.KeyboardSound) ∧
      (live.mergedTouch 1 3 ≠ .second ∧ live.km.pizzicato.length < 64 ∧
        nextHas (exec (.keys 1000 5 1 [(3, 2)]) live) (fun u => decide (u.mergedTouch 1 3 = .second)) = true) ∧
      live.km.pizzicato.length + [((3 : Fin 64), (2 : BitVec 2)), (1, 3)].length ≤ 64 ∧
      ((List.replicate 64 (3 : BitVec 2)).length = 64 ∧ live.prof.keyCount 7 ≤ 64 ∧
        live.km.pizzicato.length + live.prof.keyCount 7 ≤ 64) :=
  ⟨⟨bound_serves, by decide⟩, ⟨live_serves, by decide, by decide, live_profile, live_keyboard⟩,
    ⟨by decide, by decide, by decide +kernel⟩, by decide, by decide, (house_keys 7).1, by decide⟩

/-- A key that rises in READY, and one whose rise wakes a DARK chamber and one at rest. -/
theorem witness_KeysAndSnapSetTheSendersSlot_play :
    (live.ChamberSound ∧ live.QuietOutsideReady ∧ ([((3 : Fin 64), (2 : BitVec 2)), (1, 3)].map (·.1)).Nodup) ∧
      ∀ st, st = .dark ∨ st = .resting →
        let s := chamber house st
        s.serves ∧ s.slotOf 5 = none ∧ s.freeSlot = some 0 ∧ s.ProfileSound ∧ s.KeyboardSound ∧ s.ChamberSound ∧
          s.QuietOutsideReady ∧ s.km.pizzicato.length < 64 ∧ s.prof.params.wakeMask.play = true ∧ s.ch.state = st ∧
          nextHas (exec (.keys 1000 5 1 [(3, 2)]) s) (fun u => decide ((s.mergedTouch 1 3).rank < (u.mergedTouch 1 3).rank)) =
            true := by
  refine ⟨⟨live_sound, chamber_quiet _ _, by decide⟩, fun st h => ?_⟩
  refine ⟨chamber_serves ?_, rfl, rfl, profiled rfl, keyboard_empty rfl, chamber_sound rfl ?_ ?_ ?_, chamber_quiet _ _,
    ?_, rfl, rfl, ?_⟩ <;> rcases h with rfl | rfl <;> decide +kernel

/-- The house with a division of 64 keys. -/
def wide : Profile :=
  { house with divisions := { keyCount := 64, baseNote := 36 } :: List.replicate 7 { keyCount := 4, baseNote := 36 } }

theorem wide_inRange : wide.InRange where
  window := house_inRange.window
  budget := house_inRange.budget
  runLimit := house_inRange.runLimit
  chains := house_inRange.chains
  refresh := house_inRange.refresh
  syncTimeout := house_inRange.syncTimeout
  restDelay := house_inRange.restDelay
  divisions := rfl
  keys d := by
    rcases Nat.lt_or_ge d 8 with h | h
    · interval_cases d <;> decide
    · have e : wide.divisions[d]? = none := List.getElem?_eq_none (by simpa [wide] using h)
      simp [Profile.keyCount, Profile.baseNote, e]
  studKeys := by decide
  windows := house_inRange.windows
  windowRanges := house_inRange.windowRanges
  barRanges := house_inRange.barRanges
  onOneChain := house_inRange.onOneChain
  disjoint := house_inRange.disjoint
  entries := house_inRange.entries
  effects := house_inRange.effects
  cueLines := house_inRange.cueLines
  groups := house_inRange.groups
  sets := house_inRange.sets
  lines := house_inRange.lines
  chamberEntries := house_inRange.chamberEntries
  steps := house_inRange.steps
  groupOutputs := house_inRange.groupOutputs
  setOutputs := house_inRange.setOutputs
  effectSteps := by
    intro x hx i j enters reaches
    have same : ∀ j, wide.Reaches i j → house.Reaches i j := fun j h => by
      induction h with
      | here => exact .here _
      | onward _ step before => exact .onward before step
    exact house_inRange.effectSteps x hx i j enters (same j reaches)
  chamberSteps := by
    intro i j enters
    simp [wide, house, Profile.chamberEntersAt] at enters

/-- The 64 keys of division 0 at SECOND, as a table of touches. -/
def allSecond : Table Touch := ⟨(List.range 64).map fun k => (k, .second)⟩

/-- The wide chamber with the pizzicato list full: a console holds all the keys of division 0. -/
def brimming : State :=
  { chamber wide .ready with
    km := { State.reset.km with
      slots := ⟨[(0, { station := some 5, touch := allSecond })]⟩
      merged := allSecond
      pizzicato := (List.range 64).map fun k => { division := 0, key := k, expiry := 1000 + k } } }

theorem brimming_keyboard : brimming.KeyboardSound where
  free c l h := by interval_cases c <;> first | rfl | cases h
  distinct c c' a l l' e e' := by
    interval_cases c <;> interval_cases c' <;> first | rfl | (cases e; done) | cases e'
  keys := by
    have h : ∀ c, c < 4 → ∀ d, d < 8 → ∀ k, k < 64 → brimming.prof.keyCount d ≤ k →
      brimming.slotTouch c d k = .up := by decide +kernel
    exact fun c d k lc ld above lk => h c lc d ld k lk above
  merged := by
    have h : ∀ d, d < 8 → ∀ k, k < 64 → brimming.mergedTouch d k = brimming.highest d k := by decide +kernel
    exact fun d k l l' => h d l k l'
  entries := by decide +kernel
  once := by decide +kernel
  ordered := by decide +kernel
  capacity := by decide +kernel

/-- A key that rises to SECOND with the pizzicato list full: the first entry goes. -/
theorem witness_KeysAndSnapSetTheSendersSlot_eviction :
    (brimming.serves ∧ brimming.slotOf 5 = some 0 ∧ brimming.ProfileSound ∧ brimming.KeyboardSound ∧
      brimming.ChamberSound ∧ brimming.QuietOutsideReady ∧ 64 ≤ brimming.km.pizzicato.length) ∧
      nextHas (exec (.keys 1000 5 1 [(3, 2)]) brimming) (fun u => decide (brimming.mergedTouch 1 3 ≠ .second ∧
        u.mergedTouch 1 3 = .second ∧ u.hasPizz 0 0 = false ∧ u.hasPizz 1 3 = true)) = true :=
  ⟨⟨⟨⟨takes_of rfl rfl, by decide⟩, rfl⟩, by decide +kernel, fun p e => by cases e; exact wide_inRange,
      brimming_keyboard, chamber_sound rfl (by decide) (by decide) (by decide),
      { arbiter := fun _ => rfl, effects := fun _ => ⟨rfl, fun r _ _ => rfl⟩, clocks := fun _ => rfl
        groups := fun _ g _ => rfl, shutters := fun _ x _ => ⟨rfl, rfl⟩, rest := fun _ => rfl, sync := by decide },
      by decide +kernel⟩, by decide +kernel⟩

/-- A frame of two changes, and a SNAP frame of a station that is bound, or that can be. -/
theorem witness_KeysAndSnapSetTheSendersSlot_sequence :
    (live.serves ∧ live.ChamberSound ∧ live.QuietOutsideReady ∧
      [((3 : Fin 64), (2 : BitVec 2)), (1, 3)] = [(3, 2)] ++ [(1, 3)]) ∧
      (bound.slotOf 5 ≠ none ∧ live.freeSlot ≠ none ∧ live.prof.keyCount 1 ≤ 64) :=
  ⟨⟨live_serves, live_sound, chamber_quiet _ _, rfl⟩, by decide, by decide, (house_keys 1).1⟩

/-- Frames that move no merged touch. -/
theorem witness_KeysAndSnapSetTheSendersSlot_still :
    ([((3 : Fin 64), (0 : BitVec 2))].map (·.1)).Nodup ∧
      (nextHas (exec (.keys 1000 5 1 [(3, 0)]) bound) fun u =>
        decide (∀ k : Fin 64, u.mergedTouch 1 k.val = bound.mergedTouch 1 k.val)) = true ∧
      nextHas (exec (.snap 1000 5 1 (List.replicate 64 0)) bound) (fun u =>
        decide (∀ k : Fin 64, u.mergedTouch 1 k.val = bound.mergedTouch 1 k.val)) = true :=
  ⟨by decide, by decide +kernel, by decide +kernel⟩

/-- The chamber with four consoles bound. -/
def full : State :=
  { live with km := { live.km with slots := ⟨[(0, { station := some 1, touch := .empty }),
      (1, { station := some 2, touch := .empty }), (2, { station := some 3, touch := .empty }),
      (3, { station := some 4, touch := .empty })]⟩ } }

theorem witness_FifthConsoleIsRefused :
    full.serves ∧ full.slotOf 9 = none ∧ full.freeSlot = none ∧
      (∃ t d changes, Instr.keys 0 9 1 [] = .keys t 9 d changes) ∧
      (∃ t d codes, Instr.snap 0 9 1 [] = .snap t 9 d codes) ∧ (∃ t pairs, Instr.shoe 0 9 [] = .shoe t 9 pairs) ∧
      ∃ t changes, Instr.stops 0 9 [] = .stops t 9 changes :=
  ⟨⟨⟨takes_of rfl rfl, by decide⟩, rfl⟩, by decide, by decide, ⟨_, _, _, rfl⟩, ⟨_, _, _, rfl⟩, ⟨_, _, rfl⟩, _, _, rfl⟩

theorem witness_StopsSetTheNamedStops :
    (live.serves ∧ live.QuietOutsideReady ∧ live.slotOf 5 = none ∧ live.freeSlot = some 0) ∧ live.prof.hasStop 3 = true :=
  ⟨⟨live_serves, chamber_quiet _ _, by decide, by decide⟩, by decide⟩

/-- A stop that is moved alone, and one of two. -/
theorem witness_StopsSetTheNamedStops_alone :
    live.ChamberSound ∧ live.prof.hasStop 1 = true ∧ live.km.stopOn.get 1 ≠ true ∧
      [((1 : Fin 1024), true), (4, true)] = [(1, true)] ++ [(4, true)] :=
  ⟨live_sound, by decide, by decide, rfl⟩

/-- The house whose one TREM stop is of the FOLLOW group. -/
def followed : Profile := { house with entries := [{ stop := 3, division := 0, kind := .trem 1 }] }

/-- The chamber with its LEAD group running and its stop ON. -/
def trembling (onCount : Nat) : State :=
  { live with
    km := { live.km with stopOn := ⟨[(3, true)]⟩ }
    tsu := { live.tsu with trems :=
      ⟨[(0, { onCount := onCount, running := true, phase0 := some 1500, phaseW := some 1200, locked := false
              loss := none })]⟩ } }

/-- TREM stops that are turned ON and OFF, at each side of the on-counts that start and stop a group. -/
theorem witness_StopsSetTheNamedStops_groups :
    (∃ e x, house.entries.filter (fun e => decide (e.stop = 3)) = [e] ∧ e.kind = .trem 0 ∧ live.tremGroup 0 = some x ∧
        x.mode = .lead ∧ live.km.stopOn.get 3 ≠ true ∧ (live.trem 0).onCount = 0 ∧ (live.trem 0).running = false ∧
        live.ch.state = .ready ∧ live.li.mute = false ∧ live.li.queue.length < 8 ∧
        ∀ q ∈ live.li.queue, q.frame ≠ .beat x.tag) ∧
      (∃ e x, followed.entries.filter (fun e => decide (e.stop = 3)) = [e] ∧ e.kind = .trem 1 ∧
        (chamber followed .ready).tremGroup 1 = some x ∧ x.mode ≠ .lead) ∧
      (∀ n, (trembling n).serves ∧ (trembling n).QuietOutsideReady ∧ (trembling n).slotOf 5 = none ∧
        (trembling n).freeSlot = some 0 ∧ (trembling n).km.stopOn.get 3 ≠ false ∧ ((trembling n).trem 0).running = true ∧
        ((trembling n).trem 0).onCount = n) ∧
      (chamber house .dark).ch.state ≠ .ready ∧
      (nextHas (exec (.stops 1000 5 [(3, true)]) live) fun u =>
        decide (u.km.stopOn.get 3 ≠ live.km.stopOn.get 3 ∧ (u.trem 0).running = true)) = true ∧
      nextHas (exec (.stops 1000 5 [(3, false)]) (trembling 1)) (fun u => decide ((u.trem 0).running = false)) = true := by
  refine ⟨⟨_, _, rfl, rfl, rfl, rfl, by decide, rfl, rfl, rfl, rfl, by decide, by simp [live, chamber]⟩,
    ⟨_, _, rfl, rfl, rfl, by decide⟩, fun n => ⟨⟨⟨takes_of rfl rfl, by simp [trembling, live, chamber]⟩, rfl⟩,
      ?_, rfl, rfl, by simp [trembling, Table.get, lookupIn], rfl, rfl⟩, by decide, by decide +kernel, by decide +kernel⟩
  exact
    { arbiter := fun h => absurd rfl h, effects := fun h => absurd rfl h, clocks := fun h => absurd rfl h
      groups := fun h => absurd rfl h, shutters := fun h => absurd rfl h, rest := fun h => absurd rfl h
      sync := (chamber_quiet house .ready).sync }

theorem witness_ShoePairsAreJudgedInTurn :
    (live.serves ∧ live.slotOf 5 = none ∧ live.freeSlot = some 0) ∧
      (∃ cfg, live.shutterSet 0 = some cfg) ∧ (∀ x', x' ≠ 0 → live.shutterSet x' = none) ∧
      (live.ch.state = .ready ∧ (live.shutter 0).stepTimer = none ∧ live.pa.action.length < 128) ∧
      nextHas (exec (.shoe 1000 5 [(1, 127)]) live) (fun u => decide ((live.shutter 0).stage < (u.shutter 0).stage)) =
        true ∧
      ((chamber house .dark).serves ∧ (chamber house .dark).ch.state ≠ .ready) := by
  refine ⟨⟨live_serves, by decide, by decide⟩, ⟨_, rfl⟩, fun x' h => ?_, ⟨rfl, rfl, by decide⟩, by decide +kernel,
    chamber_serves (by decide), by decide⟩
  exact List.getElem?_eq_none (by simp [live, chamber, State.prof, house]; omega)

theorem witness_AlloffClearsKeysAndEffects :
    live.serves ∧ live.ProfileSound ∧ live.KeyboardSound ∧ live.ch.state = .ready ∧ live.ArbiterSound ∧
      live.outputIs .trap 32 :=
  ⟨live_serves, live_profile, live_keyboard, rfl, live_arbiter, by unfold State.outputIs; decide⟩

/-- A station that was heard 600 ms ago, bound to slot 2, owning the shoe and the tuning hold. -/
def silent : State :=
  { bound with
    pt := ⟨[(5, { state := .heard, announced := none, silence := some 900, crossed := none })]⟩
    dt := { bound.dt with tuning := some { output := 3, setter := 5 } }
    tsu := { bound.tsu with shutters := ⟨[(0, { (default : Shutter) with owner := some 2, ownerHold := some 2000 })]⟩ } }

/-- The same station, unbound, before a profile is accepted. -/
def silentEarly : State :=
  { State.reset with pt := ⟨[(5, { state := .heard, announced := none, silence := some 900, crossed := none })]⟩, now := 1000 }

/-- The same station, bound and holding nothing. -/
def silentBare : State := { bound with pt := silent.pt }

/-- The same station, unbound. -/
def silentUnbound : State := { live with pt := silent.pt }

/-- A PRESENCE, or another frame, of station 5 was taken at this moment, at which its silence timer ran out. -/
def crossedPeer (presence : Bool) : Table Peer :=
  ⟨[(5, { state := .heard, announced := some .ready, silence := some 601000
          crossed := some { moment := 1000, presence := presence } })]⟩

/-- Station 5, with all that it holds, was heard at the moment of its loss. -/
def silentCrossed (presence : Bool) : State := { silent with pt := crossedPeer presence }

theorem witness_SilentStationIsLost :
    (∀ presence, (silentCrossed presence).listens ∧
      ¬ dueAt (max (silentCrossed presence).now 0) ((silentCrossed presence).peer 5).silence ∧
      ((silentCrossed presence).peer 5).crossed = some { moment := 1000, presence := presence } ∧
      max (silentCrossed presence).now 0 = 1000 ∧ (silentCrossed presence).profile.isSome = true ∧
      (silentCrossed presence).slotOf 5 = some 2) ∧
    (({ State.reset with pt := crossedPeer false, now := 1000 } : State).listens ∧
      ({ State.reset with pt := crossedPeer false, now := 1000 } : State).profile = none) ∧
    (live.listens ∧ ¬ ((live.peer 5).state = .heard ∧ dueAt (max live.now 0) (live.peer 5).silence)) ∧
      (silentEarly.listens ∧ (silentEarly.peer 5).state = .heard ∧
        dueAt (max silentEarly.now 0) (silentEarly.peer 5).silence ∧ silentEarly.profile = none) ∧
      (silent.listens ∧ (silent.peer 5).state = .heard ∧ dueAt (max silent.now 0) (silent.peer 5).silence ∧
        silent.profile.isSome = true ∧ silent.slotOf 5 = some 2 ∧ silent.dt.tuning.map (·.setter) = some 5) ∧
      (silentBare.listens ∧ dueAt (max silentBare.now 0) (silentBare.peer 5).silence ∧
        silentBare.slotOf 5 = some 2 ∧ silentBare.dt.tuning = none ∧
        (∀ e ∈ (silentBare.slot 2).touch.entries, e.2 = .up) ∧ ∀ x, (silentBare.shutter x).owner = none) ∧
      (silentUnbound.listens ∧ dueAt (max silentUnbound.now 0) (silentUnbound.peer 5).silence ∧
        silentUnbound.slotOf 5 = none ∧ silentUnbound.dt.tuning.map (·.setter) ≠ some 5) := by
  refine ⟨fun presence => ⟨⟨takes_of rfl rfl, by cases presence <;> decide⟩, ?_, rfl, rfl, rfl,
      by cases presence <;> decide⟩,
    ⟨⟨takes_of rfl rfl, by decide⟩, rfl⟩, ⟨live_listens, fun h => absurd h.1 (by decide)⟩,
    ⟨⟨takes_of rfl rfl, by decide⟩, by decide, ⟨900, rfl, by decide⟩, rfl⟩,
    ⟨⟨takes_of rfl rfl, by decide⟩, by decide, ⟨900, rfl, by decide⟩, rfl, by decide, by decide⟩,
    ⟨⟨takes_of rfl rfl, by decide⟩, ⟨900, rfl, by decide⟩, by decide, rfl, ?_, fun x => rfl⟩,
    ⟨takes_of rfl rfl, by decide⟩, ⟨900, rfl, by decide⟩, by decide, by decide⟩
  · rintro ⟨m, e, h⟩
    have timer : ((silentCrossed presence).peer 5).silence = some 601000 := rfl
    rw [timer] at e
    cases e
    exact absurd h (by show ¬ 601000 ≤ max 1000 0; decide)
  · decide

/-- A station that was heard 600 ms ago, bound to slot 2 of a DARK chamber and owning the tuning hold. -/
def silentDark : State :=
  { chamber house .dark with
    km := bound.km
    pt := silent.pt
    dt := { live.dt with tuning := some { output := 3, setter := 5 } } }

/-- One console is bound, and no key is down. -/
theorem keyboard_bound {s : State} (h : s.km = bound.km) : s.KeyboardSound where
  free c l _ := by simp only [State.slot, h]; interval_cases c <;> rfl
  distinct c c' a l l' e e' := by
    simp only [State.slot, h] at e e'
    interval_cases c <;> interval_cases c' <;> first | rfl | (cases e; done) | cases e'
  keys c d k l _ _ _ := by simp only [State.slotTouch, State.slot, h]; interval_cases c <;> rfl
  merged d k _ _ := by simp only [State.mergedTouch, State.highest, State.slotTouch, State.slot, h]; rfl
  entries e he := by rw [h] at he; cases he
  once := by rw [h]; exact List.Pairwise.nil
  ordered := by rw [h]; exact List.Pairwise.nil
  capacity := by rw [h]; exact Nat.zero_le _

/-- Losses where no earlier fault can come in: outside READY, and in a house without effects. -/
theorem witness_SilentStationIsLost_record :
    (silentDark.listens ∧ (silentDark.peer 5).state = .heard ∧ dueAt (max silentDark.now 0) (silentDark.peer 5).silence ∧
      silentDark.profile.isSome = true ∧ silentDark.slotOf 5 = some 2 ∧ silentDark.dt.tuning.map (·.setter) = some 5) ∧
      (silentDark.ProfileSound ∧ silentDark.KeyboardSound ∧ silentDark.ChamberSound ∧ silentDark.QuietOutsideReady ∧
        silentDark.ch.state ≠ .ready) ∧
      ({ silent with profile := some { house with effects := [] } } : State).prof.effects = [] := by
  refine ⟨⟨⟨takes_of rfl rfl, by decide⟩, by decide, ⟨900, rfl, by decide⟩, rfl, by decide, by decide⟩,
    ⟨profiled rfl, keyboard_bound rfl, chamber_sound rfl (by decide) (by decide) (by decide), ?_, by decide⟩, rfl⟩
  exact
    { arbiter := fun _ => rfl, effects := fun _ => ⟨rfl, fun r _ _ => rfl⟩, clocks := fun _ => rfl
      groups := fun _ g _ => rfl, shutters := fun _ x _ => ⟨rfl, rfl⟩, rest := fun _ => rfl, sync := by decide }

/-- A loss in READY of a station that held something, and of one that held nothing. -/
theorem witness_SilentStationIsLost_falls : ∀ s, s = silent ∨ s = silentBare →
    s.ProfileSound ∧ s.KeyboardSound ∧ s.ChamberSound ∧ s.QuietOutsideReady ∧ s.slotOf 5 = some 2 := by
  rintro s (rfl | rfl) <;>
    exact ⟨profiled rfl, keyboard_bound rfl, chamber_sound rfl (by decide) (by decide) (by decide),
      { arbiter := fun h => absurd rfl h, effects := fun h => absurd rfl h, clocks := fun h => absurd rfl h
        groups := fun h => absurd rfl h, shutters := fun h => absurd rfl h, rest := fun h => absurd rfl h
        sync := by decide }, by decide⟩

/-- A key whose pizzicato window is over. -/
def plucked : State :=
  { live with km := { live.km with pizzicato := [{ division := 0, key := 2, expiry := 1000 }] } }

theorem witness_PizzicatoWindowEnds :
    (live.takes ∧ ¬ ∃ e ∈ live.km.pizzicato, e.division = 0 ∧ e.key = 2 ∧ e.expiry ≤ max live.now 0) ∧
      (plucked.takes ∧ ∃ e ∈ plucked.km.pizzicato, e.division = 0 ∧ e.key = 2 ∧ e.expiry ≤ max plucked.now 0) ∧
      ¬ ∃ e ∈ plucked.km.pizzicato, e.division = 0 ∧ e.key = 3 ∧ e.expiry ≤ max plucked.now 0 := by
  refine ⟨⟨live_takes, ?_⟩, ⟨takes_of rfl rfl, ?_⟩, ?_⟩ <;> simp [live, plucked, chamber, State.reset]

/-- The chamber with the tuning hold on pipe 3. -/
def tuned : State :=
  { live with dt := { live.dt with pipe := ⟨[(3, 1)]⟩, tuning := some { output := 3, setter := 5 } } }

theorem witness_TuneMovesTheHold :
    (live.serves ∧ (1 : Station) ≠ live.pf.station) ∧
      ((40 : Nat) ≠ 65535 ∧ (live.prof.windowOf 40).map (·.kind) = some .aux) ∧
      live.dt.tuning.map (·.output) = none ∧
      (tuned.serves ∧ (0 : Station) = tuned.pf.station ∧ tuned.dt.tuning.map (·.output) = some 3 ∧
        (tuned.prof.windowOf 3).map (·.kind) = some .pipe) ∧
      ((31 : Nat) ≤ 1535 ∧ (tuned.prof.windowOf 31).map (·.kind) = some .bar ∧
        tuned.dt.tuning.map (·.output) ≠ some 31) ∧
      tuned.dt.tuning.map (·.output) ≠ none :=
  ⟨⟨live_serves, by decide⟩, by decide, by decide,
    ⟨⟨⟨takes_of rfl rfl, by decide⟩, rfl⟩, by decide, by decide, by decide⟩, by decide, by decide⟩

/-- Moves in READY: from a pipe that the hold alone calls, and from none; to a pipe that is not called, to a bar and to
none. -/
theorem witness_TuneMovesTheHold_requests :
    (tuned.ch.state = .ready ∧ tuned.dt.tuning.map (·.output) = some 3 ∧
      (tuned.prof.windowOf 3).map (·.kind) ≠ some .bar ∧ tuned.dt.pipe.get 3 = 1) ∧
      (live.serves ∧ live.ch.state = .ready ∧ ¬ ∃ x, live.dt.tuning.map (·.output) = some x) ∧
      ((tuned.prof.windowOf 5).map (·.kind) = some .pipe ∧ tuned.dt.pipe.get 5 = 0) ∧
      (tuned.prof.windowOf 31).map (·.kind) = some .bar :=
  ⟨⟨rfl, rfl, by decide, rfl⟩, ⟨live_serves, rfl, by rintro ⟨x, e⟩; cases e⟩, ⟨by decide, rfl⟩, by decide⟩

/-! ### Witnesses: the chamber -/

theorem witness_ChamberWakeIsAdmittedByState :
    (live.serves ∧ live.ch.state = .ready) ∧
      ((chamber house .dark).serves ∧ (0x0001#16).getLsbD (chamber house .dark).pf.station.val = true ∧
        (chamber house .dark).prof.params.wakeMask.line = true ∧ (chamber house .dark).ch.state = .dark) ∧
      ((chamber house .resting).serves ∧ (chamber house .resting).ch.state = .resting) ∧
      (0xFFFE#16).getLsbD live.pf.station.val = false :=
  ⟨⟨live_serves, rfl⟩, ⟨chamber_serves (by decide), by decide, rfl, rfl⟩, ⟨chamber_serves (by decide), rfl⟩, by decide⟩

/-- The chamber with output 32 in a state that draws `units`. -/
def withOut (v : OutState) (units : Nat) : State := { live with pa := oneOut 32 v units }

theorem witness_ChamberRestSilencesAReadyChamber :
    (live.serves ∧ (0x0001#16).getLsbD live.pf.station.val = true ∧ live.ch.state = .ready) ∧
      ((chamber house .winding).serves ∧ (chamber house .winding).ch.state ≠ .ready) ∧
      (0xFFFE#16).getLsbD live.pf.station.val = false ∧
      ((withOut .holding 0).pa.outs.wf ∧ (withOut .holding 0).out 32 = .holding ∧
        ((withOut .holding 0).chain (32 / 384)).shift = none ∧ (withOut .holding 0).prof.chainLength (32 / 384) ≠ 0) :=
  ⟨⟨live_serves, by decide, rfl⟩, ⟨chamber_serves (by decide), by decide⟩, by decide, by decide, rfl, rfl, by decide⟩

/-- A state of a chamber with its rest timer at moment `m`. -/
def timed (s : State) (m : Nat) : State := { s with ch := { s.ch with rest := some m } }

theorem witness_RestTimerRestsASilentChamber :
    (live.takes ∧ live.dt.pipe.wf ∧ live.ch.rest = none) ∧
      ((timed live 1000).takes ∧ (timed live 1000).ch.state = .ready ∧
        dueAt (max (timed live 1000).now 0) (timed live 1000).ch.rest ∧
        (∀ o, (timed live 1000).dt.pipe.get o = 0) ∧
        ∀ r, 1 ≤ r → r < 8 → (timed live 1000).runner r = none) ∧
      ((timed tuned 1000).takes ∧ (timed tuned 1000).dt.pipe.wf ∧
        dueAt (max (timed tuned 1000).now 0) (timed tuned 1000).ch.rest ∧
        (timed tuned 1000).dt.pipe.get 3 ≠ 0) ∧
      ¬ dueAt (max (timed live 1001).now 0) (timed live 1001).ch.rest := by
  refine ⟨⟨live_takes, by decide, rfl⟩, ⟨takes_of rfl rfl, rfl, ⟨1000, rfl, by decide⟩, fun o => rfl, fun r _ _ => rfl⟩,
    ⟨takes_of rfl rfl, by decide, ⟨1000, rfl, by decide⟩, by decide⟩, ?_⟩
  rintro ⟨m, e, h⟩
  cases e
  exact absurd h (by decide)

theorem witness_ChamberDarkDarkensTheChamber :
    (live.serves ∧ (0x0001#16).getLsbD live.pf.station.val = true ∧ live.ch.state = .ready) ∧
      ((chamber house .gathering).serves ∧ (chamber house .gathering).ch.state = .gathering) ∧
      ((chamber house .dark).serves ∧ (chamber house .dark).ch.state = .dark) :=
  ⟨⟨live_serves, by decide, rfl⟩, ⟨chamber_serves (by decide), rfl⟩, chamber_serves (by decide), rfl⟩

/-- The gathering chamber, with station 1 heard GATHERING and a pipe called for. -/
def gathered : State :=
  { chamber house .gathering with
    pt := ⟨[(1, { state := .heard, announced := some .gathering, silence := some 9000, crossed := none })]⟩
    dt := { live.dt with pipe := ⟨[(3, 1)]⟩ } }

/-- Every other member of the sync set of `house`, stations 1 and 2, announces GATHERING or READY once station 2 announces
READY. -/
theorem gathered_ends (b : Station) (h : house.params.syncSet.getLsbD b.val = true) :
    let heard : State := { gathered.at 0 with
      pt := gathered.pt.set 2
        { state := .heard, announced := announcedOf 5#8, silence := some (1000 + 600000), crossed := none } }
    (heard.peer b).state = .heard ∧
      ((heard.peer b).announced = some .gathering ∨ (heard.peer b).announced = some .ready) := by
  revert b
  decide

/-- A gathering chamber whose LEAD group is called for, with seven frames waiting, the last of them a PRESENCE. -/
def nearlyFull : State :=
  { gathered with
    tsu := { gathered.tsu with trems := ⟨[(0, { (default : Trem) with onCount := 1 })]⟩ }
    li := { gathered.li with
      queue := List.replicate 6 { frame := .mark 2 1, age := 8 } ++ [{ frame := .presence .gathering false 0, age := 9 }] } }

/-- Seven frames wait, the entry adds a BEAT, and the PRESENCE that waits is replaced (R160). -/
theorem nearlyFull_waits : nearlyFull.listens ∧ nearlyFull.li.mute = false ∧ nearlyFull.leadsToStart = 1 ∧
    ¬ nearlyFull.li.queue.length + nearlyFull.leadsToStart < 8 ∧
    ∃ q ∈ nearlyFull.li.queue, ∃ st fault tag, q.frame = .presence st fault tag :=
  ⟨⟨takes_of rfl rfl, by decide⟩, rfl, by decide, by decide, _, List.mem_append_right _ (List.mem_singleton_self _), _, _,
    _, rfl⟩

theorem witness_PresenceEndsTheGathering :
    (live.listens ∧ live.ch.state ≠ .gathering) ∧
      (gathered.li.mute = false ∧ gathered.li.queue.length + gathered.leadsToStart < 8) ∧
      (gathered.listens ∧ gathered.ch.state = .gathering ∧ gathered.QuietOutsideReady ∧ gathered.runner 0 = none ∧
        0 < gathered.dt.pipe.get 3 ∧ (gathered.prof.windowOf 3).map (·.kind) = some .pipe ∧
        gathered.prof.lineFunction 4 = .readyLamp) :=
  ⟨⟨live_listens, by decide⟩, ⟨rfl, by decide⟩, ⟨takes_of rfl rfl, by decide⟩, rfl,
    { arbiter := fun _ => rfl, effects := fun _ => ⟨rfl, fun r _ _ => rfl⟩, clocks := fun _ => rfl,
      groups := fun _ g _ => rfl, shutters := fun _ x _ => ⟨rfl, rfl⟩, rest := fun _ => rfl,
      sync := by decide },
    rfl, by decide, by decide, rfl⟩

/-- The entry to READY of a sound house, with a LEAD group to start and room for its BEAT. -/
theorem witness_PresenceEndsTheGathering_begun :
    (gathered.ProfileSound ∧ nearlyFull.ProfileSound ∧ nearlyFull.runner 0 = none) ∧ nearlyFull.QuietOutsideReady ∧
      (nearlyFull.li.queue.length + nearlyFull.leadsToStart ≤ 8 ∧
        ∃ x, nearlyFull.tremGroup 0 = some x ∧ x.mode = .lead ∧ 0 < (nearlyFull.trem 0).onCount ∧
          (nearlyFull.trem 0).running = false) := by
  refine ⟨⟨profiled rfl, profiled rfl, rfl⟩, ?_, by decide, _, rfl, rfl, by decide, rfl⟩
  exact
    { arbiter := fun _ => rfl, effects := fun _ => ⟨rfl, fun r _ _ => rfl⟩, clocks := fun _ => rfl
      groups := fun _ g l => (by interval_cases g <;> rfl), shutters := fun _ x _ => ⟨rfl, rfl⟩, rest := fun _ => rfl
      sync := by decide }

/-- The house without tremulants and shutters. -/
def plain : Profile := { house with groups := [], sets := [] }

/-- The house whose sync set no other station is a member of. -/
def alone : Profile := { house with params := { house.params with syncSet := 1 } }

theorem witness_SyncTimeoutEntersReady :
    (live.takes ∧ live.ch.state ≠ .gathering) ∧
      ((chamber plain .gathering).li.mute = false ∧
        (chamber plain .gathering).li.queue.length + (chamber plain .gathering).leadsToStart < 8) ∧
      ((chamber plain .gathering).takes ∧ (chamber plain .gathering).ch.state = .gathering ∧
        dueAt (max (chamber plain .gathering).now 0) (chamber plain .gathering).ch.sync ∧
        (chamber plain .gathering).runner 0 = none ∧ (chamber plain .gathering).prof.groups = [] ∧
        (chamber plain .gathering).prof.sets = [] ∧ (∀ o, (chamber plain .gathering).dt.pipe.get o = 0) ∧
        let s := chamber plain .gathering
        let fails := fun b : Station => s.prof.params.syncSet.getLsbD b.val = true ∧ b ≠ s.pf.station ∧
          ¬ ((s.peer b).state = .heard ∧
            ((s.peer b).announced = some .gathering ∨ (s.peer b).announced = some .ready))
        (fails 1 ∧ ∀ b', fails b' → 1 ≤ b') ∧
          (∃ l : List Station, l.Nodup ∧ (∀ x, x ∈ l ↔ fails x) ∧ l.length = 2)) ∧
      (chamber alone .gathering).takes :=
  ⟨⟨live_takes, by decide⟩, ⟨rfl, by decide⟩, ⟨takes_of rfl rfl, rfl, ⟨900, rfl, by decide⟩, rfl, rfl, rfl, fun o => rfl,
    by decide,
    [1, 2], by decide, by decide, rfl⟩, takes_of rfl rfl⟩

/-- The gathering chamber with every other member of its sync set heard READY. -/
def allHere : State :=
  { chamber house .gathering with
    pt := ⟨[(1, { state := .heard, announced := some .ready, silence := some 9000, crossed := none }),
      (2, { state := .heard, announced := some .ready, silence := some 9000, crossed := none })]⟩ }

/-- A sound house that gathers with members missing, and one with none missing. -/
theorem witness_SyncTimeoutEntersReady_begun :
    (let s := chamber house .gathering;
      s.takes ∧ s.ch.state = .gathering ∧ dueAt (max s.now 0) s.ch.sync ∧ s.runner 0 = none ∧ s.QuietOutsideReady ∧
        s.ProfileSound ∧ (s.lacks 1 ∧ ∀ b', s.lacks b' → 1 ≤ b') ∧
        ∃ l : List Station, l.Nodup ∧ (∀ x, x ∈ l ↔ s.lacks x) ∧ l.length = 2) ∧
      (allHere.takes ∧ dueAt (max allHere.now 0) allHere.ch.sync ∧ allHere.ProfileSound ∧ ∀ b, ¬ allHere.lacks b) :=
  ⟨⟨takes_of rfl rfl, rfl, ⟨900, rfl, by decide⟩, rfl, chamber_quiet _ _, profiled rfl,
      by unfold State.lacks; decide, [1, 2], by decide, by unfold State.lacks; decide, rfl⟩,
    takes_of rfl rfl, ⟨900, rfl, by decide⟩, profiled rfl, by unfold State.lacks; decide⟩

/-- A chamber whose runner 0 awaits line 0 low with a timeout at moment `m`, at step 0 of a script. -/
def awaiting (st : ChamberState) (script : Script) (m : Nat) : State :=
  (chamber house st).setRunner 0 (some (contextAt script 0 (.awaitLine 0 false (.due m))))

theorem awaiting_takes (st : ChamberState) (script : Script) (m : Nat) : (awaiting st script m).takes :=
  takes_with rfl rfl (by simp [contextAt])

theorem witness_WakeTimeoutDarkensTheChamber :
    ((awaiting .winding .wake 1001).takes ∧
      (awaiting .winding .wake 1001).runner 0 = some (contextAt .wake 0 (.awaitLine 0 false (.due 1001)))) ∧
      ((awaiting .winding .wake 1000).takes ∧
        (awaiting .winding .wake 1000).runner 0 = some (contextAt .wake 0 (.awaitLine 0 false (.due 1000))) ∧
        1000 ≤ max (awaiting .winding .wake 1000).now 0) ∧
      ((awaiting .settling .rest 1000).takes ∧
        (awaiting .settling .rest 1000).runner 0 = some (contextAt .rest 0 (.awaitLine 0 false (.due 1000))) ∧
        (awaiting .settling .rest 1000).prof.steps[0 + 1]? = some (.wait 30)) :=
  ⟨⟨awaiting_takes _ _ _, rfl⟩, ⟨awaiting_takes _ _ _, rfl, by decide⟩, awaiting_takes _ _ _, rfl, rfl⟩

/-- A chamber one of whose lines has a debounce timer at moment `m`, with its pin at a level. -/
def bouncing (st : ChamberState) (l : Nat) (v : Bool) (m : Nat) : State :=
  (chamber house st).setLine l { raw := v, debounced := !v, debounce := some m, driven := false }

theorem bouncing_takes (st : ChamberState) (l : Nat) (v : Bool) (m : Nat) : (bouncing st l v m).takes :=
  takes_of rfl rfl

theorem bouncing_due (st : ChamberState) (l : Nat) (v : Bool) :
    dueAt (max (bouncing st l v 1000).now 0) ((bouncing st l v 1000).line l).debounce := by
  refine ⟨1000, ?_, by simp [bouncing, State.setLine, chamber]⟩
  simp [bouncing]

theorem witness_DebouncedEdgeReachesItsBlock :
    (live.takes ∧ (live.line 0).debounce = none) ∧
      (house.lineFunction 0 = .pressure ∧ house.lineFunction 1 = .power ∧ house.lineFunction 2 = .cue ∧
        house.lineFunction 3 = .alloff ∧ house.params.wakeMask.localPower = true) ∧
      ((bouncing .ready 0 true 1000).takes ∧ (bouncing .ready 0 true 1000).runner 0 = none ∧
        ((bouncing .ready 0 true 1000).line 0).raw = true) ∧
      (((bouncing .dark 0 false 1000).line 0).raw = false ∧ (bouncing .dark 0 false 1000).ch.state = .dark) ∧
      ((bouncing .ready 0 false 1000).takes ∧ ((bouncing .ready 0 false 1000).line 0).raw = false ∧
        (bouncing .ready 0 false 1000).ch.state = .ready) ∧
      (((bouncing .gathering 0 false 1000).line 0).raw = false ∧
        (bouncing .gathering 0 false 1000).ch.state = .gathering) ∧
      (((bouncing .dark 1 true 1000).line 1).raw = true ∧ (bouncing .dark 1 true 1000).ch.state = .dark) ∧
      ((∀ c timer, (bouncing .resting 1 true 1000).runner 0 = some c → c.waiting ≠ .awaitLine 1 true timer) ∧
        ((bouncing .resting 1 true 1000).line 1).raw = true ∧ (bouncing .resting 1 true 1000).ch.state = .resting) ∧
      (((bouncing .ready 2 true 1000).prof.lines[2]?).map (·.effect) = some 1 ∧
        ∃ x, (bouncing .ready 2 true 1000).effect 1 = some x ∧ x.mode = .level) ∧
      (((bouncing .ready 3 true 1000).line 3).raw = true ∧ (bouncing .ready 3 true 1000).ProfileSound ∧
        (bouncing .ready 3 true 1000).KeyboardSound) ∧
      ∃ c timer, (awaiting .winding .wake 1000).runner 0 = some c ∧ c.waiting = .awaitLine 0 false timer :=
  ⟨⟨live_takes, rfl⟩, by decide, ⟨bouncing_takes _ _ _ _, rfl, rfl⟩, by decide, ⟨bouncing_takes _ _ _ _, by decide⟩,
    by decide, by decide, ⟨fun c _ e => (by cases e), by decide⟩, ⟨rfl, _, rfl, rfl⟩,
    ⟨rfl, profiled rfl, keyboard_empty rfl⟩, _, _, rfl, rfl⟩

/-- A chamber whose runner 0 awaits a line at the level that its debounce is about to give it. -/
def listening (st : ChamberState) (script : Script) (l : Nat) (v : Bool) : State :=
  (bouncing st l v 1000).setRunner 0 (some (contextAt script 0 (.awaitLine l v (.due 9000))))

/-- The house whose CUE line names an EDGE effect. -/
def edgeCued : Profile :=
  { house with lines := house.lines.set 2 { function := .cue, debounceCode := 0, effect := 0 } }

/-- Edges that runner 0 awaits, on lines of each function; a POWER rise that is not admitted; an EDGE effect's cue. -/
theorem witness_DebouncedEdgeReachesItsBlock_awaited :
    (∀ st script l v, (listening st script l v).takes ∧
        dueAt (max (listening st script l v).now 0) ((listening st script l v).line l).debounce ∧
        ((listening st script l v).line l).raw = v ∧ (listening st script l v).ch.state = st ∧
        (listening st script l v).runner 0 = some (contextAt script 0 (.awaitLine l v (.due 9000))) ∧
        (listening st script l v).prof.steps[0 + 1]? = some (.wait 30)) ∧
      (house.lineFunction 6 = .none ∧ house.lineFunction 0 = .pressure ∧ house.lineFunction 1 = .power ∧
        house.lineFunction 2 = .cue ∧ house.lineFunction 3 = .alloff ∧ house.params.wakeMask.localPower = true) ∧
      ((bouncing .winding 1 true 1000).ch.state = .winding ∧ (bouncing .winding 1 true 1000).runner 0 = none) ∧
      (bouncing .ready 0 false 1000).pa.outs.wf ∧
      (edgeCued.lineFunction 2 = .cue ∧ (edgeCued.lines[2]?).map (·.effect) = some 0 ∧
        ∃ x, edgeCued.effects[0]? = some x ∧ x.mode = .edge) := by
  refine ⟨fun st script l v => ⟨takes_with rfl (State.runner_setRunner_self _ _ _) (by simp [contextAt]), ?_, ?_, rfl,
    State.runner_setRunner_self _ _ _, rfl⟩, by decide, ⟨rfl, rfl⟩, by decide, by decide, rfl, _, rfl, rfl⟩
  · exact bouncing_due st l v
  · simp [listening, bouncing, State.setLine, State.setRunner, State.line, chamber]

theorem witness_RawLevelStartsTheDebounce :
    (live.takes ∧ (live.line 5).raw = false ∧ (live.line 5).debounced = false) ∧
      ((State.reset.line 5).raw ≠ true ∧ State.reset.profile.isSome = false) ∧
      (live.prof.lineFunction 4).isInput = false ∧
      ((bouncing .ready 5 true 2000).takes ∧ ((bouncing .ready 5 true 2000).line 5).raw ≠ false ∧
        ((bouncing .ready 5 true 2000).line 5).debounced = false) ∧
      ((live.prof.lineFunction 5).isInput = true ∧ (live.line 5).debounced ≠ true ∧
        debounceTime (((live.prof.lines[5]?).map (·.debounceCode)).getD 0) = 10) ∧
      ((live.prof.lineFunction 0).isInput = true ∧ (live.line 0).debounced ≠ true ∧
        debounceTime (((live.prof.lines[0]?).map (·.debounceCode)).getD 0) = 0) :=
  ⟨⟨live_takes, rfl, rfl⟩, by decide, rfl, ⟨bouncing_takes _ _ _ _, by decide, rfl⟩, by decide, by decide⟩

/-! ### Witnesses: the runners and the effects -/

/-- The chamber with runner `r` occupied by a context. -/
def running (r : Nat) (c : Context) : State := live.setRunner r (some c)

theorem running_takes {r : Nat} {c : Context} (w : c.waiting ≠ .running) : (running r c).takes := by
  refine ⟨rfl, fun d e => ?_⟩
  rw [running, State.runner_setRunner] at e
  split at e
  · cases e; exact w
  · cases e

theorem running_serves {r : Nat} {c : Context} (w : c.waiting ≠ .running) : (running r c).serves :=
  ⟨⟨running_takes w, by simp [running, State.setRunner, live, chamber]⟩, rfl⟩

/-- A context of effect 0 at step 0 that waits until moment `m`. -/
def waiter (m : Nat) : Context := contextAt (.effectOn 0) 0 (.wait (.due m))

/-- A context of effect 0 at step 0 that awaits mark 7 until moment `m`. -/
def awaiter (m : Nat) : Context := contextAt (.effectOn 0) 0 (.await 7 (.due m))

/-- Runner 3 awaits mark 7, which this station is sending. -/
def marking : State :=
  { running 3 (awaiter 1000) with
    li := { live.li with inFlight := some { frame := .mark 7 1, age := 900 } } }

/-- Only runner 3 of `running 3 c` is occupied. -/
theorem running_only {c c' : Context} {r' : Nat} (h : r' ≠ 3) (e : (running 3 c).runner r' = some c') : False := by
  have z : (running 3 c).runner r' = live.runner r' := by
    rw [running, State.runner_setRunner, if_neg h]
  rw [z] at e
  cases e

/-- The chamber with a store of steps of every kind, its line 10 a GENERAL line and its line 2 a CUE line. -/
def scripted : Profile :=
  { house with
    lines := house.lines.set 10 (plainLine .general)
    steps :=
      [.wait 50, .strike 32 20, .hold 33, .lift 33, .loop 0 0 .a, .loop 0 1 .b, .loop 0 9 .a, .mark 7, .await 7 30,
        .awaitLine 10 false 60, .awaitLine 10 true 60, .setLine 10 true, .rearm, .done] }

/-- The chamber of `scripted` READY. -/
def scriptedLive : State := chamber scripted .ready

/-- The same, its runner 0 awaiting line 10 high. -/
def lineAwaited : State :=
  scriptedLive.setRunner 0 (some (contextAt .wake 10 (.awaitLine 10 true (.due 9000))))

/-- What the clauses on the kinds of step ask of a state and a context, with a step of each kind. -/
theorem witness_takeStep :
    (∀ c : Context,
      (c.index = 0 → scripted.steps[c.index]? = some (.wait 50)) ∧
      (c.index = 1 → scripted.steps[c.index]? = some (.strike 32 20)) ∧
      (c.index = 2 → scripted.steps[c.index]? = some (.hold 33)) ∧
      (c.index = 3 → scripted.steps[c.index]? = some (.lift 33)) ∧
      (c.index = 4 → scripted.steps[c.index]? = some (.loop 0 0 .a)) ∧
      (c.index = 5 → scripted.steps[c.index]? = some (.loop 0 1 .b)) ∧
      (c.index = 6 → scripted.steps[c.index]? = some (.loop 0 9 .a)) ∧
      (c.index = 7 → scripted.steps[c.index]? = some (.mark 7)) ∧
      (c.index = 8 → scripted.steps[c.index]? = some (.await 7 30)) ∧
      (c.index = 9 → scripted.steps[c.index]? = some (.awaitLine 10 false 60)) ∧
      (c.index = 10 → scripted.steps[c.index]? = some (.awaitLine 10 true 60)) ∧
      (c.index = 11 → scripted.steps[c.index]? = some (.setLine 10 true)) ∧
      (c.index = 12 → scripted.steps[c.index]? = some .rearm) ∧
      (c.index = 13 → scripted.steps[c.index]? = some .done)) ∧
    (33 ∈ [32, 33] ∧ 33 ∉ [32] ∧ [32].length < 4 ∧ 4 ≤ [32, 34, 35, 32].length) ∧
    ((scriptedLive.effect 1).map (·.mode) = some .level ∧ (scriptedLive.effect 0).map (·.mode) = some .edge) ∧
    (scriptedLive.li.mute = false ∧ scriptedLive.li.queue.length < 8 ∧ muted.li.mute = true ∧
      crowded.li.mute = false ∧ 8 ≤ crowded.li.queue.length) ∧
    ((scripted.lineFunction 10).isOutput = true ∧ (scriptedLive.line 10).driven ≠ true ∧
      lineAwaited.runner 0 = some (contextAt .wake 10 (.awaitLine 10 true (.due 9000)))) := by
  refine ⟨fun c => ?_, by decide, by decide, by decide, by decide, by decide, rfl⟩
  refine ⟨?_, ?_, ?_, ?_, ?_, ?_, ?_, ?_, ?_, ?_, ?_, ?_, ?_, ?_⟩ <;> (intro h; rw [h]; rfl)

theorem witness_WaitingRunnerGoesOn :
    ((running 3 (waiter 1000)).takes ∧ (running 3 (waiter 1000)).runner 3 = some (waiter 1000) ∧
      house.steps[0 + 1]? = some (.wait 30) ∧ 1000 ≤ max (running 3 (waiter 1000)).now 0) ∧
      ((running 3 (awaiter 1001)).serves ∧ (running 3 (awaiter 1001)).runner 3 = some (awaiter 1001) ∧
        ¬ 1001 ≤ max (running 3 (awaiter 1001)).now 1000 ∧
        (∀ m, (awaiter 1001).waiting ≠ .wait (.due m)) ∧ (∀ k m, (waiter 1000).waiting ≠ .await k (.due m)) ∧
        ∀ r' c', r' < 8 → r' ≠ 3 → (running 3 (awaiter 1001)).runner r' = some c' →
          ∀ m', c'.waiting ≠ .await 7 (.due m')) ∧
      (marking.takes ∧ marking.runner 3 = some (awaiter 1000) ∧
        marking.li.inFlight = some { frame := .mark 7 1, age := 900 }) ∧
      (live.serves ∧ ∀ r c, r < 8 → live.runner r = some c → ∀ m, c.waiting ≠ .await 7 (.due m)) :=
  ⟨⟨running_takes (by simp [waiter, contextAt]), rfl, rfl, by decide⟩,
    ⟨running_serves (by simp [awaiter, contextAt]), rfl, by decide, by simp [awaiter, contextAt],
      by simp [waiter, contextAt], fun r' c' _ h e => (running_only h e).elim⟩,
    ⟨takes_of rfl rfl, rfl, rfl⟩, live_serves, fun r c _ e => by cases e⟩

/-- Runners 2 and 3 await mark 7, received or sent whole; each has a pass. -/
theorem witness_WaitingRunnerGoesOn_marks :
    let s := marking.setRunner 2 (some (awaiter 1200))
    s.serves ∧ s.runner 2 = some (awaiter 1200) ∧ s.runner 3 = some (awaiter 1000) ∧
      (awaiter 1200).awaits 7 ∧ (awaiter 1000).awaits 7 ∧ s.li.inFlight = some { frame := .mark 7 1, age := 900 } ∧
      ∀ (r m : Nat) (v : State), v.profile = some house →
        ∃ c' s', PassTo r { awaiter m with index := 1, waiting := .running } v .waits c' s' := by
  refine ⟨⟨⟨takes_of rfl rfl, by decide⟩, rfl⟩, rfl, rfl, ⟨_, rfl⟩, ⟨_, rfl⟩, rfl, fun r m v e => ?_⟩
  have step : takeStep r { awaiter m with index := 1, waiting := .running } v =
      (.waits, { awaiter m with index := 1, waiting := .wait (.due (v.now + 30 * 1000)) }, v) := by
    simp only [takeStep, State.prof, e]
    rfl
  exact ⟨_, _, .stop step (by decide)⟩

/-- Runner 3 at the last WAIT of effect 0, holding output 32. -/
def lastWait : Context := { contextAt (.effectOn 0) 2 (.wait (.due 1000)) with held := [32] }

/-- The same, with output 32 HOLDING and effect 0 the holder of its group. -/
def ending (stack : List Context) (pending : Option Nat) : State :=
  { (running 3 lastWait).setGroup 3 { holder := some 0, stack := stack, pending := pending } with
    pa := oneOut 32 .holding 0 }

theorem ending_takes (stack : List Context) (pending : Option Nat) : (ending stack pending).takes :=
  takes_of rfl rfl

theorem ending_arbiter (stack : List Context) (pending : Option Nat) : (ending stack pending).ArbiterSound :=
  arbiter_one (s := ending stack pending) (o := 32) (v := .holding) (units := 0) rfl rfl rfl (Nat.zero_le _)

/-- A chamber SETTLING whose REST script is at its last WAIT. -/
def restEnding : State := (chamber house .settling).setRunner 0 (some (contextAt .rest 2 (.wait (.due 1000))))

/-- A chamber WINDING whose WAKE script is at its last WAIT. -/
def wakeEnding (origin : Origin) : State :=
  let s := (chamber house .winding).setRunner 0 (some (contextAt .wake 2 (.wait (.due 1000))))
  { s with ch := { s.ch with origin := origin } }

/-- A WAKE script that ends, with either origin, and comes to READY with origin OTHER. -/
theorem witness_WaitingRunnerGoesOn_wake :
    (∀ origin, (wakeEnding origin).takes ∧ (wakeEnding origin).ch.origin = origin ∧
        (wakeEnding origin).runner 0 = some (contextAt .wake 2 (.wait (.due 1000))) ∧
        Script.chamberState .wake = some (wakeEnding origin).ch.state ∧ (wakeEnding origin).QuietOutsideReady ∧
        let begun := { contextAt .wake 2 (.wait (.due 1000)) with index := 3, waiting := .running };
        ∃ c' s', PassTo 0 begun (((wakeEnding origin).at 0).setRunner 0 (some begun)) .ended c' s') ∧
      nextHas (exec (.waitEnd 0 0) (wakeEnding .other)) (fun u => decide (u.ch.state = .ready)) = true := by
  refine ⟨fun origin => ⟨takes_with rfl rfl (by simp [contextAt]), rfl, rfl, rfl, ?_, _, _, .stop rfl (by decide)⟩,
    by decide +kernel⟩
  exact
    { arbiter := fun _ => rfl
      effects := fun _ => ⟨rfl, fun r a _ => by
        show (State.setRunner 0 _ (chamber house .winding)).runner r = none
        rw [State.runner_setRunner, if_neg (by omega)]; rfl⟩
      clocks := fun _ => rfl, groups := fun _ g _ => rfl, shutters := fun _ x _ => ⟨rfl, rfl⟩, rest := fun _ => rfl
      sync := (chamber_quiet house .winding).sync }

/-- A WAKE script that ends, and a wake, with PA to be asked at the entry to READY. -/
theorem witness_WaitingRunnerGoesOn_asks :
    (wakeEnding .other).ProfileSound ∧ (wakeEnding .other).ch.state ≠ .ready ∧
      (chamber house .dark).ProfileSound ∧ (chamber house .dark).QuietOutsideReady ∧
      (chamber house .dark).ch.state ≠ .ready :=
  ⟨profiled rfl, by decide, profiled rfl, chamber_quiet _ _, by decide⟩

/-- Passes that wait and passes that end, of an effect's runner and of runner 0. -/
theorem witness_passes :
    (let s := running 3 (waiter 1000);
      let begun := { waiter 1000 with index := 1, waiting := .running };
      ∃ c' s', PassTo 3 begun ((s.at 0).setRunner 3 (some begun)) .waits c' s' ∧
        (s'.setRunner 3 (some c')).runner 0 = none) ∧
    (let s := ending [] none;
      let begun := { lastWait with index := 3, waiting := .running };
      ∃ c' s', PassTo 3 begun ((s.at 0).setRunner 3 (some begun)) .ended c' s' ∧ s'.runner 0 = none) ∧
    (let begun := { contextAt .rest 2 (.wait (.due 1000)) with index := 3, waiting := .running };
      restEnding.takes ∧ restEnding.runner 0 = some (contextAt .rest 2 (.wait (.due 1000))) ∧
        Script.chamberState .rest = some restEnding.ch.state ∧
        ∃ c' s', PassTo 0 begun ((restEnding.at 0).setRunner 0 (some begun)) .ended c' s') :=
  ⟨⟨_, _, .stop rfl (by decide), rfl⟩, ⟨_, _, .stop rfl (by decide), rfl⟩,
    takes_with rfl rfl (by simp [contextAt]), rfl, rfl, _, _, .stop rfl (by decide)⟩

/-- Effect 1, suspended with 500 microseconds of its wait left. -/
def suspended : Context := contextAt (.effectOn 1) 1 (.wait (.left 500))

/-- Effect 3, suspended with 500 microseconds of its wait left. -/
def suspendedLow : Context := contextAt (.effectOn 3) 1 (.wait (.left 500))

/-- Effect 0 ends while effect 2 is pending in group 5. -/
def handingOn : State := (ending [] none).setGroup 5 { holder := none, stack := [], pending := some 2 }

/-- Group 5 is the only group of `handingOn` with a pending effect. -/
theorem handingOn_pending {g e : Nat} (h : g ≠ 5) : (handingOn.group g).pending ≠ some e := by
  intro k
  rw [handingOn, State.group_setGroup, if_neg h] at k
  change (((running 3 lastWait).setGroup 3 _).group g).pending = some e at k
  rw [State.group_setGroup] at k
  split at k <;> cases k

theorem witness_EndedEffectHandsItsRunnerOn :
    (∀ stack pending, (ending stack pending).takes ∧ (ending stack pending).runner 3 = some lastWait ∧
      lastWait.waiting = .wait (.due 1000) ∧ 1000 ≤ max (ending stack pending).now 0 ∧
      (ending stack pending).prof.steps[2 + 1]? = some .done ∧ lastWait.script = .effectOn 0 ∧
      (ending stack pending).groupOf 0 = 3 ∧ (ending stack pending).ch.state = .ready ∧
      (32 ∈ lastWait.held ∧ (ending stack pending).out 32 = .holding) ∧ (ending stack pending).ArbiterSound) ∧
    (let s := ending [] none;
      (s.group 3).pending = none ∧ (s.group 3).stack = [] ∧
        ∀ g', g' < 16 → g' ≠ 3 → (s.group g').holder = none → (s.group g').pending = none) ∧
    (let s := ending [suspended] (some 3);
      (s.group 3).stack = [suspended] ∧ suspended.waiting.timer = some (.left 500) ∧ (s.group 3).pending = some 3 ∧
        suspended.script = .effectOn 1 ∧ s.priority 3 ≤ s.priority 1 ∧
        s.pa.action.length + suspended.held.length ≤ 128) ∧
    (let s := ending [suspendedLow] (some 1);
      (s.group 3).pending = some 1 ∧ suspendedLow.script = .effectOn 3 ∧ s.priority 3 < s.priority 1 ∧
        ∃ x, s.effect 1 = some x ∧ x.group = 3 ∧ s.prof.steps[x.onEntry]? = some (.wait 50)) ∧
    (((ending [] (some 3)).group 3).stack = [] ∧ ∃ x, (ending [] (some 3)).effect 3 = some x ∧ x.group = 3 ∧
      (ending [] (some 3)).prof.steps[x.onEntry]? = some (.wait 30)) ∧
    (handingOn.takes ∧ (handingOn.group 3).stack = [] ∧ (handingOn.group 3).pending = none ∧
      (handingOn.group 5).holder = none ∧ (handingOn.group 5).pending = some 2 ∧
      (∀ g q, g ≠ 5 → (handingOn.group g).pending ≠ some q) ∧
      ∃ x, handingOn.effect 2 = some x ∧ x.group = 5 ∧ handingOn.prof.steps[x.onEntry]? = some (.wait 50)) := by
  refine ⟨fun stack pending => ⟨ending_takes _ _, rfl, rfl, by show 1000 ≤ max 1000 0; decide, rfl, rfl, rfl, rfl,
      ⟨by decide, rfl⟩, ending_arbiter _ _⟩, ⟨rfl, rfl, by decide⟩,
    ⟨rfl, rfl, rfl, rfl, by decide, by decide⟩, ⟨rfl, rfl, by decide, _, rfl, rfl, rfl⟩, ⟨rfl, _, rfl, rfl, rfl⟩,
    takes_of rfl rfl, rfl, rfl, rfl, rfl, fun g q h => handingOn_pending h, _, rfl, rfl, rfl⟩

/-- The chamber with claim group 3 in a state, and runner 3 occupied by a context of its holder. -/
def grouped (g : Group) (c : Context) : State := (running 3 c).setGroup 3 g

/-- The chamber with every runner occupied. -/
def crowdedRunners : State :=
  { live with ee := { live.ee with
      runners := ⟨[(1, some (waiter 9)), (2, some (waiter 9)), (3, some (waiter 9)), (4, some (waiter 9)),
        (5, some (waiter 9)), (6, some (waiter 9)), (7, some (waiter 9))]⟩ } }

/-- A holder that may be triggered again (R97). -/
def rearmedWaiter : Context := { waiter 2000 with rearmed := true }

theorem witness_TriggerIsAnsweredByItsGroup :
    (∃ x, live.effect 0 = some x ∧ x.priority = 3 ∧ x.group = 3 ∧ live.prof.steps[x.onEntry]? = some (.wait 50)) ∧
      (∃ x, live.effect 1 = some x ∧ x.priority = 5 ∧ x.group = 3 ∧ live.prof.steps[x.onEntry]? = some (.wait 50)) ∧
      (chamber house .dark).ch.state ≠ .ready ∧ live.ch.state = .ready ∧
      (live.group 3).pending = none ∧ (live.group 3).stack = [] ∧ (live.group 3).holder = none ∧
      (live.runner 1 = none ∧ ∀ r', 1 ≤ r' → r' < 1 → live.runner r' ≠ none) ∧
      ((grouped { holder := none, stack := [], pending := some 1 } (waiter 2000)).group 3).pending = some 1 ∧
      ((crowdedRunners.group 3).holder = none ∧ ∀ r, 1 ≤ r → r < 8 → crowdedRunners.runner r ≠ none) ∧
      (let s := grouped { holder := some 0, stack := [], pending := none } (waiter 2000);
        (s.group 3).holder = some 0 ∧ s.runnerOf 0 = some 3 ∧ s.runner 3 = some (waiter 2000) ∧
          (waiter 2000).rearmed = false ∧ s.priority 0 < 5 ∧ (s.group 3).stack.length < 3 ∧
          (waiter 2000).waiting = .wait (.due 2000)) ∧
      (let s := grouped { holder := some 1, stack := [], pending := none } (contextAt (.effectOn 1) 0 (.wait (.due 2000)));
        (s.group 3).holder = some 1 ∧ s.runnerOf 1 = some 3 ∧ 3 ≤ s.priority 1) ∧
      (let s := grouped { holder := some 0, stack := [suspended, suspended, suspended], pending := none } (waiter 2000);
        3 ≤ (s.group 3).stack.length ∧ s.runnerOf 0 = some 3) ∧
      (let s := grouped { holder := some 0, stack := [], pending := none } rearmedWaiter;
        s.runner 3 = some rearmedWaiter ∧ rearmedWaiter.rearmed = true ∧ s.runnerOf 0 = some 3) ∧
      (∀ g c, (grouped g c).ProfileSound) ∧ live.ArbiterSound ∧
        (inTrapOf live.prof.windows 3 32 = true ∧ inTrapOf live.prof.windows 3 36 = false) := by
  refine ⟨⟨_, rfl, rfl, rfl, rfl⟩, ⟨_, rfl, rfl, rfl, rfl⟩, by decide, rfl, rfl, rfl, rfl,
    ⟨rfl, fun r' a b => absurd a (by omega)⟩, rfl, ⟨rfl, ?_⟩, by decide, by decide, by decide, by decide,
    fun g c => profiled rfl, live_arbiter, by decide⟩
  intro r low high
  interval_cases r <;> decide

/-- Counts that move: of an EDGE effect, of a LEVEL effect from 0 and to 0, and of an effect that is not there. -/
theorem witness_TriggerIsAnsweredByItsGroup_counts :
    (∃ x, live.effect 0 = some x ∧ x.mode = .edge) ∧ (∃ x, live.effect 1 = some x ∧ x.mode = .level) ∧
      (live.trigger 1).count = 0 ∧ ((live.setTrigger 1 { trap := 1, stud := false, cue := false }).trigger 1).count = 1 ∧
      live.effect 4 = none ∧ Touch.first ≠ .up :=
  ⟨⟨_, rfl, rfl⟩, ⟨_, rfl, rfl⟩, rfl, by decide, rfl, by decide⟩

/-- Effect 1 in its ON part. -/
def onPart : Context := contextAt (.effectOn 1) 0 (.wait (.due 2000))

/-- Effect 1 in its OFF part. -/
def offPart : Context := contextAt (.effectOff 1) 2 (.wait (.due 2000))

theorem witness_LevelReleaseIsAnsweredByPosition :
    (∃ x, live.effect 1 = some x ∧ x.group = 3 ∧ x.offEntry = some 2 ∧ live.prof.steps[2]? = some (.wait 20)) ∧
      ((live.group 3).holder ≠ some 1 ∧ (live.group 3).pending ≠ some 1) ∧
      (let s := grouped { holder := some 0, stack := [], pending := some 1 } (waiter 2000);
        (s.group 3).holder ≠ some 1 ∧ (s.group 3).pending = some 1) ∧
      (let s := grouped { holder := some 1, stack := [], pending := none } offPart;
        (s.group 3).holder = some 1 ∧ s.runnerOf 1 = some 3 ∧ s.runner 3 = some offPart ∧
          offPart.script = .effectOff 1) ∧
      (let s := grouped { holder := some 1, stack := [], pending := none } onPart;
        (s.group 3).holder = some 1 ∧ s.runnerOf 1 = some 3 ∧ s.runner 3 = some onPart ∧
          onPart.script = .effectOn 1) ∧
      (let s := grouped { holder := some 0, stack := [], pending := none } (waiter 2000);
        (s.group 3).holder = some 0 ∧ s.runnerOf 0 = some 3 ∧ s.runner 3 = some (waiter 2000) ∧
          (waiter 2000).script = .effectOn 0 ∧ ∃ x, s.effect 0 = some x ∧ x.group = 3 ∧ x.offEntry = none) :=
  ⟨⟨_, rfl, rfl, rfl, rfl⟩, by decide, by decide, by decide, by decide, rfl, by decide, rfl, rfl, _, rfl, rfl, rfl⟩

/-! ### Witnesses: the arbiter and the demand table -/

theorem withOut_takes (v : OutState) (units : Nat) : (withOut v units).takes := takes_of rfl rfl

theorem withOut_arbiter (v : OutState) (units : Nat) (e : v.energized = true) (u : units = v.unitsHeld 4)
    (b : units ≤ 48) : (withOut v units).ArbiterSound :=
  arbiter_one (s := withOut v units) rfl e u b

theorem witness_RequestsAreAnsweredByState :
    ((chamber house .dark).ch.state ≠ .ready ∧ live.ch.state = .ready) ∧
      (live.out 32 = .off ∧ live.pa.action.length < 128 ∧ live.ArbiterSound) ∧
      128 ≤ ({ live with pa := { live.pa with
        action := List.replicate 128 { output := 36, kind := .hold } } } : State).pa.action.length ∧
      ((withOut .holding 0).ArbiterSound ∧ (withOut .holding 0).out 32 = .holding) ∧
      ((withOut (.pulling 2000) 4).ArbiterSound ∧ (withOut (.pulling 2000) 4).out 32 = .pulling 2000) ∧
      ((withOut (.striking 2000 true) 4).ArbiterSound ∧ (withOut (.striking 2000 true) 4).out 32 = .striking 2000 true) ∧
      ((waitingRoom (.strike 9)).ArbiterSound ∧ (waitingRoom (.strike 9)).out 36 = .waiting ∧
        (waitingRoom (.strike 9)).pa.action = [] ++ { output := 36, kind := .strike 9 } :: []) ∧
      live.prof.chainLength (32 / 384) ≠ 0 :=
  ⟨⟨by decide, rfl⟩, ⟨rfl, by decide, live_arbiter⟩, by simp,
    ⟨withOut_arbiter _ _ rfl rfl (by decide), rfl⟩, ⟨withOut_arbiter _ _ rfl rfl (by decide), rfl⟩,
    ⟨withOut_arbiter _ _ rfl rfl (by decide), rfl⟩, ⟨waitingRoom_arbiter _, rfl, rfl⟩, by decide⟩

/-- The chamber with a speech and an action waiting and the run count at its limit. -/
def contested (run : Nat) : State :=
  { live with pa :=
      { outs := ⟨[(3, .waiting), (36, .waiting)]⟩, speech := [3], action := [{ output := 36, kind := .strike 20 }]
        units := 0, runCount := run } }

theorem witness_GrantsStopAtTheFirstThatDoesNotFit :
    (contested 4).pa.units ≤ (contested 4).prof.params.budget ∧
      ((contested 4).pa.speech = 3 :: [] ∧ (contested 4).prof.params.actionRunLimit ≤ (contested 4).pa.runCount ∧
        (contested 4).weight 3 ≤ (contested 4).freeUnits) ∧
      ((contested 3).pa.action = { output := 36, kind := .strike 20 } :: [] ∧
        (contested 3).pa.runCount < (contested 3).prof.params.actionRunLimit ∧
        (contested 3).weight 36 ≤ (contested 3).freeUnits) ∧
      ∃ c, (waitingRoom .hold).candidate = some c :=
  ⟨by decide, by decide, by decide, _, rfl⟩

/-- A HOLD and a pipe at the head that do not fit, and no candidate. -/
theorem witness_GrantsStopAtTheFirstThatDoesNotFit_waits :
    let pipes : State := { waitingRoom .hold with pa := { spent .hold with speech := [3], action := [] } }
    ((waitingRoom .hold).candidate = some (.action { output := 36, kind := .hold }) ∧ (waitingRoom .hold).pa.speech = [] ∧
      (waitingRoom .hold).freeUnits < (waitingRoom .hold).weight 36) ∧
      (pipes.candidate = some (.speech 3) ∧ pipes.pa.speech = 3 :: [] ∧ pipes.pa.action = [] ∧
        pipes.freeUnits < pipes.weight 3) ∧
      live.candidate = none ∧ live.pa.speech = [] ∧ live.pa.action = [] :=
  ⟨⟨rfl, rfl, by decide⟩, ⟨rfl, rfl, rfl, by decide⟩, rfl, rfl, rfl⟩

/-- Chains that are idle, without positions, and shifting. -/
theorem witness_GrantsStopAtTheFirstThatDoesNotFit_notices :
    ((live.chain 0).shift = none ∧ live.prof.chainLength 0 ≠ 0) ∧
      ((live.chain 1).shift = none ∧ live.prof.chainLength 1 = 0) ∧
      (live.setChain 0 { (default : Chain) with shift := some { pattern := [3], ends := 9 } }).cc.get 0 ≠ default :=
  ⟨⟨rfl, by decide⟩, ⟨rfl, rfl⟩, by decide⟩

theorem witness_PullInsAndStrikesEnd :
    ((withOut (.pulling 1001) 4).takes ∧ ∀ m, (withOut (.pulling 1001) 4).out 32 = .pulling m →
      max (withOut (.pulling 1001) 4).now 0 < m) ∧
      ((live.takes ∧ ∀ m, live.out 32 ≠ .pulling m) ∧ ∀ m stay, live.out 32 ≠ .striking m stay) ∧
      ((withOut (.pulling 1000) 4).takes ∧ (withOut (.pulling 1000) 4).ArbiterSound ∧
        (withOut (.pulling 1000) 4).ch.state = .ready ∧ (withOut (.pulling 1000) 4).out 32 = .pulling 1000 ∧
        1000 ≤ max (withOut (.pulling 1000) 4).now 0 ∧ (withOut (.pulling 1000) 4).pa.speech = []) ∧
      ((withOut (.striking 1000 true) 4).takes ∧ (withOut (.striking 1000 true) 4).ArbiterSound ∧
        (withOut (.striking 1000 true) 4).out 32 = .striking 1000 true) := by
  refine ⟨⟨withOut_takes _ _, fun m e => ?_⟩, ⟨⟨live_takes, fun m e => by cases e⟩, fun m stay e => by cases e⟩,
    ⟨withOut_takes _ _, withOut_arbiter _ _ rfl rfl (by decide), rfl, rfl, by decide, rfl⟩,
    withOut_takes _ _, withOut_arbiter _ _ rfl rfl (by decide), rfl⟩
  cases e
  decide

/-- The chamber with window 1's clock at moment `m` and two bars to strike. -/
def clocked (m : Nat) : State :=
  { live with dt := { live.dt with sets := ⟨[(1, [24, 26])]⟩, clocks := ⟨[(1, some m)]⟩ } }

theorem witness_ClockEdgeStrikesItsSet :
    ((clocked 1001).takes ∧ ¬ dueAt (max (clocked 1001).now 0) ((clocked 1001).dt.clocks.get 1)) ∧
      ((clocked 1000).takes ∧ (clocked 1000).ch.state = .ready ∧ (clocked 1000).dt.clocks.get 1 = some 1000 ∧
        1000 ≤ max (clocked 1000).now 0 ∧ (∃ x, (clocked 1000).prof.windows[1]? = some x) ∧
        (clocked 1000).pa.action.length + ((clocked 1000).dt.sets.get 1).length ≤ 128) := by
  refine ⟨⟨takes_of rfl rfl, ?_⟩, takes_of rfl rfl, rfl, rfl, by decide, ⟨_, rfl⟩, by decide⟩
  rintro ⟨m, e, h⟩
  cases e
  exact absurd h (by decide)

/-- Every set is empty while no output is called to reiterate. -/
theorem sets_empty {s : State} (h : s.dt.sets = .empty) (r : s.dt.reiterate = .empty) : s.SetsSound where
  member i w o _ _ := by
    rw [h, r]
    exact ⟨fun e => (by cases e), fun e => absurd e (Nat.lt_irrefl 0)⟩
  ascending i := by rw [h]; exact List.Pairwise.nil
  unprofiled _ := ⟨h, r⟩

/-- A set whose outputs lie in its window, and sound sets beside a clock that is due. -/
theorem witness_ClockEdgeStrikesItsSet_width :
    (∃ x, (clocked 1000).prof.windows[1]? = some x ∧
        ∀ o ∈ (clocked 1000).dt.sets.get 1, (clocked 1000).prof.windowOf o = some x) ∧
      (let s : State := { clocked 1000 with dt := { (clocked 1000).dt with sets := .empty } };
        s.SetsSound ∧ s.dt.clocks.get 1 = some 1000) :=
  ⟨⟨_, rfl, by decide⟩, sets_empty rfl rfl, rfl⟩

theorem witness_NotesFoldIntoTheWindow :
    ((0 : Int) + 0 + -1 < 0 ∧ (127 : Int) < 96 + 32 + 0) ∧
      (let i : Int := (36 + 24 + 0) - 24;
        (0 : Int) ≤ 36 + 24 + 0 ∧ 36 + 24 + 0 ≤ (127 : Int) ∧ 0 ≤ i ∧ i < 85 ∧ (36 : Int) ≤ i) ∧
      ((36 : Int) + 0 + 0) - 60 < 0 :=
  ⟨by decide, by decide, by decide⟩

/-! ### Witnesses: tremulants and shutters -/

/-- The chamber with both tremulant groups running, their phases due and group 1 locked to station 1. -/
def swaying : State :=
  { live with tsu := { live.tsu with trems :=
      ⟨[(0, { onCount := 1, running := true, phase0 := some 1000, phaseW := some 1000, locked := false, loss := none }),
        (1, { onCount := 1, running := true, phase0 := some 1001, phaseW := some 1001, locked := true,
              loss := some 1000 })]⟩ } }

theorem swaying_takes : swaying.takes := takes_of rfl rfl

theorem witness_BeatLocksItsFollowers :
    swaying.serves ∧
      (∃ x, swaying.tremGroup 1 = some x ∧ x.mode = .follow ∧ x.leader = 1 ∧ x.tag = 3 ∧ (swaying.trem 1).running = true) ∧
      swaying.ch.state = .ready ∧ swaying.pa.action.length < 125 ∧ swaying.tremGroup 2 = none :=
  ⟨⟨⟨swaying_takes, by decide⟩, rfl⟩, ⟨_, rfl, rfl, rfl, rfl, rfl⟩, rfl, by decide, rfl⟩

theorem witness_PhaseZeroHoldsTheTremulant :
    (swaying.takes ∧ ¬ ((swaying.trem 2).running = true) ∧
      ¬ dueAt (max swaying.now 0) (swaying.trem 1).phase0) ∧
      ((swaying.trem 0).running = true ∧ (swaying.trem 0).phase0 = some 1000 ∧ 1000 ≤ max swaying.now 0 ∧
        (∃ x, swaying.tremGroup 0 = some x ∧ x.mode = .lead) ∧ swaying.ch.state = .ready ∧
        swaying.pa.action.length < 128 ∧ swaying.li.mute = false ∧ swaying.li.queue.length < 8) ∧
      ((swaying.trem 1).running = true ∧ (swaying.trem 1).phase0 = some 1001 ∧ 1001 ≤ max swaying.now 1001 ∧
        ∃ x, swaying.tremGroup 1 = some x ∧ x.mode ≠ .lead) := by
  refine ⟨⟨swaying_takes, by decide, ?_⟩, ⟨rfl, rfl, by decide, ⟨_, rfl, rfl⟩, rfl, by decide, rfl, by decide⟩,
    rfl, rfl, by decide, ⟨_, rfl, by decide⟩⟩
  rintro ⟨m, e, h⟩
  cases e
  exact absurd h (by decide)

/-- Transmit queues with a BEAT of the tag, with none and room, full, and of a MUTE station. -/
theorem witness_PhaseZeroHoldsTheTremulant_queues :
    (let q : List Queued := [{ frame := .beat 1, age := 5 }] ++ { frame := .beat 3, age := 7 } :: []
      ∀ x ∈ ([{ frame := .beat 1, age := 5 }] ++ [] : List Queued), q.length = 2 ∧ x.frame ≠ .beat 3) ∧
      (swaying.li.mute = false ∧ (∀ q ∈ swaying.li.queue, q.frame ≠ .beat 3) ∧ swaying.li.queue.length < 8) ∧
      (crowded.li.mute = false ∧ (∀ q ∈ crowded.li.queue, q.frame ≠ .beat 3) ∧ ¬ crowded.li.queue.length < 8) ∧
      muted.li.mute = true :=
  ⟨by simp, ⟨rfl, by simp [swaying, live, chamber], by decide⟩, ⟨rfl, by simp [crowded], by decide⟩, rfl⟩

theorem witness_PhaseWAndFollowLossEnd :
    (swaying.takes ∧ ¬ ((swaying.trem 2).running = true) ∧ ¬ ((swaying.trem 0).locked = true)) ∧
      ((swaying.trem 0).running = true ∧ dueAt (max swaying.now 0) (swaying.trem 0).phaseW ∧
        (∃ x, swaying.tremGroup 0 = some x ∧ ∀ m stay, swaying.out x.output ≠ .striking m stay) ∧
        swaying.ch.state = .ready ∧ swaying.ArbiterSound) ∧
      ((swaying.trem 1).locked = true ∧ dueAt (max swaying.now 0) (swaying.trem 1).loss) :=
  ⟨⟨swaying_takes, by decide, by decide⟩,
    ⟨rfl, ⟨1000, rfl, by decide⟩, ⟨_, rfl, fun m stay e => by cases e⟩, rfl, arbiter_empty rfl⟩,
    rfl, 1000, rfl, by decide⟩

/-- The chamber with its shutter set at a stage, on its way to a target. -/
def moving (st : ChamberState) (stage target : Nat) : State :=
  (chamber house st).setShutter 0
    { stage := stage, target := target, pref := 64, owner := some 2, ownerHold := some 1000, stepTimer := some 1000 }

theorem witness_ShutterTimersReleaseAndStep :
    (live.takes ∧ (live.shutter 0).ownerHold = none ∧ (live.shutter 0).stepTimer = none) ∧
      ((moving .ready 1 2).takes ∧ ((moving .ready 1 2).shutter 0).ownerHold = some 1000 ∧
        dueAt (max (moving .ready 1 2).now 0) ((moving .ready 1 2).shutter 0).stepTimer ∧
        (moving .ready 1 2).ch.state = .ready ∧ (∃ cfg, (moving .ready 1 2).shutterSet 0 = some cfg) ∧
        ((moving .ready 1 2).shutter 0).stage < ((moving .ready 1 2).shutter 0).target ∧
        (moving .ready 1 2).pa.action.length < 128) ∧
      ((moving .ready 4 0).takes ∧
        dueAt (max (moving .ready 4 0).now 0) ((moving .ready 4 0).shutter 0).stepTimer ∧
        ((moving .ready 4 0).shutter 0).target < ((moving .ready 4 0).shutter 0).stage ∧
        (moving .ready 4 0).ArbiterSound ∧ ∀ m stay, (moving .ready 4 0).out 41 ≠ .striking m stay) ∧
      ((moving .ready 2 2).takes ∧ ((moving .ready 2 2).shutter 0).stage = ((moving .ready 2 2).shutter 0).target) ∧
      ((moving .dark 0 2).takes ∧ (moving .dark 0 2).ch.state ≠ .ready) :=
  ⟨⟨live_takes, rfl, rfl⟩,
    ⟨takes_of rfl rfl, rfl, ⟨1000, rfl, by decide⟩, rfl, ⟨_, rfl⟩, by decide, by decide⟩,
    ⟨takes_of rfl rfl, ⟨1000, rfl, by decide⟩, by decide, arbiter_empty rfl, fun m stay e => by cases e⟩,
    ⟨takes_of rfl rfl, rfl⟩, takes_of rfl rfl, by decide⟩

/-! ### Witnesses: the chains -/

/-- The chamber with chain 0 in a state. -/
def chained (b : Chain) : State := live.setChain 0 b

/-- A chain with a shift that ends at moment 1000 and the positions that it latched before. -/
def shifting (mismatches : Nat) (released : Bool) : Chain :=
  { latched := [3], status := if mismatches = 0 then .good else if mismatches = 3 then .failed else .suspect,
    mismatches := mismatches, refresh := none, shift := some { pattern := [3, 5], ends := 1000 },
    changeWaiting := true, released := released }

theorem chained_takes (b : Chain) : (chained b).takes := takes_of rfl rfl

theorem witness_ShiftsLatchAndAreJudged :
    (live.takes ∧ ∀ x, (live.chain 0).shift ≠ some x) ∧
      ((chained (shifting 0 false)).takes ∧ ((chained (shifting 0 false)).chain 0).shift =
          some { pattern := [3, 5], ends := 1000 } ∧ 1000 ≤ max (chained (shifting 0 false)).now 0 ∧
        ((chained (shifting 0 false)).chain 0).released = false ∧ (chained (shifting 0 false)).prof.chainLength 0 ≠ 0) ∧
      (let s := chained (shifting 3 true);
        s.takes ∧ (s.chain 0).released = true ∧ (s.chain 0).status = .failed ∧
          (∀ j, ¬ (j < s.prof.chainLength 0 ∧
            ((serialBits 64 [3])[s.prof.chainLength 0 - 1 - j]? = some true ↔ j ∉ (s.chain 0).latched)))) ∧
      (let s := chained (shifting 2 true);
        s.takes ∧ (s.chain 0).released = true ∧
          (4 < s.prof.chainLength 0 ∧
            ((serialBits 64 [3, 4])[s.prof.chainLength 0 - 1 - 4]? = some true ↔ 4 ∉ (s.chain 0).latched)) ∧
          ∀ i, i < 4 → ¬ (i < s.prof.chainLength 0 ∧
            ((serialBits 64 [3, 4])[s.prof.chainLength 0 - 1 - i]? = some true ↔ i ∉ (s.chain 0).latched))) ∧
      (let s := chained { shifting 1 true with changeWaiting := false };
        s.takes ∧ (s.chain 0).changeWaiting = false ∧ (s.chain 0).status = .suspect) ∧
      (let s := chained { shifting 0 true with shift := none, changeWaiting := false, refresh := some 1000 };
        s.takes ∧ dueAt (max s.now 0) (s.chain 0).refresh ∧ (s.chain 0).shift = none ∧ s.prof.chainLength 0 ≠ 0) ∧
      (let s := chained { shifting 0 true with refresh := some 1000 };
        s.takes ∧ dueAt (max s.now 0) (s.chain 0).refresh ∧ (s.chain 0).shift ≠ none) := by
  refine ⟨⟨live_takes, fun x e => by cases e⟩, ⟨chained_takes _, rfl, by decide, rfl, by decide⟩,
    ⟨chained_takes _, rfl, rfl, ?_⟩, ⟨chained_takes _, rfl, by decide, by decide⟩, ⟨chained_takes _, rfl, rfl⟩,
    ⟨chained_takes _, ⟨1000, rfl, by decide⟩, rfl, by decide⟩,
    ⟨chained_takes _, ⟨1000, rfl, by decide⟩, by decide⟩⟩
  intro j h
  have low : j < 64 := h.1
  revert h
  interval_cases j <;> decide

/-! ### Witnesses: the part's own frames -/

/-- The chamber with its presence period at moment `m` and a queue. -/
def due (m : Nat) (queue : List Queued) : State :=
  { live with li := { live.li with presencePeriod := some m, queue := queue } }

theorem witness_PresenceIsHandedOverEveryPeriod :
    ((due 1001 []).takes ∧ ¬ dueAt (max (due 1001 []).now 0) (due 1001 []).li.presencePeriod) ∧
      ((due 1000 []).takes ∧ (due 1000 []).li.presencePeriod = some 1000 ∧ 1000 ≤ max (due 1000 []).now 0 ∧
        (due 1000 []).li.mute = false ∧ (∀ q ∈ (due 1000 []).li.queue, ∀ a b c, q.frame ≠ .presence a b c) ∧
        (due 1000 []).li.queue.length < 8) ∧
      ((due 1000 [{ frame := .presence .dark false 0, age := 5 }]).takes ∧
        (due 1000 [{ frame := .presence .dark false 0, age := 5 }]).li.queue =
          [] ++ { frame := .presence .dark false 0, age := 5 } :: []) ∧
      ((due 1000 (List.replicate 8 { frame := .mark 2 1, age := 8 })).takes ∧
        8 ≤ (due 1000 (List.replicate 8 { frame := .mark 2 1, age := 8 })).li.queue.length ∧
        ∀ q ∈ (due 1000 (List.replicate 8 { frame := .mark 2 1, age := 8 })).li.queue, ∀ a b c,
          q.frame ≠ .presence a b c) ∧
      muted.li.mute = true := by
  refine ⟨⟨takes_of rfl rfl, ?_⟩, ⟨takes_of rfl rfl, rfl, by decide, rfl, by simp [due], by decide⟩,
    ⟨takes_of rfl rfl, rfl⟩, ⟨takes_of rfl rfl, by simp [due], by simp [due]⟩, rfl⟩
  rintro ⟨m, e, h⟩
  cases e
  exact absurd h (by decide)

/-- The chamber with a frame in flight. -/
def sending (f : Frame) : State :=
  { live with li := { live.li with inFlight := some { frame := f, age := 900 }, duplicates := 2 } }

theorem sending_takes (f : Frame) : (sending f).takes := takes_of rfl rfl

theorem witness_TransmissionBeginsAndLosesTheClaim :
    (muted.takes ∧ muted.li.mute = true) ∧ (live.takes ∧ live.li.queue = [] ∧ live.li.inFlight = none) ∧
      (reporting.takes ∧ reporting.li.mute = false ∧ reporting.li.inFlight = none ∧ reporting.li.queue ≠ []) ∧
      (sending (.beat 3)).takes ∧ (sending (.beat 3)).li.inFlight = some { frame := .beat 3, age := 900 } :=
  ⟨⟨takes_of rfl rfl, rfl⟩, ⟨live_takes, rfl, rfl⟩, ⟨takes_of rfl rfl, rfl, rfl, by simp [reporting]⟩,
    sending_takes _, rfl⟩

theorem witness_MismatchCountsTowardMute :
    (live.takes ∧ live.li.inFlight = none) ∧ (marking.takes ∧ marking.li.duplicates < 2) ∧
      ((sending (.beat 3)).takes ∧ (sending (.beat 3)).li.inFlight = some { frame := .beat 3, age := 900 } ∧
        ¬ (sending (.beat 3)).li.duplicates < 2) :=
  ⟨⟨live_takes, rfl⟩, ⟨takes_of rfl rfl, by decide⟩, sending_takes _, rfl, by decide⟩

/-- A station whose own group 0 leads and whose group 1 follows itself. -/
def selfLed : Profile :=
  { house with groups :=
      [{ output := 36, period := 200, width := 100, mode := .lead, tag := 3, leader := 0 },
        { output := 37, period := 200, width := 100, mode := .follow, tag := 3, leader := 0 }] }

/-- Its groups run, and its own BEAT is in flight. -/
def selfBeat : State :=
  { chamber selfLed .ready with
    tsu := swaying.tsu, li := { live.li with inFlight := some { frame := .beat 3, age := 900 } } }

theorem witness_CompletedFrameLeavesTheLine :
    (live.takes ∧ live.li.inFlight = none) ∧
      ((sending (.presence .ready false 0)).takes ∧ (sending (.report oldReport)).takes ∧ (sending (.mark 7 1)).takes ∧
        ∀ r' c, r' < 8 → (sending (.mark 7 1)).runner r' = some c → ∀ m, c.waiting ≠ .await 7 (.due m)) ∧
      (selfBeat.takes ∧ selfBeat.li.inFlight = some { frame := .beat 3, age := 900 } ∧
        ∃ x, selfBeat.tremGroup 1 = some x ∧ x.mode = .follow ∧ x.leader = selfBeat.pf.station ∧ x.tag = 3 ∧
          (selfBeat.trem 1).running = true) :=
  ⟨⟨live_takes, rfl⟩, ⟨sending_takes _, sending_takes _, sending_takes _, fun r c _ e => by cases e⟩,
    takes_of rfl rfl, rfl, _, rfl, rfl, rfl, rfl, rfl⟩

theorem witness_FramesAreReadAsTheyAreWritten :
    (∃ f, (Instr.keys 5 3 2 [(7, 2)]).wellFormed = true ∧ partsFor (.keys 5 3 2 [(7, 2)]) = some f ∧
      ∀ t a mask straps', Instr.keys 5 3 2 [(7, 2)] = .restart t a mask straps' → straps' = 0) ∧
      ∃ f, (Instr.restart 5 3 1 0).wellFormed = true ∧ partsFor (.restart 5 3 1 0) = some f ∧
        ∀ t a mask straps', Instr.restart 5 3 1 0 = .restart t a mask straps' → straps' = 0 :=
  ⟨⟨_, by decide, rfl, by simp⟩, _, by decide, rfl, by intro t a mask straps' e; cases e; rfl⟩

/-- A REPORT whose fields lie in their ranges, with a record and without. -/
theorem witness_SentFramesPassTheCheck :
    ([ChainStatus.good, .failed, .good, .suspect].length = 4 ∧ (List.replicate 32 true).length = 32) ∧
      (∃ x : FaultEntry, some ({ kind := .dupStation, source := 3, detail := 1 } : FaultEntry) = some x ∧
        x.source ≤ 2047 ∧ x.detail ≤ 65535) ∧
      State.reset.report.record = none :=
  ⟨by decide, ⟨_, rfl, by decide, by decide⟩, rfl⟩

/-- A frame's parts, from class, kind code and payload. -/
def partsAs (classNo : Fin 4) (code : Fin 8) (payload : List Byte) : Parts :=
  { classNo := classNo, sender := 3, code := code, payload := payload }

theorem witness_DamagedFramesFailTheirCheck :
    ((partsAs 0 0 []).payload.length < 32 ∧ lengthAllowed 0 0 0 = some true ∧ 0 < 3 ∧ 3 < 0 + 4) ∧
      ([0#8, 0#8] ≠ wordBytes (checkOf ((partsAs 0 0 []).claim :: (partsAs 0 0 []).kind :: []))) ∧
      (20 < (List.replicate 21 0#8).length ∧ (List.replicate 21 0#8).length < 32) ∧
      lengthAllowed 0 0 1 = some false ∧ lengthAllowed 0 7 1 = none :=
  ⟨by decide, by decide +kernel, by simp, rfl, rfl⟩

/-! ### Witnesses: the invariants -/

/-- The chamber with a command waiting. -/
def busy : State := { live with pending := [.txStart 2000] }

theorem busy_steps : ∃ u, step busy = .next u := ⟨_, rfl⟩

theorem busy_quiet : busy.QuietOutsideReady where
  arbiter _ := rfl
  effects _ := ⟨rfl, fun r _ _ => rfl⟩
  clocks _ := rfl
  groups _ := fun g _ => rfl
  shutters _ := fun x _ => ⟨rfl, rfl⟩
  rest _ := rfl
  sync := by decide

theorem busy_chamber : busy.ChamberSound where
  scripted c e := by cases e
  idle _ := by decide
  profiled := by decide

theorem busy_profile : busy.ProfileSound := profiled rfl
theorem busy_arbiter : busy.ArbiterSound := arbiter_empty rfl
theorem busy_keyboard : busy.KeyboardSound := keyboard_empty rfl

theorem busy_chain (c : Nat) : busy.ChainSound c where
  count := Nat.zero_le _
  status := rfl
  configured h := by cases h
  change h := by cases h
  refresh h := by cases h
  failed h := by cases h

theorem busy_sets : busy.SetsSound := sets_empty rfl rfl

/-- No stop is ON, so nothing contributes. -/
theorem busy_demand : busy.DemandCounted where
  unprofiled _ := rfl
  pipe o := by simp [State.contributions, State.tuned, busy, live, chamber, State.reset]
  single o := by simp [State.contributions, State.tuned, busy, live, chamber, State.reset]
  reiterate o := by simp [State.contributions, busy, live, chamber, State.reset]

/-- No stop is ON and no key is down, so nothing calls. -/
theorem busy_calls : busy.CallsCounted where
  stops _ _ := rfl
  trap e := by
    have off (n : Nat) : busy.km.stopOn.get n = false := rfl
    have entries : busy.prof.entries = house.entries := rfl
    show 0 = busy.trapContributions e
    simp [State.trapContributions, off, entries, house]
  stud e := by
    constructor
    · intro h; cases h
    · rintro ⟨x, k, _, _, h⟩; exact absurd rfl h
  cue e := by
    constructor
    · intro h; cases h
    · rintro ⟨x, l, _, _, _, h⟩; cases h
  onCount g := by
    have off (n : Nat) : busy.km.stopOn.get n = false := rfl
    have entries : busy.prof.entries = house.entries := rfl
    show 0 = busy.tremEntriesOn g
    simp [State.tremEntriesOn, off, entries, house]
  running g := by
    constructor
    · intro h; cases h
    · rintro ⟨_, h⟩; exact absurd h (Nat.lt_irrefl 0)

/-- No effect is in play. -/
theorem busy_effects : busy.EffectsSound where
  runners r c _ _ e := by cases e
  apart r r' c c' _ _ _ _ e := by cases e
  holder g e := by
    constructor
    · intro h; cases h
    · rintro ⟨r, c, _, _, h, _⟩; cases h
  suspended g c h := by cases h
  rising g := List.Pairwise.nil
  pending g e h := by cases h
  beneath g _ := rfl
  occupied g _ h := absurd rfl h

theorem busy_bounds : busy.WithinBounds where
  runners r c e := by cases e
  suspended g := ⟨Nat.zero_le _, fun c h => by cases h⟩
  shutters x cfg h := ⟨Nat.zero_le _, Nat.zero_le _, Nat.zero_le _, by
    have e : busy.shutter x = default := rfl
    rw [e]
    show 0 = (0 * cfg.stages + 64) / 128
    omega⟩
  absent x _ := rfl

theorem busy_relay : busy.RelaySound where
  once := List.Pairwise.nil
  capacity := by decide
  mute h := by cases h
  duplicates := by decide
  heard a := by constructor <;> intro h <;> cases h
  announced a _ := rfl

theorem busy_canonical : busy.Canonical where
  km := by decide
  touches c := (by decide : (Table.empty : Table Touch).wf)
  dt := by decide
  pa := by decide
  cc := by decide
  pt := by decide
  ee := by decide
  tsu := by decide
  ll := by decide

/-- No pipe is called and PA is empty. -/
theorem busy_pipes : busy.PipesAnswered where
  called _ o _ := by
    constructor
    · intro h; exact absurd rfl h
    · intro h; exact absurd h (Nat.lt_irrefl 0)
  speech o h := by cases h
  action e h := by cases h
  strikes o m stay _ h := by cases h
  sets i o h := by cases h

/-- The chamber with output 3 called and pulling in. -/
def calling : State :=
  { live with dt := { live.dt with pipe := ⟨[(3, 1)]⟩ }, pa := oneOut 3 (.pulling 9000) 2 }

theorem calling_pipes : calling.PipesAnswered where
  called _ o _ := by
    have off : (default : OutState) = .off := rfl
    simp only [State.out, calling, oneOut, Table.get, lookupIn, off]
    split <;> simp [default]
  speech o h := by cases h
  action e h := by cases h
  strikes o m stay _ := by
    have off : (default : OutState) = .off := rfl
    simp only [State.out, calling, oneOut, Table.get, lookupIn, off]
    split <;> simp
  sets i o h := by cases h

/-- No effect is in play. -/
theorem busy_contexts : busy.ContextsSound where
  runners r c _ _ e := by cases e
  suspended g c h := by cases h
  chamber c e := by cases e

/-- A context of effect 0 at its first WAIT, holding an output of its group. -/
def holder : Context := { waiter 2000 with held := [32] }

/-- The chamber with effect 0 the holder of group 3 over a suspended context of effect 1. -/
def twoInPlay : State := grouped { holder := some 0, stack := [suspended], pending := none } holder

theorem twoInPlay_contexts : twoInPlay.ContextsSound where
  runners r c low _ e := by
    change (running 3 holder).runner r = some c at e
    rcases eq_or_ne r 3 with rfl | other
    · cases e
      exact ⟨⟨0, _, 0, rfl, .inl ⟨rfl, rfl⟩, .here 0, by decide⟩, 2000, rfl, .inl ⟨50, rfl, rfl⟩⟩
    · exact (running_only other e).elim
  suspended g c h := by
    rw [twoInPlay, grouped, State.group_setGroup] at h
    split at h
    · simp only [List.mem_singleton] at h
      subst h
      exact ⟨⟨1, _, 0, rfl, .inl ⟨rfl, rfl⟩, .onward (.here 0) (by decide), by decide⟩, 500, rfl,
        .inl ⟨30, rfl, rfl⟩⟩
    · cases h
  chamber c e := by cases e

theorem witness_QuietOutsideReadyIsKept : busy.QuietOutsideReady ∧ ∃ u, step busy = .next u :=
  ⟨busy_quiet, busy_steps⟩
theorem witness_ChamberScriptsAreKept : busy.ChamberSound ∧ ∃ u, step busy = .next u := ⟨busy_chamber, busy_steps⟩
theorem witness_ProfileRangesAreKept :
    (loadImage (imageOf (smallBody 0)) = .ok (smallProfile false)) ∧ busy.ProfileSound ∧ ∃ u, step busy = .next u :=
  ⟨small_loads false, busy_profile, busy_steps⟩
theorem witness_ArbiterLawsAreKept :
    busy.QuietOutsideReady ∧ busy.ArbiterSound ∧ busy.ChamberSound ∧ busy.ProfileSound ∧ busy.SetsSound ∧
      busy.EffectsSound ∧ busy.ContextsSound ∧ busy.WithinBounds ∧ busy.PipesAnswered ∧ ∃ u, step busy = .next u :=
  ⟨busy_quiet, busy_arbiter, busy_chamber, busy_profile, busy_sets, busy_effects, busy_contexts, busy_bounds, busy_pipes,
    busy_steps⟩
theorem witness_ChainLawsAreKept : busy.ChamberSound ∧ (∀ c, busy.ChainSound c) ∧ ∃ u, step busy = .next u :=
  ⟨busy_chamber, busy_chain, busy_steps⟩
theorem witness_KeyboardLawsAreKept :
    busy.ChamberSound ∧ busy.ProfileSound ∧ busy.KeyboardSound ∧ ∃ u, step busy = .next u :=
  ⟨busy_chamber, busy_profile, busy_keyboard, busy_steps⟩
theorem witness_DemandFollowsTheContributions :
    busy.ChamberSound ∧ busy.ProfileSound ∧ busy.KeyboardSound ∧ busy.SetsSound ∧ busy.DemandCounted ∧ busy.CallsCounted ∧
      (∃ u, step busy = .next u) ∧ live.ch.state = .ready ∧ (chamber house .dark).ch.state ≠ .ready ∧
      (∃ kind w o up, Delta.count .single 1 24 true = .count kind w o up) ∧
      ∀ e up, Delta.effect e up ∉ [Delta.count .single 1 24 true] :=
  ⟨busy_chamber, busy_profile, busy_keyboard, busy_sets, busy_demand, busy_calls, busy_steps, rfl, by decide,
    ⟨_, _, _, _, rfl⟩, by simp⟩
/-- A TUNE from a pipe to a bar, and an application of every kind of delta outside READY. -/
theorem witness_DemandFollowsTheContributions_kinds :
    ((house.windowOf 3).map (·.kind) = some .pipe ∧ (house.windowOf 31).map (·.kind) = some .bar) ∧
      (chamber house .dark).QuietOutsideReady ∧
      ∀ g up, Delta.group g up ∈ [Delta.effect 0 true, .group 1 true, .count .pipe 0 3 true] → g < 4 := by
  refine ⟨⟨by decide, by decide⟩, chamber_quiet _ _, fun g up h => ?_⟩
  simp only [List.mem_cons, List.not_mem_nil, or_false, reduceCtorEq, Delta.group.injEq, false_or] at h
  omega

theorem witness_BoundsAreKept :
    busy.ChamberSound ∧ busy.WithinBounds ∧ busy.ProfileSound ∧ busy.QuietOutsideReady ∧ busy.EffectsSound ∧
      busy.ContextsSound ∧ ∃ u, step busy = .next u :=
  ⟨busy_chamber, busy_bounds, busy_profile, busy_quiet, busy_effects, busy_contexts, busy_steps⟩
theorem witness_RelayLawsAreKept : busy.RelaySound ∧ ∃ u, step busy = .next u := ⟨busy_relay, busy_steps⟩
theorem witness_TablesStayCanonical : busy.Canonical ∧ ∃ u, step busy = .next u := ⟨busy_canonical, busy_steps⟩

/-! ### WellFormed: ill-formed commands are refused (R154, R162) -/

theorem test_keys_need_a_change : (Instr.keys 0 3 1 []).wellFormed = false := by decide
theorem test_keys_hold_eight_changes : (Instr.keys 0 3 1 (List.replicate 9 (0, 0))).wellFormed = false := by decide
theorem test_snap_has_every_key : (Instr.snap 0 3 1 (List.replicate 63 0)).wellFormed = false := by decide
theorem test_shoe_needs_a_pair : (Instr.shoe 0 3 []).wellFormed = false := by decide
theorem test_shoe_holds_eight_pairs : (Instr.shoe 0 3 (List.replicate 9 (0, 0))).wellFormed = false := by decide
theorem test_stops_need_a_change : (Instr.stops 0 3 []).wellFormed = false := by decide
theorem test_stops_hold_six_changes : (Instr.stops 0 3 (List.replicate 7 (0, true))).wellFormed = false := by decide
theorem test_report_has_twenty_bytes : (Instr.reportReceived 0 3 (List.replicate 19 0)).wellFormed = false := by decide
theorem test_returned_bits_are_whole_bytes : (Instr.shiftEnd 0 0 [true]).wellFormed = false := by decide

/-! ### The line's bytes -/

/-- R154: for the bytes 49 to 57 the remainder comes to 10673. -/
theorem test_check_of_the_nine_digits :
    (checkOf [49#8, 50#8, 51#8, 52#8, 53#8, 54#8, 55#8, 56#8, 57#8]).toNat = 10673 := by decide +kernel

/-- The claims of the worked sequence of 09: class 1, stations 2 and 4, are 72 and 80; class 3, station 4, is 208. -/
theorem test_claims :
    ((Frame.mark 20 1).parts 2).claim = 72#8 ∧ ((Frame.mark 20 1).parts 4).claim = 80#8 ∧
      ((Frame.presence .ready false 0).parts 4).claim = 208#8 := by decide

/-- R162: byte 1 of a KEYS payload is the key in bits 7 to 2 and the touch code in bits 1 and 0. -/
theorem test_key_change_byte : changeOf 0b00011110#8 = (7, 2) ∧ changeByte (7, 2) = 0b00011110#8 := by decide

/-- R162: a stop change's first byte has the state in bit 7 and bits 9 and 8 of the stop number. -/
theorem test_stop_change_bytes : stopsOf [0b10000010#8, 0b00000101#8] = [(517, true)] := by decide

/-- R162: byte 1 of a SNAP holds keys 0, 1, 2, 3 from bits 7 and 6 down. -/
theorem test_snap_byte : codesOf 0b00011011#8 = [0, 1, 2, 3] := by decide

/-- R162: bit 6 of byte 0 of a REPORT is the later flag, bits 5 and 4 the cause, and the first-fault word has the kind in
bits 15 to 12 and the source below. -/
theorem test_report_bytes :
    (Report.payload { state := .ready, cause := .line, later := true, chains := [.good, .failed, .good, .suspect],
                      tag := 0x1234, record := some { kind := .chainFault, source := 1, detail := 34 }, seen := 0x800,
                      sounding := 3, speechDepth := 0, actionDepth := 2, units := 6,
                      holders := List.replicate 4 false ++ [true] ++ List.replicate 27 false }) =
      [0x65#8, 0x48#8, 0x12#8, 0x34#8, 0xC0#8, 0x01#8, 0x00#8, 0x22#8, 0x08#8, 0x00#8, 0#8, 3#8, 0#8, 0#8, 2#8, 6#8,
        0#8, 0#8, 0#8, 0x10#8] := by decide +kernel

/-- R152: the byte 72 goes dominant, then as 0, 1, 0, 0, 1, 0, 0, 0, then recessive. -/
theorem test_byte_levels :
    byteLevels 72#8 = [false, false, true, false, false, true, false, false, false, true] := by decide

/-- R152, R155: a stop bit that is read dominant is a framing fault, and so is a gap before the frame is complete; the
claim byte names the station. -/
theorem test_dominant_stop_bit :
    receiveLevels 5 ((lineLevels (partsAs 0 0 []).bytes).set 19 false) 0 = some (.lineCheck 5 3 .framing) ∧
      receiveLevels 5 (lineLevels ((partsAs 0 0 []).bytes.take 3) ++ List.replicate 12 true) 0 =
        some (.lineCheck 5 3 .framing) ∧
      receiveLevels 5 (lineLevels (partsAs 0 0 []).bytes ++ [false, false]) 0 = some (.alloff 5 3) := by decide +kernel

/-- R152: what follows a frame that its length field completes is not read. -/
theorem test_surplus_is_not_read :
    receive 5 false ((partsAs 0 0 []).bytes ++ [1#8, 2#8]) 0 = some (.alloff 5 3) := by decide +kernel

/-! ### The worked figures of chapter 1 -/

/-- Window A, the Tibia. -/
def tibia : Window :=
  { kind := .pipe, first := 0, size := 85, firstNote := 24, weight := 1, pullIn := 8, strikeWidth := 0, reiteration := 0,
    claimGroup := 0 }

theorem test_tibia_8_at_60 : resolve 36 60 0 tibia .breakBack .breakBack = some 72 := by decide
theorem test_tibia_2_breaks_at_60 : resolve 36 60 24 tibia .breakBack .breakBack = some 84 := by decide
theorem test_tibia_16_at_0 : resolve 36 0 (-12) tibia .breakBack .breakBack = some 0 := by decide
theorem test_tibia_1_breaks_twice_at_55 : resolve 36 55 36 tibia .breakBack .breakBack = some 79 := by decide
theorem test_tibia_1_is_silent_at_56 : resolve 36 56 36 tibia .breakBack .breakBack = none := by decide
theorem test_tibia_2_silent_at_60 : resolve 36 60 24 tibia .silent .breakBack = none := by decide

/-! ### One step each -/

/-- The Solo chamber of the worked sequences of 02 and 03. -/
def solo : Profile :=
  { house with
    params := { house.params with chainLengths := [384, 384, 384, 384] }
    divisions := List.replicate 7 { keyCount := 61, baseNote := 36 } ++ [{ keyCount := 32, baseNote := 36 }]
    windows := [tibia,
      { kind := .bar, first := 200, size := 37, firstNote := 48, weight := 2, pullIn := 4, strikeWidth := 20,
        reiteration := 100, claimGroup := 0 }]
    entries := [{ stop := 210, division := 1, kind := .voice 0 0 .single .breakBack .breakBack .first },
      { stop := 214, division := 1, kind := .voice 1 0 .single .breakBack .breakBack .second },
      { stop := 215, division := 1, kind := .voice 1 0 .reiterate .breakBack .breakBack .pizz },
      { stop := 211, division := 1, kind := .voice 0 12 .single .breakBack .breakBack .first }] }

/-- Its stops are ON. -/
def soloOn : State :=
  { chamber solo .ready with
    now := 0, km := { live.km with stopOn := ⟨[(210, true), (211, true), (214, true), (215, true)]⟩ } }

/-- Station 2 holds key 24 of division 1 at FIRST. -/
def oneFinger : State :=
  { soloOn with
    km := { soloOn.km with
      slots := ⟨[(0, { station := some 2, touch := ⟨[(cell 1 24, .first)]⟩ })]⟩
      merged := ⟨[(cell 1 24, .first)]⟩ }
    dt := { soloOn.dt with pipe := ⟨[(36, 1), (48, 1)]⟩ } }

/-- 02, 0 ms: key 24 at FIRST binds slot 0 and calls pipes 36 and 48. -/
theorem test_keys_bind_and_call : nextHas (exec (.keys 0 2 1 [(24, 1)]) soloOn) (fun u =>
    decide (u.slotOf 2 = some 0 ∧ u.mergedTouch 1 24 = .first ∧ u.dt.pipe.entries = [(36, 1), (48, 1)] ∧
      u.km.pizzicato = [])) = true := by decide +kernel

/-- 02, 40 ms: station 5 takes the key to SECOND, which opens its pizzicato window until 160 ms. -/
theorem test_keys_open_the_window : nextHas (exec (.keys 40000 5 1 [(24, 2)]) oneFinger) (fun u =>
    decide (u.slotOf 5 = some 1 ∧ u.dt.single.get 212 = 1 ∧ u.dt.reiterate.get 212 = 1 ∧
      u.km.pizzicato = [{ division := 1, key := 24, expiry := 160000 }])) = true := by decide +kernel

/-- 02, 900 ms: a SNAP from a station that was lost binds the lowest free slot and restores the chord. -/
theorem test_snap_restores : nextHas
    (exec (.snap 900000 2 1 (List.replicate 24 0 ++ [1] ++ List.replicate 39 0)) soloOn) (fun u =>
      decide (u.slotOf 2 = some 0 ∧ u.dt.pipe.entries = [(36, 1), (48, 1)])) = true := by decide +kernel

/-- 02, 850 ms: a lost station's key falls, its slot is freed, and CONSOLE_LOST is recorded with detail 0. -/
theorem test_lost_console : nextHas
    (exec (.silenceTimerExpiry 850000 2)
      { oneFinger with pt := ⟨[(2, { state := .heard, announced := none, silence := some 850000, crossed := none })]⟩ }) (fun u =>
      decide (u.slotOf 2 = none ∧ u.mergedTouch 1 24 = .up ∧ u.dt.pipe.entries = [] ∧
        u.pf.record = some { kind := .consoleLost, source := 2, detail := 0 })) = true := by decide +kernel

/-- R37: the frame first and the loss second: what the frame raised falls with the slot. -/
theorem test_frame_then_loss : nextHas (exec (.keys 850000 2 1 [(25, 1)])
    { oneFinger with pt := ⟨[(2, { state := .heard, announced := none, silence := some 850000, crossed := none })]⟩ })
      (fun s => decide (s.mergedTouch 1 25 = .first) && nextHas (exec (.silenceTimerExpiry 850000 2) s) (fun u =>
        decide (u.slotOf 2 = none ∧ u.km.merged.entries = [] ∧ u.dt.pipe.entries = [] ∧
          (u.peer 2).state = .heard))) = true := by decide +kernel

/-- R59: a TUNE first and its sender's loss second: the loss ends the hold that the TUNE set. -/
theorem test_tune_then_loss : nextHas (exec (.tune 850000 9 0 48)
    { oneFinger with pt := ⟨[(9, { state := .heard, announced := none, silence := some 850000, crossed := none })]⟩ })
      (fun s => decide (s.dt.tuning = some { output := 48, setter := 9 }) &&
        nextHas (exec (.silenceTimerExpiry 850000 9) s) (fun u =>
          decide (u.dt.tuning = none ∧ u.dt.pipe.get 48 = 1))) = true := by decide +kernel

/-- R33: the expiry takes the reiterate count down and leaves the single count. -/
theorem test_pizzicato_expires : nextHas (exec (.pizzicatoExpiry 160000 1 24)
    { oneFinger with
      km := { oneFinger.km with
        merged := ⟨[(cell 1 24, .second)]⟩, pizzicato := [{ division := 1, key := 24, expiry := 160000 }] }
      dt := { oneFinger.dt with single := ⟨[(212, 1)]⟩, reiterate := ⟨[(212, 1)]⟩ } }) (fun u =>
      decide (u.km.pizzicato = [] ∧ u.dt.single.get 212 = 1 ∧ u.dt.reiterate.get 212 = 0)) = true := by decide +kernel

/-- 03: stop 211 OFF releases the pipe of its one key. -/
theorem test_stop_off_counts_down : nextHas (exec (.stops 0 2 [(211, false)]) oneFinger) (fun u =>
    decide (u.dt.pipe.entries = [(36, 1)] ∧ u.km.stopOn.get 211 = false)) = true := by decide +kernel

/-- 03: a TUNE adds one to a pipe that is already called. -/
theorem test_tune_counts : nextHas (exec (.tune 0 9 0 48) oneFinger) (fun u =>
    decide (u.dt.pipe.get 48 = 2 ∧ u.dt.tuning = some { output := 48, setter := 9 })) = true := by decide +kernel

/-- R38: ALLOFF lets every key go; the stops stay. -/
theorem test_alloff : nextHas (exec (.alloff 0 2) oneFinger) (fun u =>
    decide (u.km.merged.entries = [] ∧ u.dt.pipe.entries = [] ∧ u.km.stopOn = soloOn.km.stopOn)) = true := by
  decide +kernel

/-- 03, 100 ms: the clock's first edge strikes bar 212 for 20 ms. -/
theorem test_clock_edge : nextHas (exec (.reiterationClockEdge 100000 1)
    { soloOn with dt := { soloOn.dt with
        reiterate := ⟨[(212, 1)]⟩, sets := ⟨[(1, [212])]⟩, clocks := ⟨[(1, some 100000)]⟩ } }) (fun u =>
      decide (u.out 212 = .striking 120000 false ∧ u.dt.clocks.get 1 = some 200000)) = true := by decide +kernel

/-- The budget of the worked example of 04, drawn by ten pipes, with four pipes and the snare waiting. -/
def contended (pulling : List Nat) (units : Nat) : State :=
  { chamber { house with
      params := { house.params with budget := 10, chainLengths := [384, 384, 384, 384] }
      windows := [{ tibia with first := 120, size := 40, pullIn := 12 },
        { tibia with kind := .trap, first := 1000, size := 4, weight := 2, claimGroup := 3 }] } .ready with
    now := 12000
    pa :=
      { outs := ⟨pulling.map (fun o => (o, .pulling 12000)) ++ [130, 131, 132, 133, 1000].map (fun o => (o, .waiting))⟩
        speech := [130, 131, 132, 133], action := [{ output := 1000, kind := .strike 30 }], units := units
        runCount := 0 } }

/-- 04, 12 ms, first expiry: the snare needs 2 and waits, and the pipes wait behind it. -/
theorem test_strict_head : nextHas (exec (.pullInEnd 12000 120) (contended (List.range' 120 10) 10)) (fun u =>
    decide (u.out 120 = .holding ∧ u.out 1000 = .waiting ∧ u.out 130 = .waiting ∧ u.pa.units = 9)) = true := by
  decide +kernel

/-- 04, 12 ms, second expiry: the snare is granted until 42 ms and the run count is 1. -/
theorem test_snare_is_granted : nextHas (exec (.pullInEnd 12000 121) (contended (List.range' 121 9) 9)) (fun u =>
    decide (u.out 1000 = .striking 42000 false ∧ u.out 130 = .waiting ∧ u.pa.units = 10 ∧ u.pa.runCount = 1)) = true := by
  decide +kernel

/-- 04, 42 ms: the strike ends OFF and its units return. -/
theorem test_strike_ends : nextHas (exec (.strikeEnd 2000 32) (withOut (.striking 2000 false) 4)) (fun u =>
    decide (u.out 32 = .off ∧ u.pa.units = 0)) = true := by decide +kernel

/-- 07, 1 ms: a BEAT locks the follower, phase W a width later and phase 0 a period later. -/
theorem test_beat_locks : nextHas (exec (.beat 1000 1 3) { swaying with now := 0 }) (fun u =>
    decide ((u.trem 1).locked = true ∧ (u.trem 1).phaseW = some 101000 ∧ (u.trem 1).phase0 = some 201000 ∧
      (u.trem 1).loss = some 601000)) = true := by decide +kernel

/-- R120: phase 0 asks for the output to be held, and a LEAD group sends its BEAT. -/
theorem test_phase0_sends_the_beat : nextHas (exec (.phase0 1000 0) swaying) (fun u =>
    decide (u.out 36 = .pulling 11000 ∧ u.li.queue.map (·.frame) = [.beat 3])) = true := by decide +kernel

/-- R120: phase W lets it go. -/
theorem test_phaseW_releases : nextHas (exec (.phaseW 1000 0) { swaying with pa := oneOut 36 .holding 0 }) (fun u =>
    decide (u.out 36 = .off)) = true := by decide +kernel

/-- 07, 861 ms: FOLLOW_LOST with the group as source and the leader's station as detail. -/
theorem test_follow_lost : nextHas (exec (.followLossExpiry 1000 1) swaying) (fun u =>
    decide ((u.trem 1).locked = false ∧ u.pf.record = some { kind := .followLost, source := 1, detail := 1 })) = true := by
  decide +kernel

/-- The shutter set of the worked sequence of 07. -/
def shutters : State :=
  (chamber { house with
      windows := [{ tibia with kind := .aux, first := 24, size := 20, pullIn := 10 }]
      sets := [{ shoe := 1, first := 24, stages := 8, hysteresis := 2, interval := 40, ownerHold := 2000 }] } .ready).setSlot
    0 { station := some 2, touch := .empty }

/-- 07, 0 ms: position 100 of 8 stages is target 6, and the set steps at once. -/
theorem test_shoe_adopts : nextHas (exec (.shoe 1000 2 [(1, 100)]) shutters) (fun u =>
    decide (u.shutter 0 = { stage := 1, target := 6, pref := 100, owner := some 0, ownerHold := some 2001000,
                            stepTimer := some 41000 } ∧ u.out 24 = .pulling 11000)) = true := by decide +kernel

/-- 07, 300 ms: position 101 after 100 is inside the hysteresis, and restarts the owner timer only. -/
theorem test_shoe_hysteresis : nextHas
    (exec (.shoe 300000 2 [(1, 101)])
      (shutters.setShutter 0 { stage := 6, target := 6, pref := 100, owner := some 0, ownerHold := some 2000000,
                               stepTimer := none })) (fun u =>
      decide (u.shutter 0 = { stage := 6, target := 6, pref := 100, owner := some 0, ownerHold := some 2300000,
                              stepTimer := none })) = true := by decide +kernel

/-- 07, 2320 ms: the owner hold runs out; target and stage stay. -/
theorem test_owner_hold : nextHas (exec (.ownerHoldExpiry 1000 0) (moving .ready 2 2)) (fun u =>
    decide ((u.shutter 0).owner = none ∧ (u.shutter 0).target = 2 ∧ (u.shutter 0).stage = 2)) = true := by
  decide +kernel

/-- R129: a step down releases the output of the stage it closes. -/
theorem test_step_down : nextHas (exec (.stepTimerExpiry 1000 0) { moving .ready 4 0 with pa := oneOut 41 .holding 0 })
    (fun u => decide ((u.shutter 0).stage = 3 ∧ u.out 41 = .off)) = true := by decide +kernel

/-- 05, 200 ms: a higher priority pre-empts. The holder waits with the time left, its outputs are released. -/
theorem test_preemption : nextHas
    (exec (.debounceExpiry 1000 2)
      { bouncing .ready 2 true 1000 with
        ee := (grouped { holder := some 0, stack := [], pending := none } { waiter 41000 with held := [32] }).ee
        pa := oneOut 32 .holding 0 }) (fun u =>
      decide ((u.group 3).holder = some 1 ∧ u.out 32 = .off ∧
        (u.group 3).stack.map (fun c => (c.waiting, c.held)) = [(.wait (.left 40000), [32])])) = true := by
  decide +kernel

/-- 05, 1000 ms: at the END of a holder the suspended effect goes on with what was left, its outputs held again. -/
theorem test_resume : nextHas (exec (.waitEnd 1000 3) (ending [{ suspended with held := [33] }] none)) (fun u =>
    decide ((u.group 3).holder = some 1 ∧ u.out 32 = .off ∧ u.out 33 = .pulling 11000 ∧
      (u.runner 3).map (·.waiting) = some (.wait (.due 1500)))) = true := by decide +kernel

/-- R106: a loop of STRIKE and LOOP alone is cut off at its eighth stroke, at the LOOP that is the sixteenth step. -/
theorem test_runaway : nextHas
    (exec (.waitEnd 1000 3)
      { running 3 (waiter 1000) with
        profile := some { house with steps := [.wait 50, .strike 32 20, .loop 1 9 .a, .done] } }) (fun u =>
      decide (u.pf.record = some { kind := .scriptRunaway, source := 3, detail := 2 } ∧ u.runner 3 = none ∧
        u.out 32 = .striking 21000 false)) = true := by
  decide +kernel

/-- R112: an AWAIT that times out goes on. -/
theorem test_await_times_out : nextHas (exec (.awaitTimeout 1000 3) (running 3 (awaiter 1000))) (fun u =>
    decide ((u.runner 3).map (·.index) = some 1)) = true := by decide +kernel

/-- R112, R116: a mark is taken by the runner that awaits it. -/
theorem test_mark_is_taken : nextHas (exec (.mark 900 4 7) (running 3 (awaiter 2000))) (fun u =>
    decide ((u.runner 3).map (·.index) = some 1)) = true := by decide +kernel

/-- 08, 15.5 s: SYNC_SHORT names the lowest member that is missing and how many are. -/
theorem test_sync_short : nextHas (exec (.syncTimeout 1000) (chamber plain .gathering)) (fun u =>
    decide (u.ch.state = .ready ∧ u.pf.record = some { kind := .syncShort, source := 1, detail := 2 })) = true := by
  decide +kernel

/-- 08, 10.501 s: the last missing member's PRESENCE brings the chamber to READY, and the called pipe speaks. -/
theorem test_gathering_ends : nextHas (exec (.presence 1000 2 1 5 0 0) gathered) (fun u =>
    decide (u.ch.state = .ready ∧ u.ch.sync = none ∧ u.out 3 = .pulling 9000)) = true := by decide +kernel

/-- 08, 20 s: the WAKE script's AWAITLINE times out, and the chamber, with no DARK script, is DARK. -/
theorem test_wind_timeout : nextHas (exec (.awaitlineTimeout 1000) (awaiting .winding .wake 1000)) (fun u =>
    decide (u.ch.state = .dark ∧ u.pf.record = some { kind := .windTimeout, source := 0, detail := 0 })) = true := by
  decide +kernel

/-- R137, R140: with no WAKE script the wake of a DARK chamber goes on to gather. -/
theorem test_wake_gathers : nextHas (exec (.chamberWake 1000 2 1) (chamber house .dark)) (fun u =>
    decide (u.ch.state = .gathering ∧ u.ch.sync = some 10001000)) = true := by decide +kernel

/-- R146: with no REST script the chamber is RESTING at once. -/
theorem test_rest : nextHas (exec (.chamberRest 1000 2 1) live) (fun u => decide (u.ch.state = .resting)) = true := by
  decide +kernel

/-- R147: with no DARK script the chamber is DARK at once. -/
theorem test_dark : nextHas (exec (.chamberDark 1000 2 1) (chamber house .resting)) (fun u =>
    decide (u.ch.state = .dark ∧ u.ch.origin = .dark)) = true := by decide +kernel

/-- R144: the rest timer of a silent chamber takes it to rest. -/
theorem test_rest_timer : nextHas (exec (.restTimerExpiry 1000) (timed live 1000)) (fun u =>
    decide (u.ch.state = .resting ∧ u.ch.rest = none)) = true := by decide +kernel

/-- R177: debounce code 3 is 10 ms. -/
theorem test_debounce_starts : nextHas (exec (.lineRawChange 1000 5 true) live) (fun u =>
    decide ((u.line 5).debounced = false ∧ (u.line 5).debounce = some 11000)) = true := by decide +kernel

/-- R148: the wind fails in READY. -/
theorem test_pressure_lost : nextHas (exec (.debounceExpiry 1000 0) (bouncing .ready 0 false 1000)) (fun u =>
    decide (u.pf.record = some { kind := .pressureLost, source := 0, detail := 5 } ∧ u.ch.origin = .other)) = true := by
  decide +kernel

/-- 10: the third mismatch in a row fails the chain, at the lowest differing position. -/
theorem test_third_mismatch : nextHas
    (exec (.shiftEnd 1000 0 (serialBits 64 [3, 4])) (chained { shifting 2 true with changeWaiting := false })) (fun u =>
      decide ((u.chain 0).status = .failed ∧ u.pf.record = some { kind := .chainFault, source := 0, detail := 4 })) = true := by
  decide +kernel

/-- 10: a FAILED chain that returns what it held is GOOD, and is shifted again at once. -/
theorem test_chain_comes_back : nextHas
    (exec (.shiftEnd 1000 0 (serialBits 64 [3])) (chained { shifting 3 true with changeWaiting := false })) (fun u =>
      decide ((u.chain 0).status = .good ∧ (u.chain 0).mismatches = 0 ∧ (u.chain 0).shift.isSome = true)) = true := by
  decide +kernel

/-- R171: position 7 of a chain of 8 is sent first, position 0 last, and on is high. -/
theorem test_serial_order : serialBits 8 [0, 6] = [false, true, false, false, false, false, false, true] ∧
    returnedPositions 8 [false, true, false, false, false, false, false, true] = [0, 6] := by decide

/-- R172: a shift of 64 positions takes 33 microseconds. -/
theorem test_refresh_shifts : nextHas (exec (.refreshTimerExpiry 1000 0)
    (chained { shifting 0 true with shift := none, changeWaiting := false, refresh := some 1000 })) (fun u =>
      decide ((u.chain 0).shift.map (·.ends) = some 1033)) = true := by decide +kernel

/-- The transmit queue of the worked sequence of 09. -/
def crowdedMoment : State :=
  { live with li := { live.li with
      queue := [{ frame := .presence .ready false 0, age := 0 }, { frame := .mark 20 1, age := 30 },
        { frame := .beat 2, age := 60 }] } }

/-- 09, 124 microseconds: PLAY before STATUS, and the MARK is the older. -/
theorem test_mark_goes_first : nextHas (exec (.txStart 1000) crowdedMoment) (fun u =>
    decide (u.li.inFlight = some { frame := .mark 20 1, age := 30 })) = true := by decide +kernel

/-- 09, 130 microseconds: the MARK goes back with its age. -/
theorem test_claim_is_lost : nextHas (exec (.claimLost 1000)
    { crowdedMoment with li := { crowdedMoment.li with
        queue := [{ frame := .beat 2, age := 60 }], inFlight := some { frame := .mark 20 1, age := 30 } } }) (fun u =>
      decide (u.li.inFlight = none ∧ { frame := Frame.mark 20 1, age := 30 } ∈ u.li.queue)) = true := by decide +kernel

/-- R157, R158: the third mismatch in a row makes the station MUTE. -/
theorem test_third_collision : nextHas (exec (.txMismatch 1000) (sending (.mark 21 1))) (fun u =>
    decide (u.li.mute = true ∧ u.pf.record = some { kind := .dupStation, source := 0, detail := 3 })) = true := by
  decide +kernel

/-- R161: a frame sent whole brings the duplicate count to 0. -/
theorem test_sent_whole : nextHas (exec (.txComplete 1000) (sending (.mark 21 1))) (fun u =>
    decide (u.li.inFlight = none ∧ u.li.duplicates = 0)) = true := by decide +kernel

/-- R164: the presence period runs on from the moment that was due. -/
theorem test_presence_period : nextHas (exec (.presencePeriodExpiry 1700) (due 1000 [])) (fun u =>
    decide (u.li.presencePeriod = some 201000 ∧
      u.li.queue.map (·.frame) = [.presence .ready false 0])) = true := by decide +kernel

/-- R155: a frame that fails its check is recorded with its station and reason. -/
theorem test_line_check : nextHas (exec (.lineCheck 1000 6 .check) live) (fun u =>
    decide (u.pf.record = some { kind := .lineCheck, source := 6, detail := 4 } ∧ (u.peer 6).state = .unheard)) = true := by
  decide +kernel

/-- R187: CLEAR empties the record. -/
theorem test_clear : nextHas (exec (.clear 1000 3 1) recorded) (fun u =>
    decide (u.pf.record = none ∧ u.pf.later = false ∧ u.pf.seen = 0)) = true := by decide +kernel

/-- R188: ASK is answered with a REPORT. -/
theorem test_ask : nextHas (exec (.ask 1000 3 0) recorded) (fun u =>
    decide (u.li.queue.length = 1)) = true := by decide +kernel

/-- R166: a REPORT of another station is heard. -/
theorem test_report_is_heard : nextHas (exec (.reportReceived 1000 9 []) live) (fun u =>
    decide ((u.peer 9).state = .heard ∧ (u.peer 9).silence = some 601000)) = true := by decide +kernel

/-- R180: the header gives the tag. -/
theorem test_header : nextHas (exec (.profileHeaderRead 5 0x1234) State.reset) (fun u =>
    decide (u.pf.tag = 0x1234)) = true := by decide +kernel

/-- R184: a memory that does not answer takes the part to PROFILE_FAULT. -/
theorem test_profile_fault : nextHas (exec (.profileLoadEnd 5 []) State.reset) (fun u =>
    decide (u.ch.state = .profileFault ∧ u.pf.record = some { kind := .profileRefusal, source := 0, detail := 1 })) = true := by
  decide +kernel

/-- R185: RESTART keeps the record and takes the cause LINE. -/
theorem test_restart : nextHas (exec (.restart 1000 3 1 4) recorded) (fun u =>
    decide (u.pf.cause = .line ∧ u.pf.record = recorded.pf.record ∧ u.pf.station = 4 ∧ u.ch.state = .loading)) = true := by
  decide +kernel

/-- R185: POWER_ON empties it. -/
theorem test_power_on : nextHas (exec (.powerOn 1000 4) recorded) (fun u =>
    decide (u.pf.cause = .powerOn ∧ u.pf.record = none ∧ u.pf.seen = 0)) = true := by decide +kernel

/-- R180: the part stays in reset while NRST is low, and begins LOADING when it returns high. -/
theorem test_pin_reset : nextHas (exec (.pinReset 1000 4) recorded) (fun u =>
    decide (u.pf.cause = .pin ∧ u.pf.held = true ∧ u.li.queue = [])) = true := by decide +kernel

/-- R185: a RESTART and a pin reset at one moment restart once, with the cause of the first. -/
theorem test_restart_then_pin : nextHas (exec (.restart 1000 3 1 4) recorded) (fun s =>
    nextHas (exec (.pinReset 1000 4) s) (fun u => decide (u.pf.cause = .line ∧ u.pf.held = true)) &&
      nextHas (exec (.pinReset 1001 4) s) (fun u => decide (u.pf.cause = .pin))) = true := by decide +kernel

theorem test_end_of_pin_reset : nextHas (exec (.endOfPinReset 1000)
    { State.reset with pf := { State.reset.pf with held := true }, li := { State.reset.li with queue := [] } }) (fun u =>
    decide (u.pf.held = false ∧ u.li.queue.map (·.frame) = [.presence .loading false 0])) = true := by decide +kernel

/-- The step takes the front of the queue and leaves the rest. -/
theorem test_step : nextHas (step { live with pending := [.txStart 2000, .claimLost 3000] }) (fun u =>
    decide (u.pending = [.claimLost 3000] ∧ u.now = 2000)) = true := by decide +kernel

end Sys2Proof.Tests
end

section
/-! Pitch resolution (R9 to R12): what `resolve` gives in each of its cases, and how many octaves the break-back takes. -/

namespace Sys2Proof.Machine

/-- The fewest octaves that span `n` semitones overshoot them by less than one octave. -/
theorem ceil12_is_least {n : Int} (h : 0 ≤ n) :
    ∃ c : Nat, ceil12 n = c ∧ n ≤ 12 * c ∧ 12 * c ≤ n + 11 ∧ ∀ c' : Nat, n ≤ 12 * c' → c ≤ c' := by
  obtain ⟨c, hc⟩ := Int.eq_ofNat_of_zero_le (show 0 ≤ ceil12 n by unfold ceil12; omega)
  unfold ceil12 at hc
  exact ⟨c, hc, by omega, by omega, fun c' spans => by omega⟩

section
variable {b k : Nat} {p i : Int} {w : Window} {top bottom : Policy}

theorem resolve_of_no_note (h : (b : Int) + k + p < 0 ∨ 127 < (b : Int) + k + p) :
    resolve b k p w top bottom = none := if_pos h

/-- R9: a note from 0 to 127 stands at index `i` of the window, counted from its first note. -/
theorem resolve_inside (low : 0 ≤ (b : Int) + k + p) (high : (b : Int) + k + p ≤ 127)
    (at_i : (b : Int) + k + p - w.firstNote = i) (first : 0 ≤ i) (last : i < w.size) :
    resolve b k p w top bottom = some (w.first + i.toNat) := by
  subst at_i
  unfold resolve
  rw [if_neg (by omega)]
  exact if_pos ⟨first, last⟩

/-- R10: above the window the top policy alone decides. -/
theorem resolve_above (low : 0 ≤ (b : Int) + k + p) (high : (b : Int) + k + p ≤ 127)
    (at_i : (b : Int) + k + p - w.firstNote = i) (above : w.size ≤ i) :
    resolve b k p w .silent bottom = none ∧
      resolve b k p w .breakBack bottom = w.atIndex (i - 12 * ceil12 (i - w.size + 1)) := by
  subst at_i
  unfold resolve
  have sounds : ¬ ((b : Int) + k + p < 0 ∨ 127 < (b : Int) + k + p) := by omega
  have outside : ¬ (0 ≤ (b : Int) + k + p - w.firstNote ∧ (b : Int) + k + p - w.firstNote < w.size) := by omega
  simp only [if_neg sounds, if_neg outside, if_pos above, and_self]

/-- R11: below the window the bottom policy alone decides. -/
theorem resolve_below (low : 0 ≤ (b : Int) + k + p) (high : (b : Int) + k + p ≤ 127)
    (at_i : (b : Int) + k + p - w.firstNote = i) (below : i < 0) :
    resolve b k p w top .silent = none ∧
      resolve b k p w top .breakBack = w.atIndex (i + 12 * ceil12 (-i)) := by
  subst at_i
  unfold resolve
  have sounds : ¬ ((b : Int) + k + p < 0 ∨ 127 < (b : Int) + k + p) := by omega
  have outside : ¬ (0 ≤ (b : Int) + k + p - w.firstNote ∧ (b : Int) + k + p - w.firstNote < w.size) := by omega
  have notAbove : ¬ (w.size : Int) ≤ (b : Int) + k + p - w.firstNote := by omega
  simp only [if_neg sounds, if_neg outside, if_neg notAbove, and_self]

/-- R10: the break-back takes the fewest octaves that bring the index below the window's top. -/
theorem resolve_folds_down (low : 0 ≤ (b : Int) + k + p) (high : (b : Int) + k + p ≤ 127)
    (at_i : (b : Int) + k + p - w.firstNote = i) (above : w.size ≤ i) :
    ∃ c : Nat, i - 12 * c < w.size ∧ (∀ c' : Nat, i - 12 * c' < w.size → c ≤ c') ∧
      resolve b k p w .breakBack bottom = w.atIndex (i - 12 * c) ∧ w.size - 12 ≤ i - 12 * c := by
  obtain ⟨c, count, enough, tight, least⟩ := ceil12_is_least (n := i - w.size + 1) (by omega)
  have folded := (resolve_above (bottom := bottom) low high at_i above).2
  rw [count] at folded
  exact ⟨c, by omega, fun c' h => least c' (by omega), folded, by omega⟩

/-- R11: the break-back takes the fewest octaves that bring the index to the window's first output or above. -/
theorem resolve_folds_up (low : 0 ≤ (b : Int) + k + p) (high : (b : Int) + k + p ≤ 127)
    (at_i : (b : Int) + k + p - w.firstNote = i) (below : i < 0) :
    ∃ c : Nat, 0 ≤ i + 12 * c ∧ (∀ c' : Nat, 0 ≤ i + 12 * c' → c ≤ c') ∧
      resolve b k p w top .breakBack = w.atIndex (i + 12 * c) ∧ i + 12 * c ≤ 11 := by
  obtain ⟨c, count, enough, tight, least⟩ := ceil12_is_least (n := -i) (by omega)
  have folded := (resolve_below (top := top) low high at_i below).2
  rw [count] at folded
  exact ⟨c, by omega, fun c' h => least c' (by omega), folded, by omega⟩

end

/-- Settles O38, case by case of where the note stands to the window. -/
theorem notesFoldIntoTheWindow : Obligations.NotesFoldIntoTheWindow := by
  intro b k p w top bottom
  refine ⟨resolve_of_no_note, fun low high => ⟨?inside, ?topSilent, ?topBreaks, ?bottomSilent, ?bottomBreaks⟩⟩
  case inside => exact resolve_inside low high rfl
  case topSilent =>
    rintro above rfl
    exact (resolve_above low high rfl above).1
  case topBreaks =>
    rintro above rfl
    obtain ⟨c, inReach, least, folded, tight⟩ := resolve_folds_down low high rfl above
    exact ⟨c, inReach, least, folded, fun _ => tight⟩
  case bottomSilent =>
    rintro below rfl
    exact (resolve_below low high rfl below).1
  case bottomBreaks =>
    rintro below rfl
    exact resolve_folds_up low high rfl below

end Sys2Proof.Machine
end

section
/-! What a power-on reset leaves: what every table reads there, and that each invariant of Safety.lean holds. -/

namespace Sys2Proof.Machine

/-! ### What the readers give at reset -/

@[simp] theorem State.reset_slotTouch (c d k : Nat) : State.reset.slotTouch c d k = .up := rfl
@[simp] theorem State.reset_mergedTouch (d k : Nat) : State.reset.mergedTouch d k = .up := rfl
@[simp] theorem State.reset_stopOn (n : Nat) : State.reset.km.stopOn.get n = false := rfl
@[simp] theorem State.reset_out (o : Nat) : State.reset.out o = .off := rfl
@[simp] theorem State.reset_speech : State.reset.pa.speech = [] := rfl
@[simp] theorem State.reset_action : State.reset.pa.action = [] := rfl
@[simp] theorem State.reset_chamber : State.reset.ch.state = .loading := rfl
@[simp] theorem State.reset_peer (a : Station) :
    State.reset.peer a = { state := .unheard, announced := none, silence := none, crossed := none } := rfl
@[simp] theorem State.reset_trigger (e : Nat) : State.reset.trigger e = { trap := 0, stud := false, cue := false } := rfl
@[simp] theorem State.reset_group (g : Nat) : State.reset.group g = { holder := none, stack := [], pending := none } := rfl
@[simp] theorem State.reset_runner (r : Nat) : State.reset.runner r = none := rfl
@[simp] theorem State.reset_trem (g : Nat) :
    State.reset.trem g =
      { onCount := 0, running := false, phase0 := none, phaseW := none, locked := false, loss := none } := rfl

/-- Before a profile is accepted there is no effect. -/
@[simp] theorem State.reset_effect (e : Nat) : State.reset.effect e = none := rfl

/-! ### The invariants at reset -/

theorem State.reset_quietOutsideReady : State.reset.QuietOutsideReady where
  arbiter _ := rfl
  effects _ := ⟨rfl, fun _ _ _ => rfl⟩
  clocks _ := rfl
  groups _ _ _ := rfl
  shutters _ _ _ := ⟨rfl, rfl⟩
  rest _ := rfl
  sync := by decide

theorem State.reset_chamberSound : State.reset.ChamberSound where
  scripted _ run := by cases run
  idle _ := by decide
  profiled := by decide

theorem State.reset_profileSound : State.reset.ProfileSound := fun _ held => by cases held

theorem State.reset_arbiterSound : State.reset.ArbiterSound where
  waiting o := by simp
  once := List.nodup_nil
  capacity := Nat.zero_le _
  canonical := Table.wf_empty
  units := rfl
  budget := Nat.zero_le _
  runLimit := Nat.zero_le _
  runCount _ := rfl
  settled _ candidate := by cases candidate

theorem State.reset_chainSound (c : Nat) : State.reset.ChainSound c where
  count := Nat.zero_le _
  status := rfl
  configured shifts := by cases shifts
  change waits := by cases waits
  refresh _ := rfl
  failed _ _ shifts := by cases shifts

theorem State.reset_keyboardSound : State.reset.KeyboardSound where
  free _ _ _ := rfl
  distinct _ _ _ _ _ bound := by cases bound
  keys _ _ _ _ _ _ _ := rfl
  merged _ _ _ _ := rfl
  entries _ listed := by cases listed
  once := List.Pairwise.nil
  ordered := List.Pairwise.nil
  capacity := Nat.zero_le _

/-- There is no stop entry, so nothing contributes to a count. -/
theorem State.reset_demandCounted : State.reset.DemandCounted where
  unprofiled _ := rfl
  pipe _ := rfl
  single _ := rfl
  reiterate _ := rfl

theorem State.reset_setsSound : State.reset.SetsSound where
  member i w o given := by cases given
  ascending _ := List.Pairwise.nil
  unprofiled _ := ⟨rfl, rfl⟩

theorem State.reset_pipesAnswered : State.reset.PipesAnswered where
  called ready := by cases ready
  speech _ queued := by cases queued
  action _ queued := by cases queued
  strikes _ _ _ _ strikes := by cases strikes
  sets _ _ listed := by cases listed

/-- There is no entry and no effect, and the chamber is not READY. -/
theorem State.reset_callsCounted : State.reset.CallsCounted where
  stops _ _ := rfl
  trap _ := rfl
  stud e := by simp
  cue e := by simp
  onCount _ := rfl
  running g := by simp

theorem State.reset_effectsSound : State.reset.EffectsSound where
  runners _ _ _ _ run := by cases run
  apart _ _ _ _ _ _ _ _ run := by cases run
  holder g e := by simp
  suspended _ _ stacked := by cases stacked
  rising _ := List.Pairwise.nil
  pending _ _ waits := by cases waits
  beneath _ _ := rfl
  occupied _ _ waits := (waits rfl).elim

theorem State.reset_contextsSound : State.reset.ContextsSound where
  runners _ _ _ _ run := by cases run
  suspended _ _ stacked := by cases stacked
  chamber _ run := by cases run

theorem State.reset_withinBounds : State.reset.WithinBounds where
  runners _ _ run := by cases run
  suspended _ := ⟨Nat.zero_le _, fun _ stacked => by cases stacked⟩
  shutters _ _ given := by cases given
  absent _ _ := rfl

/-- The LOADING PRESENCE is the only frame that waits. -/
theorem State.reset_relaySound : State.reset.RelaySound where
  once := List.pairwise_singleton _ _
  capacity := by decide
  mute silent := by cases silent
  duplicates := by decide
  heard a := by simp
  announced _ _ := rfl

theorem State.reset_canonical : State.reset.Canonical where
  km := ⟨Table.wf_empty, Table.wf_empty, Table.wf_empty, Table.wf_empty⟩
  touches _ := Table.wf_empty
  dt := ⟨Table.wf_empty, Table.wf_empty, Table.wf_empty, Table.wf_empty, Table.wf_empty⟩
  pa := Table.wf_empty
  cc := Table.wf_empty
  pt := Table.wf_empty
  ee := ⟨Table.wf_empty, Table.wf_empty, Table.wf_empty⟩
  tsu := ⟨Table.wf_empty, Table.wf_empty⟩
  ll := Table.wf_empty

/-- Settles O3: the values are read off the state, and the invariants are those shown above. -/
theorem resetLeavesTheSpecsValues : Obligations.ResetLeavesTheSpecsValues := by
  refine ⟨?chamberAndRecord, ?slots, ?stops, rfl, ?outputs, rfl, rfl, rfl, rfl, rfl, ?chains, ?peers, ?triggers, ?groups,
    State.reset_runner, ?tremulants, ?shutters, rfl, ?invariants⟩
  case chamberAndRecord => exact ⟨rfl, rfl, rfl, rfl, rfl, rfl, rfl, rfl, rfl⟩
  case slots => exact fun c => ⟨rfl, fun d k => ⟨State.reset_slotTouch c d k, State.reset_mergedTouch d k⟩⟩
  case stops => exact fun n => ⟨State.reset_stopOn n, rfl⟩
  case outputs => exact fun o => ⟨State.reset_out o, rfl, rfl, rfl⟩
  case chains => exact fun _ => ⟨rfl, rfl, rfl, rfl, rfl⟩
  case peers => exact fun _ => ⟨rfl, rfl, rfl⟩
  case triggers => exact fun _ => rfl
  case groups => exact fun _ => ⟨rfl, rfl, rfl⟩
  case tremulants => exact fun _ => ⟨rfl, rfl, rfl⟩
  case shutters => exact fun _ => ⟨rfl, rfl, rfl⟩
  case invariants =>
    exact ⟨State.reset_quietOutsideReady, State.reset_chamberSound, State.reset_profileSound, State.reset_arbiterSound,
      State.reset_chainSound, State.reset_keyboardSound, State.reset_demandCounted, State.reset_setsSound,
      State.reset_pipesAnswered, State.reset_callsCounted, State.reset_effectsSound, State.reset_contextsSound,
      State.reset_withinBounds, State.reset_relaySound, State.reset_canonical⟩

end Sys2Proof.Machine
end

section
/-! KM's records: what the touches, the merged touch and the pizzicato list read after each of KM's operations, and what
of KM, the clock and the profile the other blocks leave alone (02, R20 to R39). -/

namespace Sys2Proof.Machine

/-! ### Cells and touches -/

/-- Below 64 keys a cell names one key of one division. -/
theorem cell_eq_iff {d k d' k' : Nat} (h : k < 64) (h' : k' < 64) : cell d k = cell d' k' ↔ d = d' ∧ k = k' := by
  unfold cell
  omega

theorem Touch.higher_eq_up {a b : Touch} : a.higher b = .up ↔ a = .up ∧ b = .up := by
  cases a <;> cases b <;> decide

theorem State.slotTouch_setSlotTouch (s : State) (c d k : Nat) (v : Touch) (c' d' k' : Nat) :
    (s.setSlotTouch c d k v).slotTouch c' d' k' =
      if c' = c ∧ cell d' k' = cell d k then v else s.slotTouch c' d' k' := by
  unfold State.setSlotTouch State.slotTouch
  by_cases h : c' = c
  · subst h
    simp [Table.get_set]
  · simp [State.slot_setSlot, h]

@[simp] theorem State.setSlotTouch_station (s : State) (c d k : Nat) (v : Touch) (c' : Nat) :
    ((s.setSlotTouch c d k v).slot c').station = (s.slot c').station := by
  unfold State.setSlotTouch
  by_cases h : c' = c
  · subst h; simp
  · simp [State.slot_setSlot, h]

/-- No other slot moves. -/
theorem State.slot_setSlotTouch_ne (s : State) {c c' : Nat} (h : c' ≠ c) (d k : Nat) (v : Touch) :
    (s.setSlotTouch c d k v).slot c' = s.slot c' := by
  unfold State.setSlotTouch
  simp [State.slot_setSlot, h]

@[simp] theorem State.setSlotTouch_mergedTouch (s : State) (c d k : Nat) (v : Touch) (d' k' : Nat) :
    (s.setSlotTouch c d k v).mergedTouch d' k' = s.mergedTouch d' k' := rfl

@[simp] theorem State.setSlotTouch_prof (s : State) (c d k : Nat) (v : Touch) :
    (s.setSlotTouch c d k v).prof = s.prof := rfl

/-- R23: the merged touch that the slots call for depends on their touches of the key alone. -/
theorem State.highest_congr {s t : State} {d k : Nat} (h : ∀ c, c < 4 → t.slotTouch c d k = s.slotTouch c d k) :
    t.highest d k = s.highest d k := by
  simp [State.highest, List.range_succ, h]

/-- R23: the highest touch is UP exactly when every slot's is. -/
theorem State.highest_eq_up {s : State} {d k : Nat} : s.highest d k = .up ↔ ∀ c, c < 4 → s.slotTouch c d k = .up := by
  simp only [State.highest, List.range_succ, List.range_zero, List.nil_append, List.cons_append, List.foldl_cons,
    List.foldl_nil, Touch.higher_eq_up, true_and]
  refine ⟨fun ⟨⟨⟨h0, h1⟩, h2⟩, h3⟩ c lt => ?_, fun h => ⟨⟨⟨h 0 (by omega), h 1 (by omega)⟩, h 2 (by omega)⟩, h 3 (by omega)⟩⟩
  interval_cases c <;> assumption

/-! ### What the other blocks leave alone -/

/-- KM, the clock and the profile stand. -/
def State.sameKm (s t : State) : Prop := t.km = s.km ∧ t.now = s.now ∧ t.profile = s.profile

theorem State.sameKm.refl (s : State) : s.sameKm s := ⟨rfl, rfl, rfl⟩

theorem State.sameKm.trans {a b c : State} (h : a.sameKm b) (k : b.sameKm c) : a.sameKm c :=
  ⟨k.1.trans h.1, k.2.1.trans h.2.1, k.2.2.trans h.2.2⟩

theorem ReachCh.sameKm {s t : State} (h : ReachCh s t) : s.sameKm t := by
  unfold ReachCh at h
  rw [h]
  exact ⟨rfl, rfl, rfl⟩

theorem ReachKm.now {s t : State} (h : ReachKm s t) : t.now = s.now := by
  unfold ReachKm at h
  rw [h]

theorem ReachKm.profile {s t : State} (h : ReachKm s t) : t.profile = s.profile := by
  unfold ReachKm at h
  rw [h]

theorem ReachKm.pt {s t : State} (h : ReachKm s t) : t.pt = s.pt := by
  unfold ReachKm at h
  rw [h]

theorem ReachKm.pf {s t : State} (h : ReachKm s t) : t.pf = s.pf.withRecord t.pf := by
  unfold ReachKm at h
  rw [h]

theorem ReachKm.prof {s t : State} (h : ReachKm s t) : t.prof = s.prof := by
  unfold State.prof
  rw [h.profile]

theorem ReachCh.km_eq {s t : State} (h : ReachCh s t) : t.km = s.km := h.sameKm.1

@[simp] theorem application_km (w : Bool) (l : List Delta) (s : State) : (application w l s).km = s.km :=
  (application_reach w l s).ch.km_eq

@[simp] theorem application_now (w : Bool) (l : List Delta) (s : State) : (application w l s).now = s.now :=
  (application_reach w l s).ch.sameKm.2.1

@[simp] theorem application_prof (w : Bool) (l : List Delta) (s : State) : (application w l s).prof = s.prof :=
  (application_reach w l s).km.prof

/-! ### The pizzicato list -/

/-- R33: the list without the entry of a key. -/
def withoutKey (d k : Nat) (l : List PizzEntry) : List PizzEntry :=
  l.filter (fun e => !(e.division == d && e.key == k))

/-- R32: the list with room for one more entry. -/
def roomIn (l : List PizzEntry) : List PizzEntry :=
  if 64 ≤ l.length then
    match earliestPizz l with
    | some e => withoutKey e.division e.key l
    | none => l
  else l

/-- R31, R32: the list after a merged change of a key. -/
def State.listAfter (s : State) (d k : Nat) (old new : Touch) : List PizzEntry :=
  let risen := if new = .second then roomIn s.km.pizzicato ++ [s.pizzEntry s.now d k] else s.km.pizzicato
  if old = .second then withoutKey d k risen else risen

@[simp] theorem removePizz_km (d k : Nat) (s : State) :
    (removePizz d k s).km = { s.km with pizzicato := withoutKey d k s.km.pizzicato } := rfl

@[simp] theorem pizzExpiry_km (d k : Nat) (s : State) :
    (pizzExpiry d k s).km = { s.km with pizzicato := withoutKey d k s.km.pizzicato } := by
  simp [pizzExpiry]

@[simp] theorem makeRoom_km (s : State) : (makeRoom s).km = { s.km with pizzicato := roomIn s.km.pizzicato } := by
  unfold makeRoom roomIn
  split
  · split <;> simp [*]
  · rfl

@[simp] theorem createPizz_km (d k : Nat) (s : State) :
    (createPizz d k s).km =
      { s.km with pizzicato := roomIn s.km.pizzicato ++ [s.pizzEntry s.now d k] } := by
  have now := (makeRoom_reach s).now
  have prof := (makeRoom_reach s).prof
  simp [createPizz, State.pizzEntry, now, prof, ms]

@[simp] theorem studDeltas_km (k : Nat) (old new : Touch) (s : State) : (studDeltas k old new s).km = s.km := by
  have along : ∀ (up : Bool) (l : List Nat) (s : State), (l.foldl (fun s e => studDelta e up s) s).km = s.km :=
    fun up l s => (foldl_reach ReachTrig ReachTrig.refl (fun _ _ _ => ReachTrig.trans) _
      (fun s e => studDelta_reach e up s) l s).app.ch.km_eq
  unfold studDeltas
  split
  · exact along _ _ _
  · split
    · exact along _ _ _
    · rfl

/-- R27, R31: what a merged change makes of KM. -/
theorem mergedChange_km (allOff : Bool) (d k : Nat) (old new : Touch) (s : State) :
    (mergedChange allOff d k old new s).km =
      { s.km with merged := s.km.merged.set (cell d k) new, pizzicato := s.listAfter d k old new } := by
  have tail : ∀ a : State, (if old.rank < new.rank then offerWake .play (restartRest a) else restartRest a).km = a.km := by
    intro a
    split
    · exact ((restartRest_reach a).app.ch.trans (offerWake_reach _ _)).km_eq
    · exact (restartRest_reach a).app.ch.km_eq
  unfold mergedChange
  dsimp only
  rw [tail]
  unfold State.listAfter
  by_cases n : new = .second <;> by_cases o : old = .second <;> simp only [n, o, if_true, if_false] <;> split <;>
    simp [State.pizzEntry, State.prof]

theorem remerge_km (allOff : Bool) (d k : Nat) (s : State) :
    (remerge allOff d k s).km =
      if s.mergedTouch d k = s.highest d k then s.km
      else { s.km with
        merged := s.km.merged.set (cell d k) (s.highest d k)
        pizzicato := s.listAfter d k (s.mergedTouch d k) (s.highest d k) } := by
  unfold remerge
  dsimp only
  split
  · rfl
  · exact mergedChange_km _ _ _ _ _ _

/-- A merged change leaves the slots alone. -/
@[simp] theorem remerge_slots (allOff : Bool) (d k : Nat) (s : State) : (remerge allOff d k s).km.slots = s.km.slots := by
  rw [remerge_km]
  split <;> rfl

@[simp] theorem remerge_slot (allOff : Bool) (d k : Nat) (s : State) (c : Nat) :
    (remerge allOff d k s).slot c = s.slot c := by
  simp [State.slot]

@[simp] theorem remerge_slotTouch (allOff : Bool) (d k : Nat) (s : State) (c d' k' : Nat) :
    (remerge allOff d k s).slotTouch c d' k' = s.slotTouch c d' k' := by
  simp [State.slotTouch]

@[simp] theorem remerge_highest (allOff : Bool) (d k : Nat) (s : State) (d' k' : Nat) :
    (remerge allOff d k s).highest d' k' = s.highest d' k' :=
  State.highest_congr fun c _ => remerge_slotTouch allOff d k s c d' k'

/-- R23: after a merge the key's merged touch is the highest, and no other cell has moved. -/
theorem remerge_mergedTouch (allOff : Bool) (d k : Nat) (s : State) (d' k' : Nat) :
    (remerge allOff d k s).mergedTouch d' k' = if cell d' k' = cell d k then s.highest d k else s.mergedTouch d' k' := by
  rw [State.mergedTouch, remerge_km]
  by_cases same : s.mergedTouch d k = s.highest d k
  · rw [if_pos same]
    by_cases c : cell d' k' = cell d k
    · rw [if_pos c, ← same, c]; rfl
    · rw [if_neg c]; rfl
  · rw [if_neg same]
    exact Table.get_set _ _ _ _

/-- What a merge makes of the pizzicato list. -/
theorem remerge_pizzicato (allOff : Bool) (d k : Nat) (s : State) :
    (remerge allOff d k s).km.pizzicato =
      if s.mergedTouch d k = s.highest d k then s.km.pizzicato
      else s.listAfter d k (s.mergedTouch d k) (s.highest d k) := by
  rw [remerge_km]
  split <;> rfl

/-- Stops and refused stations are no part of a merge. -/
theorem remerge_stopOn (allOff : Bool) (d k : Nat) (s : State) :
    (remerge allOff d k s).km.stopOn = s.km.stopOn ∧ (remerge allOff d k s).km.refused = s.km.refused := by
  rw [remerge_km]
  split <;> exact ⟨rfl, rfl⟩

end Sys2Proof.Machine
end

section
/-! The laws of the keyboard (R20, R21, R23, R24, R30, R31, R34), kept by each operation of KM. -/

namespace Sys2Proof.Machine

/-! ### The pizzicato list in its order -/

/-- R32: in the order of the expiries the earliest entry, the one created first on a tie, is the head. -/
theorem earliestPizz_ordered {l : List PizzEntry} (h : l.Pairwise (fun e f => e.expiry ≤ f.expiry)) :
    earliestPizz l = l.head? := by
  induction l with
  | nil => rfl
  | cons e rest ih =>
    obtain ⟨first, ordered⟩ := List.pairwise_cons.1 h
    unfold earliestPizz
    rw [ih ordered]
    cases rest with
    | nil => rfl
    | cons f rest =>
      have low := first f List.mem_cons_self
      simp only [List.head?_cons]
      rw [if_neg (by omega)]

theorem mem_withoutKey {d k : Nat} {l : List PizzEntry} {e : PizzEntry} :
    e ∈ withoutKey d k l ↔ e ∈ l ∧ ¬ (e.division = d ∧ e.key = k) := by
  simp only [withoutKey, List.mem_filter, Bool.not_eq_true', Bool.and_eq_false_iff, beq_eq_false_iff_ne]
  tauto

/-- A list that has no entry of the key stands. -/
theorem withoutKey_eq_self {d k : Nat} {l : List PizzEntry} (h : ∀ e ∈ l, ¬ (e.division = d ∧ e.key = k)) :
    withoutKey d k l = l :=
  List.filter_eq_self.2 fun e m => (List.mem_filter.1 (mem_withoutKey.2 ⟨m, h e m⟩)).2

/-- R30: where no key has two entries, the head's key goes with the head alone. -/
theorem withoutKey_head {e : PizzEntry} {rest : List PizzEntry}
    (h : (e :: rest).Pairwise (fun e f => ¬ (e.division = f.division ∧ e.key = f.key))) :
    withoutKey e.division e.key (e :: rest) = rest := by
  obtain ⟨apart, _⟩ := List.pairwise_cons.1 h
  have gone : withoutKey e.division e.key (e :: rest) = withoutKey e.division e.key rest := by simp [withoutKey]
  rw [gone]
  exact withoutKey_eq_self fun f m same => apart f m ⟨same.1.symm, same.2.symm⟩

/-- R32: a list in its order makes room by its head. -/
theorem roomIn_eq {l : List PizzEntry} (once : l.Pairwise (fun e f => ¬ (e.division = f.division ∧ e.key = f.key)))
    (ordered : l.Pairwise (fun e f => e.expiry ≤ f.expiry)) :
    roomIn l = if l.length < 64 then l else l.tail := by
  unfold roomIn
  rw [earliestPizz_ordered ordered]
  by_cases h : l.length < 64
  · rw [if_pos h, if_neg (by omega)]
  · rw [if_neg h, if_pos (by omega)]
    cases l with
    | nil => rfl
    | cons e rest => exact withoutKey_head once

theorem roomIn_sublist (l : List PizzEntry) : (roomIn l).Sublist l := by
  unfold roomIn
  split
  · split
    · exact List.filter_sublist
    · exact .refl _
  · exact .refl _

/-- R31: a rise to SECOND appends the key's entry. -/
theorem State.listAfter_rise {s : State} {d k : Nat} {old : Touch} (was : old ≠ .second) :
    s.listAfter d k old .second = roomIn s.km.pizzicato ++ [s.pizzEntry s.now d k] := by
  simp [State.listAfter, was]

/-- R34: a fall from SECOND takes the key's entry out. -/
theorem State.listAfter_fall {s : State} {d k : Nat} {new : Touch} (is : new ≠ .second) :
    s.listAfter d k .second new = withoutKey d k s.km.pizzicato := by
  simp [State.listAfter, is]

/-- Any other merged change leaves the list. -/
theorem State.listAfter_other {s : State} {d k : Nat} {old new : Touch} (was : old ≠ .second) (is : new ≠ .second) :
    s.listAfter d k old new = s.km.pizzicato := by
  simp [State.listAfter, was, is]

/-! ### The laws while a key is on its way -/

/-- The laws of the keyboard but that the merged touch of key `k` of division `d` may not be formed yet. -/
structure State.KeyboardBut (s : State) (d k : Nat) : Prop where
  free : ∀ c, c < 4 → (s.slot c).station = none → (s.slot c).touch = .empty
  distinct : ∀ c c' a, c < 4 → c' < 4 → (s.slot c).station = some a → (s.slot c').station = some a → c = c'
  keys : ∀ c d k, c < 4 → d < 8 → s.prof.keyCount d ≤ k → k < 64 → s.slotTouch c d k = .up
  merged : ∀ d' k', d' < 8 → k' < 64 → ¬ (d' = d ∧ k' = k) → s.mergedTouch d' k' = s.highest d' k'
  entries : ∀ e ∈ s.km.pizzicato, e.division < 8 ∧ e.key < 64 ∧ s.mergedTouch e.division e.key = .second ∧
    e.expiry ≤ s.now + s.prof.params.pizzicatoWindow * 1000
  once : s.km.pizzicato.Pairwise (fun e f => ¬ (e.division = f.division ∧ e.key = f.key))
  ordered : s.km.pizzicato.Pairwise (fun e f => e.expiry ≤ f.expiry)
  capacity : s.km.pizzicato.length ≤ 64

theorem State.KeyboardSound.but {s : State} (h : s.KeyboardSound) (d k : Nat) : s.KeyboardBut d k :=
  ⟨h.free, h.distinct, h.keys, fun d' k' l l' _ => h.merged d' k' l l', h.entries, h.once, h.ordered, h.capacity⟩

/-- The laws speak of KM, the profile and the clock alone, and the clock only as a bound. -/
theorem State.KeyboardSound.congr {s t : State} (h : s.KeyboardSound) (km : t.km = s.km) (now : s.now ≤ t.now)
    (prof : t.prof = s.prof) : t.KeyboardSound := by
  have slot : ∀ c, t.slot c = s.slot c := fun c => by simp [State.slot, km]
  have touch : ∀ c d k, t.slotTouch c d k = s.slotTouch c d k := fun c d k => by simp [State.slotTouch, slot]
  have merged : ∀ d k, t.mergedTouch d k = s.mergedTouch d k := fun d k => by simp [State.mergedTouch, km]
  exact
    { free := fun c l => by rw [slot]; exact h.free c l
      distinct := fun c c' a l l' => by rw [slot, slot]; exact h.distinct c c' a l l'
      keys := fun c d k lc ld => by rw [touch, prof]; exact h.keys c d k lc ld
      merged := fun d k l l' => by
        rw [merged, State.highest_congr fun c _ => touch c d k]; exact h.merged d k l l'
      entries := fun e m => by
        rw [km] at m
        obtain ⟨hd, hk, second, due⟩ := h.entries e m
        exact ⟨hd, hk, by rw [merged]; exact second, by rw [prof]; omega⟩
      once := by rw [km]; exact h.once
      ordered := by rw [km]; exact h.ordered
      capacity := by rw [km]; exact h.capacity }

theorem State.KeyboardSound.same {s t : State} (h : s.KeyboardSound) (k : s.sameKm t) : t.KeyboardSound :=
  h.congr k.1 (by rw [k.2.1]) (by unfold State.prof; rw [k.2.2])

/-- R21, R24: setting a touch of a key that the division has, in a bound slot or to UP, leaves only that key's merged
touch to be formed. -/
theorem State.KeyboardBut.setSlotTouch {s : State} {d k : Nat} (h : s.KeyboardBut d k) {c : Nat} {v : Touch}
    (key : k < s.prof.keyCount d) (low : k < 64) (bound : (s.slot c).station ≠ none ∨ v = .up) :
    (s.setSlotTouch c d k v).KeyboardBut d k where
  free c' l alone := by
    rw [State.setSlotTouch_station] at alone
    by_cases e : c' = c
    · subst e
      obtain rfl := bound.resolve_left (fun h => h alone)
      simp only [State.setSlotTouch, State.slot_setSlot_self, h.free _ l alone]
      rfl
    · rw [State.slot_setSlotTouch_ne _ e]
      exact h.free c' l alone
  distinct c₁ c₂ a l l' := by
    simp only [State.setSlotTouch_station]
    exact h.distinct c₁ c₂ a l l'
  keys c' d' k' lc ld above lk := by
    rw [State.slotTouch_setSlotTouch, if_neg]
    · exact h.keys c' d' k' lc ld above lk
    · rintro ⟨_, same⟩
      obtain ⟨rfl, rfl⟩ := (cell_eq_iff lk low).1 same
      exact absurd key (Nat.not_lt.2 above)
  merged d' k' l l' other := by
    rw [State.setSlotTouch_mergedTouch, h.merged d' k' l l' other]
    refine (State.highest_congr fun c' _ => ?_).symm
    rw [State.slotTouch_setSlotTouch, if_neg]
    rintro ⟨_, same⟩
    exact other ((cell_eq_iff l' low).1 same)
  entries := h.entries
  once := h.once
  ordered := h.ordered
  capacity := h.capacity

/-- An entry of a key whose merged touch is not SECOND does not stand in the list. -/
theorem State.KeyboardBut.not_listed {s : State} {d k : Nat} (h : s.KeyboardBut d k) {d' k' : Nat}
    (was : s.mergedTouch d' k' ≠ .second) : ∀ e ∈ s.km.pizzicato, ¬ (e.division = d' ∧ e.key = k') := by
  rintro e listed ⟨rfl, rfl⟩
  exact was (h.entries e listed).2.2.1

/-- What stands in the list after a merged change: the entry of a rise, and entries of other keys. -/
theorem State.KeyboardBut.mem_listAfter {s : State} {d k : Nat} (h : s.KeyboardBut d k) {old new : Touch}
    (was : s.mergedTouch d k = old) (moved : old ≠ new) {e : PizzEntry} (m : e ∈ s.listAfter d k old new) :
    (e ∈ s.km.pizzicato ∧ ¬ (e.division = d ∧ e.key = k)) ∨ new = .second ∧ e = s.pizzEntry s.now d k := by
  subst was
  by_cases second : s.mergedTouch d k = .second
  · rw [second] at moved m
    rw [State.listAfter_fall moved.symm] at m
    exact .inl (mem_withoutKey.1 m)
  · by_cases is : new = .second
    · subst is
      rw [State.listAfter_rise second] at m
      rcases List.mem_append.1 m with m | m
      · have listed := (roomIn_sublist _).subset m
        exact .inl ⟨listed, h.not_listed second e listed⟩
      · exact .inr ⟨rfl, List.mem_singleton.1 m⟩
    · rw [State.listAfter_other second is] at m
      exact .inl ⟨m, h.not_listed second e m⟩

/-- R30, R31, R32: a merged change keeps the list's own laws. -/
theorem State.KeyboardBut.listAfter {s : State} {d k : Nat} (h : s.KeyboardBut d k) {old new : Touch}
    (was : s.mergedTouch d k = old) (moved : old ≠ new) :
    (s.listAfter d k old new).Pairwise (fun e f => ¬ (e.division = f.division ∧ e.key = f.key)) ∧
      (s.listAfter d k old new).Pairwise (fun e f => e.expiry ≤ f.expiry) ∧ (s.listAfter d k old new).length ≤ 64 := by
  subst was
  by_cases second : s.mergedTouch d k = .second
  · rw [second] at moved ⊢
    rw [State.listAfter_fall moved.symm]
    exact ⟨h.once.filter _, h.ordered.filter _, (List.length_filter_le _ _).trans h.capacity⟩
  · by_cases is : new = .second
    · subst is
      rw [State.listAfter_rise second]
      have sub := roomIn_sublist s.km.pizzicato
      refine ⟨List.pairwise_append.2 ⟨h.once.sublist sub, List.pairwise_singleton _ _, ?once⟩,
        List.pairwise_append.2 ⟨h.ordered.sublist sub, List.pairwise_singleton _ _, ?ordered⟩, ?capacity⟩
      case once =>
        intro e m f mf
        rw [List.mem_singleton.1 mf]
        exact h.not_listed second e (sub.subset m)
      case ordered =>
        intro e m f mf
        rw [List.mem_singleton.1 mf]
        exact (h.entries e (sub.subset m)).2.2.2
      case capacity =>
        have full := h.capacity
        rw [roomIn_eq h.once h.ordered]
        split
        · simp only [List.length_append, List.length_singleton]; omega
        · simp only [List.length_append, List.length_singleton, List.length_tail]; omega
    · rw [State.listAfter_other second is]
      exact ⟨h.once, h.ordered, h.capacity⟩

/-- R23, R30, R31, R32, R34: once the key's merged touch is formed and handed on, the laws hold. -/
theorem State.KeyboardBut.remerge {s : State} {d k : Nat} (h : s.KeyboardBut d k) (ld : d < 8) (lk : k < 64)
    (allOff : Bool) : (remerge allOff d k s).KeyboardSound := by
  have now := (remerge_reach allOff d k s).now
  have prof := (remerge_reach allOff d k s).prof
  have list := remerge_pizzicato allOff d k s
  have lists : (Machine.remerge allOff d k s).km.pizzicato.Pairwise
        (fun e f => ¬ (e.division = f.division ∧ e.key = f.key)) ∧
      (Machine.remerge allOff d k s).km.pizzicato.Pairwise (fun e f => e.expiry ≤ f.expiry) ∧
      (Machine.remerge allOff d k s).km.pizzicato.length ≤ 64 := by
    rw [list]
    split
    · exact ⟨h.once, h.ordered, h.capacity⟩
    · next moved => exact h.listAfter rfl moved
  obtain ⟨once, ordered, capacity⟩ := lists
  refine
    { free := fun c l => by rw [remerge_slot]; exact h.free c l
      distinct := fun c c' a l l' => by rw [remerge_slot, remerge_slot]; exact h.distinct c c' a l l'
      keys := fun c d' k' => by rw [remerge_slotTouch, prof]; exact h.keys c d' k'
      merged := fun d' k' l l' => ?merged
      entries := fun e m => ?entries
      once := once, ordered := ordered, capacity := capacity }
  case merged =>
    rw [remerge_highest, remerge_mergedTouch]
    by_cases same : cell d' k' = cell d k
    · obtain ⟨rfl, rfl⟩ := (cell_eq_iff l' lk).1 same
      rw [if_pos rfl]
    · rw [if_neg same]
      exact h.merged d' k' l l' fun e => same (by rw [e.1, e.2])
  case entries =>
    rw [remerge_mergedTouch, now, prof]
    rw [list] at m
    split at m
    · next same =>
      obtain ⟨hd, hk, second, due⟩ := h.entries e m
      refine ⟨hd, hk, ?_, due⟩
      split
      · next c => rw [← same, ← second]; unfold State.mergedTouch; rw [c]
      · exact second
    · next moved =>
      rcases h.mem_listAfter rfl moved m with ⟨listed, other⟩ | ⟨is, rfl⟩
      · obtain ⟨hd, hk, second, due⟩ := h.entries e listed
        exact ⟨hd, hk, by rw [if_neg fun c => other ((cell_eq_iff hk lk).1 c)]; exact second, due⟩
      · refine ⟨ld, lk, ?_, Nat.le_refl _⟩
        rw [if_pos (show cell (s.pizzEntry s.now d k).division (s.pizzEntry s.now d k).key = cell d k from rfl)]
        exact is

end Sys2Proof.Machine
end

section
/-! The laws of the keyboard, kept by every step. -/

namespace Sys2Proof.Machine

/-! ### Frames, losses and expiries -/

/-- R4: no division has more than 64 keys; before acceptance none has any. -/
theorem State.ProfileSound.keyCount_le {s : State} (h : s.ProfileSound) (d : Nat) : s.prof.keyCount d ≤ 64 := by
  unfold State.prof
  cases p : s.profile with
  | none =>
    have none : (default : Profile).keyCount d = 0 := rfl
    simp [none]
  | some q => exact ((h q p).keys d).1

/-- R4: no division has more than 64 keys. -/
def State.keysFit (s : State) : Prop := ∀ d, s.prof.keyCount d ≤ 64

theorem State.keysFit.reach {s t : State} (h : s.keysFit) (k : ReachKm s t) : t.keysFit := fun d => by
  rw [k.prof]
  exact h d

/-- A fold of operations, each of which reaches no more than KM does and keeps the laws for its own members. -/
theorem keyboardSound_foldl {β : Type} (f : State → β → State) (reach : ∀ s x, ReachKm s (f s x)) (l : List β)
    {s : State} (keeps : ∀ t x, x ∈ l → ReachKm s t → t.KeyboardSound → (f t x).KeyboardSound) (h : s.KeyboardSound) :
    (l.foldl f s).KeyboardSound := by
  induction l generalizing s with
  | nil => exact h
  | cons x rest ih =>
    refine ih (fun t y m r => ?_) (keeps s x List.mem_cons_self (.refl s) h)
    exact keeps t y (List.mem_cons_of_mem _ m) ((reach s x).trans r)

/-- R23, R24: a key that the division has takes a touch in a bound slot, or falls. -/
theorem State.KeyboardSound.setTouch {s : State} (h : s.KeyboardSound) {c d k : Nat} {v : Touch} (ld : d < 8)
    (lk : k < 64) (key : k < s.prof.keyCount d) (bound : (s.slot c).station ≠ none ∨ v = .up) :
    (setTouch c d k v s).KeyboardSound := by
  unfold Machine.setTouch
  split
  · exact h
  · exact ((h.but d k).setSlotTouch key lk bound).remerge ld lk false

/-- A change of a touch leaves every binding. -/
theorem setTouch_station (c d k : Nat) (v : Touch) (s : State) (c' : Nat) :
    ((setTouch c d k v s).slot c').station = (s.slot c').station := by
  unfold setTouch
  split
  · rfl
  · rw [remerge_slot, State.setSlotTouch_station]

theorem keyChange_station (c d : Nat) (s : State) (x : Fin 64 × BitVec 2) (c' : Nat) :
    ((keyChange c d s x).slot c').station = (s.slot c').station := by
  unfold keyChange
  split
  · exact setTouch_station _ _ _ _ _ _
  · rfl

/-- The laws, and that slot `c` is bound. -/
def State.playedFrom (s : State) (c : Nat) : Prop := s.KeyboardSound ∧ (s.slot c).station ≠ none

theorem State.playedFrom.keyChange {s : State} {c d : Nat} (h : s.playedFrom c) (ld : d < 8) (x : Fin 64 × BitVec 2) :
    (keyChange c d s x).playedFrom c := by
  refine ⟨?_, by rw [keyChange_station]; exact h.2⟩
  unfold Machine.keyChange
  split
  · next key => exact h.1.setTouch ld x.1.isLt key (.inl h.2)
  · exact h.1

theorem State.playedFrom.keyChanges {c d : Nat} (ld : d < 8) (changes : List (Fin 64 × BitVec 2)) :
    ∀ {s : State}, s.playedFrom c → (changes.foldl (Machine.keyChange c d) s).playedFrom c := by
  induction changes with
  | nil => exact fun h => h
  | cons x rest ih => exact fun h => ih (h.keyChange ld x)

/-- The numbers below 64 that are below `n`. -/
theorem range_filter_lt {n : Nat} (fit : n ≤ 64) : (List.range 64).filter (fun k => decide (k < n)) = List.range n := by
  obtain ⟨m, e⟩ := Nat.exists_eq_add_of_le fit
  rw [e, List.range_add, List.filter_append, List.filter_eq_self.2 (by simp), List.filter_eq_nil_iff.2 (by simp),
    List.append_nil]

theorem finRange_vals : (List.finRange 64).map (·.val) = List.range 64 := by decide

/-- R25: a SNAP is a KEYS frame of the division's keys, ascending. -/
theorem snapKeys_eq {c d : Nat} (codes : List (BitVec 2)) {s : State} (fit : s.prof.keyCount d ≤ 64) :
    snapKeys c d codes s =
      ((List.finRange 64).map fun k => (k, codes.getD k.val 0)).foldl (keyChange c d) s := by
  have along : ∀ (l : List (Fin 64)) (t : State), t.prof = s.prof →
      (l.map fun k => (k, codes.getD k.val 0)).foldl (keyChange c d) t =
        ((l.map (·.val)).filter fun k => decide (k < s.prof.keyCount d)).foldl
          (fun s k => setTouch c d k (touchOfCode (codes.getD k 0)) s) t := by
    intro l
    induction l with
    | nil => exact fun _ _ => rfl
    | cons k rest ih =>
      intro t same
      simp only [List.map_cons, List.foldl_cons, List.filter_cons]
      by_cases key : k.val < s.prof.keyCount d
      · rw [if_pos (by simpa using key), List.foldl_cons, ih _ ((keyChange_reach c d t _).prof.trans same)]
        simp [keyChange, same, key]
      · rw [if_neg (by simpa using key), ih _ ((keyChange_reach c d t _).prof.trans same)]
        simp [keyChange, same, key]
  rw [along _ s rfl, finRange_vals, range_filter_lt fit]
  rfl

/-- R21: a station that holds no slot takes a free one. -/
theorem State.KeyboardSound.bind {s : State} (h : s.KeyboardSound) {a : Station} {c : Nat} (unbound : s.slotOf a = none)
    (isFree : s.freeSlot = some c) :
    (s.setSlot c { station := some a, touch := .empty }).KeyboardSound := by
  have low : c < 4 := List.mem_range.1 (List.mem_of_find?_eq_some isFree)
  have alone : (s.slot c).station = none := by simpa using List.find?_some isFree
  have none : ∀ c, c < 4 → (s.slot c).station ≠ some a := fun c l e => by
    have := List.find?_eq_none.1 unbound c (List.mem_range.2 l)
    simp [e] at this
  have touch : ∀ c' d k, (s.setSlot c { station := some a, touch := .empty }).slotTouch c' d k = s.slotTouch c' d k := by
    intro c' d k
    unfold State.slotTouch
    rw [State.slot_setSlot]
    split
    · next e => rw [e, h.free c low alone]
    · rfl
  exact
    { free := fun c' l => by
        rw [State.slot_setSlot]
        split
        · exact fun _ => rfl
        · exact h.free c' l
      distinct := fun c₁ c₂ b l₁ l₂ => by
        rw [State.slot_setSlot, State.slot_setSlot]
        split
        · next e₁ =>
          split
          · next e₂ => exact fun _ _ => e₁.trans e₂.symm
          · intro e e'
            cases e
            exact absurd e' (none c₂ l₂)
        · split
          · intro e e'
            cases e'
            exact absurd e (none c₁ l₁)
          · exact h.distinct c₁ c₂ b l₁ l₂
      keys := fun c' d k lc ld above lk => by rw [touch]; exact h.keys c' d k lc ld above lk
      merged := fun d k l l' => by
        rw [State.highest_congr fun c' _ => touch c' d k]
        exact h.merged d k l l'
      entries := h.entries
      once := h.once
      ordered := h.ordered
      capacity := h.capacity }

theorem State.slotOf_bound {s : State} {a : Station} {c : Nat} (h : s.slotOf a = some c) :
    c < 4 ∧ (s.slot c).station = some a :=
  ⟨List.mem_range.1 (List.mem_of_find?_eq_some h), by simpa using List.find?_some h⟩

/-- R21, R22: a playing frame keeps the laws if what it does to its sender's slot keeps them. -/
theorem State.KeyboardSound.withSlot {s : State} (h : s.KeyboardSound) (a : Station) (detail : Nat)
    {apply : Nat → State → State}
    (keeps : ∀ c t, t.prof = s.prof → t.playedFrom c → (apply c t).KeyboardSound) :
    (withSlot a detail apply s).KeyboardSound := by
  unfold Machine.withSlot
  split
  · next c e =>
    refine keeps c s rfl ⟨h, ?_⟩
    rw [(State.slotOf_bound e).2]
    simp
  · next unbound =>
    split
    · next c e => exact keeps c _ rfl ⟨h.bind unbound e, by simp⟩
    · unfold refuseConsole
      split
      · exact h
      · exact ⟨h.free, h.distinct, h.keys, h.merged, h.entries, h.once, h.ordered, h.capacity⟩

/-- A change of stops leaves the touches, the merged touch and the list. -/
theorem State.KeyboardSound.stopChange {s : State} (h : s.KeyboardSound) (x : Fin 1024 × Bool) :
    (stopChange s x).KeyboardSound := by
  unfold Machine.stopChange
  dsimp only
  split
  · refine State.KeyboardSound.same (s := { s with km := { s.km with stopOn := s.km.stopOn.set x.1.val x.2 } }) ?_
      ((application_reach _ _ _).ch.trans (restartRest_reach _).app.ch).sameKm
    exact ⟨h.free, h.distinct, h.keys, h.merged, h.entries, h.once, h.ordered, h.capacity⟩
  · exact h

/-- R33: an expiry takes the key's entry out. -/
theorem State.KeyboardSound.pizzExpiry {s : State} (h : s.KeyboardSound) (d k : Nat) :
    (pizzExpiry d k s).KeyboardSound := by
  have applied := h.same (application_reach false (pizzDeltas s.prof s.km.stopOn d k) s).ch.sameKm
  exact
    { applied with
      entries := fun e m => applied.entries e (List.mem_of_mem_filter m)
      once := applied.once.filter _
      ordered := applied.ordered.filter _
      capacity := (List.length_filter_le _ _).trans applied.capacity }

/-- R38: one key of the ALL-OFF walk. -/
theorem State.KeyboardSound.allOffKey {s : State} (h : s.KeyboardSound) {d k : Nat} (ld : d < 8) (lk : k < 64)
    (key : k < s.prof.keyCount d) : (allOffKey d s k).KeyboardSound := by
  have along : ∀ (l : List Nat) (t : State), t.prof = s.prof → t.KeyboardBut d k →
      (l.foldl (fun s c => s.setSlotTouch c d k .up) t).KeyboardBut d k := by
    intro l
    induction l with
    | nil => exact fun _ _ h => h
    | cons c rest ih =>
      exact fun t same h => ih _ same (h.setSlotTouch (by rw [same]; exact key) lk (.inr rfl))
  unfold Machine.allOffKey
  split
  · exact h
  · exact (along _ s rfl (h.but d k)).remerge ld lk true

theorem State.KeyboardSound.allOff {s : State} (h : s.KeyboardSound) (fit : s.keysFit) : (allOff s).KeyboardSound := by
  unfold Machine.allOff
  have cleared := h.same (eeAllOff_reach s).trig.app.ch.sameKm
  have fit' := fit.reach (eeAllOff_reach s).trig.km
  refine State.KeyboardSound.same ?_ (endHold_reach _).ch.sameKm
  refine keyboardSound_foldl _ allOffDivision_reach _ (fun t d md reach ht => ?_) cleared
  have counts := fit'.reach reach
  refine keyboardSound_foldl _ (fun s k => allOffKey_reach d s k) _ (fun v k mk again hv => ?_) ht
  have key := List.mem_range.1 mk
  exact hv.allOffKey (List.mem_range.1 md) (by have := counts d; omega) (by rw [again.prof]; exact key)

/-! ### The loss of a console -/

/-- R35: the falls of a lost console's keys keep the laws. -/
theorem State.KeyboardSound.dropDivision {s : State} (h : s.KeyboardSound) (c : Nat) {d : Nat} (ld : d < 8)
    (fit : s.keysFit) : (dropDivision c s d).KeyboardSound := by
  refine keyboardSound_foldl _ (fun s k => setTouch_reach _ _ _ _ _) _ (fun t k mk reach ht => ?_) h
  have key := List.mem_range.1 mk
  exact ht.setTouch ld (by have := fit d; omega) (by rw [reach.prof]; exact key) (.inr rfl)

/-- The touch of a key in a slot after a change of one. -/
theorem setTouch_slotTouch (c d k : Nat) (v : Touch) (s : State) (c' d' k' : Nat) :
    (setTouch c d k v s).slotTouch c' d' k' =
      if c' = c ∧ cell d' k' = cell d k then v else s.slotTouch c' d' k' := by
  unfold setTouch
  split
  · next same =>
    split
    · next here =>
      obtain ⟨rfl, e⟩ := here
      rw [← same]
      unfold State.slotTouch
      rw [e]
    · rfl
  · rw [remerge_slotTouch, State.slotTouch_setSlotTouch]

/-- The last change of a list that begins with `x`. -/
theorem lastChange_cons {n : Nat} {α : Type} (x : Fin n × α) (rest : List (Fin n × α)) (i : Nat) :
    lastChange (x :: rest) i = (lastChange rest i).or (if x.1.val = i then some x.2 else none) := by
  unfold lastChange
  rw [List.reverse_cons, List.find?_append, Option.map_or]
  by_cases e : x.1.val = i <;> simp [e]

/-- A list that names every key of `l` once or more, each with a value of its own, gives that value. -/
theorem lastChange_map {n : Nat} {α : Type} (l : List (Fin n)) (f : Fin n → α) {k : Fin n} (m : k ∈ l) :
    lastChange (l.map fun k => (k, f k)) k.val = some (f k) := by
  unfold lastChange
  cases found : (l.map fun k => (k, f k)).reverse.find? (fun x => x.1.val == k.val) with
  | none =>
    have missed := List.find?_eq_none.1 found (k, f k) (List.mem_reverse.2 (List.mem_map.2 ⟨k, m, rfl⟩))
    simp at missed
  | some x =>
    obtain ⟨j, -, rfl⟩ := List.mem_map.1 (List.mem_reverse.1 (List.mem_of_find?_eq_some found))
    have named := List.find?_some found
    rw [beq_iff_eq] at named
    rw [Option.map_some, show j = k from Fin.ext named]

/-- R24: the changes of a frame set in the sender's slot each key of the division to the touch of its last change. -/
theorem keyChanges_slotTouch (c d : Nat) (changes : List (Fin 64 × BitVec 2)) (c' d' : Nat) {k : Nat} (lk : k < 64) :
    ∀ s : State, (changes.foldl (keyChange c d) s).slotTouch c' d' k =
      if c' = c ∧ d' = d ∧ k < s.prof.keyCount d then
        ((lastChange changes k).map touchOfCode).getD (s.slotTouch c' d' k)
      else s.slotTouch c' d' k := by
  induction changes with
  | nil => intro s; simp [lastChange]
  | cons x rest ih =>
    intro s
    have one : (keyChange c d s x).slotTouch c' d' k =
        if (c' = c ∧ d' = d ∧ k < s.prof.keyCount d) ∧ x.1.val = k then touchOfCode x.2 else s.slotTouch c' d' k := by
      unfold keyChange
      split
      · next key =>
        rw [setTouch_slotTouch]
        refine if_congr ?_ rfl rfl
        rw [cell_eq_iff lk x.1.isLt]
        constructor
        · rintro ⟨rfl, rfl, rfl⟩; exact ⟨⟨rfl, rfl, key⟩, rfl⟩
        · rintro ⟨⟨rfl, rfl, _⟩, rfl⟩; exact ⟨rfl, rfl, rfl⟩
      · next key =>
        rw [if_neg]
        rintro ⟨⟨_, _, here⟩, rfl⟩
        exact key here
    rw [List.foldl_cons, ih, (keyChange_reach c d s x).prof, one, lastChange_cons]
    by_cases own : c' = c ∧ d' = d ∧ k < s.prof.keyCount d
    · rw [if_pos own, if_pos own]
      cases lastChange rest k with
      | some v => rfl
      | none => by_cases e : x.1.val = k <;> simp [e, own]
    · rw [if_neg own, if_neg own, if_neg fun h => own h.1]

/-- R35: the falls of one division's keys are those of a frame that names each key UP. -/
theorem dropDivision_eq {c d : Nat} {s : State} (fit : s.prof.keyCount d ≤ 64) :
    dropDivision c s d = ((List.finRange 64).map fun k => (k, 0)).foldl (keyChange c d) s :=
  snapKeys_eq [] fit

/-- R35: after the falls slot `c` holds no key of the division. -/
theorem dropDivision_slotTouch {s : State} {c d : Nat} (d' : Nat) {k : Nat} (lk : k < 64)
    (fit : s.prof.keyCount d ≤ 64) :
    (dropDivision c s d).slotTouch c d' k =
      if d' = d ∧ k < s.prof.keyCount d then .up else s.slotTouch c d' k := by
  have last := lastChange_map (List.finRange 64) (fun _ => (0 : BitVec 2)) (List.mem_finRange ⟨k, lk⟩)
  rw [dropDivision_eq fit, keyChanges_slotTouch c d _ c d' lk, last]
  simp only [true_and]
  rfl

/-- R35: after the walk over the divisions slot `c` holds no key at all. -/
theorem dropDivisions {s : State} (h : s.KeyboardSound) {c : Nat} (lc : c < 4) (fit : s.keysFit) :
    ∀ n, n ≤ 8 → let t := (List.range n).foldl (dropDivision c) s
      ReachKm s t ∧ t.KeyboardSound ∧ ∀ d k, d < n → k < 64 → t.slotTouch c d k = .up := by
  intro n
  induction n with
  | zero => exact fun _ => ⟨.refl s, h, fun d k l => absurd l (Nat.not_lt_zero d)⟩
  | succ n ih =>
    intro le
    obtain ⟨reach, sound, fallen⟩ := ih (by omega)
    rw [List.range_succ, List.foldl_append, List.foldl_cons, List.foldl_nil]
    have fit' := fit.reach reach
    refine ⟨reach.trans (dropDivision_reach _ _ _), sound.dropDivision c (by omega) fit', fun d k l lk => ?_⟩
    rw [dropDivision_slotTouch d lk (fit' n)]
    split
    · rfl
    · next other =>
      by_cases e : d = n
      · subst e
        exact sound.keys c d k lc (by omega) (by omega) lk
      · exact fallen d k (by omega) lk

/-- R35: a slot whose keys have all fallen may be freed. -/
theorem State.KeyboardSound.unbind {s : State} (h : s.KeyboardSound) {c : Nat}
    (fallen : ∀ d k, d < 8 → k < 64 → s.slotTouch c d k = .up) :
    (s.setSlot c { station := none, touch := .empty }).KeyboardSound := by
  have touch : ∀ c' d k, d < 8 → k < 64 →
      (s.setSlot c { station := none, touch := .empty }).slotTouch c' d k = s.slotTouch c' d k := by
    intro c' d k ld lk
    by_cases e : c' = c
    · subst e
      rw [fallen d k ld lk]
      simp only [State.slotTouch, State.slot_setSlot_self]
      rfl
    · simp [State.slotTouch, State.slot_setSlot, e]
  exact
    { free := fun c' l => by
        rw [State.slot_setSlot]
        split
        · exact fun _ => rfl
        · exact h.free c' l
      distinct := fun c₁ c₂ b l₁ l₂ => by
        rw [State.slot_setSlot, State.slot_setSlot]
        split
        · exact fun e => by cases e
        · split
          · exact fun _ e => by cases e
          · exact h.distinct c₁ c₂ b l₁ l₂
      keys := fun c' d k lc ld above lk => by rw [touch c' d k ld lk]; exact h.keys c' d k lc ld above lk
      merged := fun d k ld lk => by
        rw [State.highest_congr fun c' _ => touch c' d k ld lk]
        exact h.merged d k ld lk
      entries := h.entries
      once := h.once
      ordered := h.ordered
      capacity := h.capacity }

theorem endHoldOf_sameKm (a : Station) (s : State) : s.sameKm (endHoldOf a s) := by
  unfold endHoldOf
  split
  · exact (endHold_reach _).ch.sameKm
  · exact .refl _

/-- R35: the loss of the console bound to slot `c`. -/
theorem State.KeyboardSound.consoleLoss {s : State} (h : s.KeyboardSound) (a : Station) {c : Nat} (lc : c < 4)
    (fit : s.keysFit) : (consoleLoss a c s).KeyboardSound := by
  obtain ⟨-, sound, fallen⟩ := dropDivisions h lc fit 8 (Nat.le_refl 8)
  unfold Machine.consoleLoss
  dsimp only
  generalize (List.range 8).foldl (Machine.dropDivision c) s = t at sound fallen ⊢
  have still : t.sameKm (endHoldOf a (releaseShoes c t)) :=
    (releaseShoes_reach c t).app.ch.sameKm.trans (endHoldOf_sameKm _ _)
  have freed := (sound.same still).unbind (c := c) fun d k ld lk => by
    unfold State.slotTouch State.slot
    rw [still.1]
    exact fallen d k ld lk
  split
  · exact freed.same ⟨rfl, rfl, rfl⟩
  · exact freed

theorem State.KeyboardSound.stationLost {s : State} (h : s.KeyboardSound) (a : Station) (fit : s.keysFit) :
    (stationLost a s).KeyboardSound := by
  have left : State.KeyboardSound { s with km := { s.km with refused := s.km.refused.set a.val false } } :=
    ⟨h.free, h.distinct, h.keys, h.merged, h.entries, h.once, h.ordered, h.capacity⟩
  unfold Machine.stationLost
  dsimp only
  split
  · next c e => exact left.consoleLoss a (State.slotOf_bound e).1 fit
  · exact left.same (endHoldOf_sameKm _ _)

end Sys2Proof.Machine
end

section
/-! O56: the laws of the keyboard are kept by every step. Most commands leave KM, the clock and the profile alone once they
have arrived; the rest are a reset, an acceptance, or one of KM's own operations. -/

namespace Sys2Proof.Machine

/-! ### Operations that leave KM, the clock and the profile alone -/

theorem ReachTsu.sameKm {s t : State} (h : ReachTsu s t) : s.sameKm t := h.app.ch.sameKm

theorem ReachPa.sameKm {s t : State} (h : ReachPa s t) : s.sameKm t := h.tsu.sameKm

theorem resumePass_reach (r : Nat) (c : Context) (s : State) : ReachCh s (resumePass r c s) := by
  unfold resumePass
  split
  · exact (setRunner_reach _ _ s).trans (runChamber_reach _)
  · exact (runEffect_reach _ _ _).ch

theorem takeMark_reach (m : Fin 64) (r : Nat) (s : State) : ReachCh s (takeMark m r s) := by
  unfold takeMark
  split
  · split
    · exact resumePass_reach _ _ _
    · exact .refl s
  · exact .refl s

/-- Things taken in any order reach what each of them reaches. -/
theorem inAnyOrder_reach (R : State → State → Prop) (refl : ∀ s, R s s) (trans : ∀ a b c, R a b → R b c → R a c)
    (counted : ∀ (s : State) (n : Nat), R s { s with choices := n }) {f : Nat → State → State}
    (hf : ∀ r s, R s (f r s)) : ∀ (n : Nat) (l : List Nat) (s : State), R s (inAnyOrder f n l s) := by
  intro n
  induction n with
  | zero =>
    intro l s
    match l with
    | [] => exact refl s
    | [r] => exact hf r s
    | _ :: _ :: _ => exact refl s
  | succ n ih =>
    intro l s
    match l with
    | [] => exact refl s
    | [r] => exact hf r s
    | _ :: _ :: _ => exact trans _ _ _ (trans _ _ _ (counted s _) (hf _ _)) (ih _ _)

theorem offerMark_reach (m : Fin 64) (s : State) : ReachCh s (offerMark m s) :=
  inAnyOrder_reach ReachCh ReachCh.refl (fun _ _ _ => ReachCh.trans) (fun _ _ => rfl) (takeMark_reach m) _ _ s

theorem clockEdge_reach (w : Nat) (s : State) : ReachCh s (clockEdge w s) := by
  unfold clockEdge
  exact ReachCh.trans (b := { s with dt := { s.dt with clocks := _ } }) rfl
    (forOutputs_reach strikeBar_reach _ _).app.ch

theorem phaseWAt_reach (g : Nat) (s : State) : ReachTsu s (phaseWAt g s) := by
  unfold phaseWAt
  split
  · exact .refl s
  · exact (setTrem_reach _ _ s).trans (paRelease_reach _ _).tsu

theorem stepTimerEnds_reach (x : Nat) (s : State) : ReachTsu s (stepTimerEnds x s) := by
  unfold stepTimerEnds
  split
  · exact shutterStep_reach _ _
  · rfl

theorem judgeLoopback_sameKm (c : Nat) (returned : List Nat) (s : State) : s.sameKm (judgeLoopback c returned s) := by
  unfold judgeLoopback
  split <;> exact ⟨rfl, rfl, rfl⟩

theorem endShift_sameKm (c : Nat) (returned : List Nat) (s : State) : s.sameKm (endShift c returned s) := by
  have judged : s.sameKm (if (s.chain c).released then judgeLoopback c returned s else s) := by
    split
    · exact judgeLoopback_sameKm _ _ _
    · exact .refl s
  unfold endShift
  split
  · exact .refl s
  · next sh _ =>
    dsimp only
    generalize (if (s.chain c).released = true then judgeLoopback c returned s else s) = v at judged ⊢
    refine judged.trans ?_
    split
    · exact State.sameKm.trans (b := v.setChain c _) ⟨rfl, rfl, rfl⟩ (startShift_reach _ _).grant.pa.sameKm
    · exact ⟨rfl, rfl, rfl⟩

theorem beginFrame_sameKm (s : State) : s.sameKm (beginFrame s) := by
  unfold beginFrame
  split <;> exact ⟨rfl, rfl, rfl⟩

theorem returnFrame_sameKm (s : State) : s.sameKm (returnFrame s) := by
  unfold returnFrame
  split <;> exact ⟨rfl, rfl, rfl⟩

theorem mismatch_sameKm (s : State) : s.sameKm (mismatch s) := by
  have returned := returnFrame_sameKm
    (reportFault .dupStation s.pf.station.val (s.li.duplicates + 1)
      { s with li := { s.li with duplicates := s.li.duplicates + 1 } })
  unfold mismatch
  dsimp only
  split
  · exact returned.trans ⟨rfl, rfl, rfl⟩
  · exact returned

theorem ownFrame_sameKm (f : Frame) (s : State) : s.sameKm (ownFrame f s) := by
  unfold ownFrame
  split
  · exact (offerMark_reach _ _).sameKm
  · exact (offerBeat_reach _ _ _).sameKm
  · exact .refl s
  · exact .refl s

theorem takeTune_sameKm (a : Station) (output : BitVec 16) (s : State) : s.sameKm (takeTune a output s) := by
  unfold takeTune
  dsimp only
  split
  · exact (endHold_reach s).ch.sameKm
  · split
    · split
      · exact ⟨rfl, rfl, rfl⟩
      · exact (moveHold_reach _ s).ch.sameKm
    · exact .refl s

theorem refuseProfile_sameKm (x : LoadFault) (s : State) : s.sameKm (refuseProfile x s) :=
  ((withChamber_reach _ s).trans ((reportFault_reach _ _ _ _).pa.ee.ch.trans (handPresence_reach _).ch)).sameKm

/-! ### Lines -/

/-- A local line's edge in LL leaves KM alone; only an ALLOFF line's edge then reaches it. -/
theorem State.KeyboardSound.edgeBlock {s : State} (h : s.KeyboardSound) (fit : s.keysFit) (l : Nat) (v : Bool) :
    (edgeBlock l v s).KeyboardSound := by
  unfold Machine.edgeBlock
  split
  · split
    · exact h
    · exact h.same (pressureLoss_reach _ _).sameKm
  · split
    · exact h.same (offerWake_reach _ _).sameKm
    · exact h
  · exact h.same (cueEdge_reach _ _ _).app.ch.sameKm
  · split
    · exact h.allOff fit
    · exact h
  all_goals exact h

theorem edgeRunner_reach (l : Nat) (v : Bool) (s : State) : ReachCh s (edgeRunner l v s) :=
  (offerLine_reach l v s).ch.trans (runChamber_reach _)

theorem State.KeyboardSound.debouncedEdge {s : State} (h : s.KeyboardSound) (fit : s.keysFit) (l : Nat) (v : Bool) :
    (debouncedEdge l v s).KeyboardSound := by
  have edged : s.sameKm (s.setLine l { s.line l with debounced := v, debounce := none }) := ⟨rfl, rfl, rfl⟩
  have h' := h.same edged
  have fit' : (s.setLine l { s.line l with debounced := v, debounce := none }).keysFit := fit
  unfold Machine.debouncedEdge
  dsimp only
  generalize s.setLine l { s.line l with debounced := v, debounce := none } = t at h' fit'
  split
  · split
    · unfold eitherOrder
      dsimp only
      have counted : State.KeyboardSound { t with choices := t.choices + 1 } := h'.same ⟨rfl, rfl, rfl⟩
      split
      · exact (counted.edgeBlock fit' l v).same (edgeRunner_reach l v _).sameKm
      · have run := edgeRunner_reach l v { t with choices := t.choices + 1 }
        exact (counted.same run.sameKm).edgeBlock (State.keysFit.reach (s := { t with choices := t.choices + 1 }) fit' run.km) l v
    · exact h'.edgeBlock fit' l v
  · exact h'.same (edgeRunner_reach l v t).sameKm

theorem State.KeyboardSound.rawChanged {s : State} (h : s.KeyboardSound) (fit : s.keysFit) (l : Nat) (v : Bool) :
    (rawChanged l v s).KeyboardSound := by
  unfold Machine.rawChanged
  dsimp only
  split
  · split
    · exact h.same ⟨rfl, rfl, rfl⟩
    · split
      · exact h.debouncedEdge fit l v
      · exact h.same ⟨rfl, rfl, rfl⟩
  · exact h

/-! ### Resets and acceptance -/

/-- A reset empties KM and takes the profile away. -/
theorem resetBlocks_keyboardSound (cause : Cause) (straps : Station) (s : State) :
    (resetBlocks cause straps s).KeyboardSound :=
  State.reset_keyboardSound.congr rfl (Nat.zero_le _) rfl

theorem endReset_sameKm (s : State) : s.sameKm (endReset s) :=
  (handPresence_reach s).ch.sameKm.trans ⟨rfl, rfl, rfl⟩

/-- R20: before acceptance no division has a key, so no slot holds one and no entry stands in the list. -/
theorem State.KeyboardSound.unprofiled {s : State} (h : s.KeyboardSound) (none : s.profile = none) :
    (∀ c d k, c < 4 → d < 8 → k < 64 → s.slotTouch c d k = .up) ∧ s.km.pizzicato = [] := by
  have keyless : ∀ d, s.prof.keyCount d = 0 := fun d => by
    unfold State.prof
    rw [none]
    rfl
  have up : ∀ c d k, c < 4 → d < 8 → k < 64 → s.slotTouch c d k = .up := fun c d k lc ld lk =>
    h.keys c d k lc ld (by rw [keyless]; exact Nat.zero_le _) lk
  refine ⟨up, List.eq_nil_iff_forall_not_mem.2 fun e m => ?_⟩
  obtain ⟨ld, lk, second, -⟩ := h.entries e m
  rw [h.merged _ _ ld lk, State.highest_eq_up.2 fun c lc => up c _ _ lc ld lk] at second
  cases second

/-- R183: with a profile the laws hold of the empty keyboard. -/
theorem State.KeyboardSound.profiled {s : State} (h : s.KeyboardSound) (none : s.profile = none) (p : Profile) :
    State.KeyboardSound { s with profile := some p } := by
  obtain ⟨up, empty⟩ := h.unprofiled none
  have listed : ∀ e, e ∉ s.km.pizzicato := fun e m => by
    rw [empty] at m
    cases m
  exact
    { free := h.free, distinct := h.distinct, merged := h.merged, once := h.once, ordered := h.ordered
      capacity := h.capacity
      keys := fun c d k lc ld _ lk => up c d k lc ld lk
      entries := fun e m => absurd m (listed e) }

theorem State.KeyboardSound.acceptProfile {s : State} (h : s.KeyboardSound) (none : s.profile = none) (p : Profile) :
    (acceptProfile p s).KeyboardSound := by
  have along : ∀ (f : State → Nat → State), (∀ (s : State) n, s.sameKm (f s n)) → ∀ (l : List Nat) (s : State),
      s.sameKm (l.foldl f s) := fun f k => foldl_reach State.sameKm .refl (fun _ _ _ => .trans) f k
  unfold Machine.acceptProfile
  dsimp only
  refine State.KeyboardSound.same ?_ (offerWake_reach _ _).sameKm
  refine State.KeyboardSound.same ?_ (moveTo_reach _ _).sameKm
  refine State.KeyboardSound.same ?_ (along _ (fun s c => (startShift_reach c s).grant.pa.sameKm) _ _)
  refine State.KeyboardSound.same ?_ (along takeCueLevel (fun s e => ?_) _ _)
  · exact (h.profiled none p).same (along acceptLine (fun s l => ⟨rfl, rfl, rfl⟩) _ _)
  · unfold takeCueLevel
    split
    · split <;> exact ⟨rfl, rfl, rfl⟩
    · exact .refl s

/-! ### The shape of a command -/

/-- The pass of runner 0 that ends a command, and a command while NRST is low, leave the laws. -/
theorem State.KeyboardSound.taken {s u : State} (h : s.KeyboardSound) {t : Nat} {f : State → State}
    (keeps : (s.arrive t).KeyboardSound → (f (s.arrive t)).KeyboardSound) (e : taken t f s = .next u) :
    u.KeyboardSound := by
  have arrived : (s.arrive t).KeyboardSound := h.congr rfl (Nat.le_max_left _ _) rfl
  unfold Machine.taken at e
  cases e
  split
  · exact arrived
  · exact (keeps arrived).same (runChamber_reach _).sameKm

/-- A command that leaves KM, the clock and the profile alone. -/
theorem State.KeyboardSound.taken_same {s u : State} (h : s.KeyboardSound) {t : Nat} {f : State → State}
    (keeps : ∀ v : State, v.sameKm (f v)) (e : Machine.taken t f s = .next u) : u.KeyboardSound :=
  h.taken (fun k => k.same (keeps _)) e

/-- A checked frame: PT hears its sender, and the block takes it. -/
theorem State.KeyboardSound.frame {s u : State} (h : s.KeyboardSound) (fit : s.keysFit) {t : Nat} {a : Station}
    {f : State → State} (keeps : ∀ v : State, v.KeyboardSound → v.keysFit → (f v).KeyboardSound)
    (e : frame t a f s = .next u) : u.KeyboardSound := by
  refine h.taken (fun k => ?_) e
  split
  · exact k
  · exact keeps _ (k.same ⟨rfl, rfl, rfl⟩) fit

/-- From acceptance onward the block takes it. -/
theorem State.KeyboardSound.accepted {v : State} (h : v.KeyboardSound) {f : State → State}
    (keeps : (f v).KeyboardSound) : (accepted f v).KeyboardSound := by
  unfold Machine.accepted
  split
  · exact keeps
  · exact h

/-- A checked frame that leaves KM, the clock and the profile alone. -/
theorem State.KeyboardSound.frame_same {s u : State} (h : s.KeyboardSound) {t : Nat} {a : Station} {f : State → State}
    (keeps : ∀ v : State, v.sameKm (f v)) (e : Machine.frame t a f s = .next u) : u.KeyboardSound := by
  refine h.taken_same (fun v => ?_) e
  split
  · exact .refl v
  · exact State.sameKm.trans (b := heard a v) ⟨rfl, rfl, rfl⟩ (keeps _)

theorem accepted_sameKm {f : State → State} (keeps : ∀ v : State, v.sameKm (f v)) (v : State) :
    v.sameKm (accepted f v) := by
  unfold accepted
  split
  · exact keeps v
  · exact .refl v

/-- What a choice between an operation and none leaves alone. -/
theorem sameKm_ite {p : Prop} [Decidable p] {s t : State} (h : s.sameKm t) : s.sameKm (if p then t else s) := by
  split
  · exact h
  · exact .refl s

/-- The laws of the keyboard are kept by every command. -/
theorem State.KeyboardSound.exec {s u : State} (h : s.KeyboardSound) (fit : s.keysFit)
    (loading : s.ch.state = .loading → s.profile = none) (i : Instr) (e : exec i s = .next u) : u.KeyboardSound := by
  cases i with
  | powerOn t straps =>
    cases e
    have reset := resetBlocks_keyboardSound .powerOn straps (s.arrive t)
    have emptied : (emptyRecord (resetBlocks .powerOn straps (s.arrive t))).KeyboardSound := reset.same ⟨rfl, rfl, rfl⟩
    exact emptied.same (endReset_sameKm _)
  | pinReset t straps =>
    cases e
    exact (resetBlocks_keyboardSound (s.arrive t).pinCause straps (s.arrive t)).same ⟨rfl, rfl, rfl⟩
  | profileLoadEnd t image =>
    refine h.taken (fun k => ?_) e
    split
    · next reads =>
      have tagged : State.KeyboardSound { s.arrive t with pf := { (s.arrive t).pf with tag := imageTag image } } :=
        k.same ⟨rfl, rfl, rfl⟩
      unfold loadEnds
      dsimp only
      split
      · exact tagged.acceptProfile (loading reads) _
      · exact tagged.same (refuseProfile_sameKm _ _)
    · exact k
  | lineCheck t a reason =>
    simp only [Machine.exec, execLineCheck] at e
    refine h.taken_same (fun v => ?_) e
    split <;> exact ⟨rfl, rfl, rfl⟩
  | alloff t a => exact h.frame fit (fun v k fit => k.accepted (k.allOff fit)) e
  | restart t a mask straps =>
    refine h.frame fit (fun v k _ => ?_) e
    split
    · exact (resetBlocks_keyboardSound _ _ _).same (endReset_sameKm _)
    · exact k
  | keys t a d changes =>
    exact h.frame fit (fun v k _ => k.accepted (k.withSlot a keysDetail fun c w _ played =>
      (played.keyChanges d.isLt changes).1)) e
  | snap t a d codes =>
    refine h.frame fit (fun v k fit => k.accepted (k.withSlot a snapDetail fun c w same played => ?_)) e
    rw [snapKeys_eq codes (by rw [same]; exact fit d.val)]
    exact (played.keyChanges d.isLt _).1
  | shoe t a pairs =>
    exact h.frame fit (fun v k _ => k.accepted (k.withSlot a shoeDetail fun c w _ played =>
      played.1.same (takePairs_reach c pairs w).sameKm)) e
  | beat t a tag => exact h.frame_same (accepted_sameKm fun v => (offerBeat_reach a tag v).sameKm) e
  | mark t a m => exact h.frame_same (accepted_sameKm fun v => (offerMark_reach m v).sameKm) e
  | stops t a changes =>
    refine h.frame fit (fun v k _ => k.accepted (k.withSlot a stopsDetail fun c w _ played => ?_)) e
    exact keyboardSound_foldl _ stopChange_reach changes (fun _ x _ _ hx => hx.stopChange x) played.1
  | chamberWake t a mask =>
    exact h.frame_same (accepted_sameKm fun v => sameKm_ite (offerWake_reach _ v).sameKm) e
  | chamberRest t a mask =>
    exact h.frame_same (accepted_sameKm fun v => sameKm_ite (enterSettling_reach v).sameKm) e
  | chamberDark t a mask =>
    exact h.frame_same (accepted_sameKm fun v => sameKm_ite (enterDarkening_reach v).sameKm) e
  | tune t a station output =>
    exact h.frame_same (accepted_sameKm fun v => sameKm_ite (takeTune_sameKm a output v)) e
  | clear t a mask => exact h.frame_same (fun v => sameKm_ite (t := emptyRecord v) ⟨rfl, rfl, rfl⟩) e
  | ask t a station =>
    simp only [Machine.exec, execAsk] at e
    refine h.taken_same (fun v => ?_) e
    have told : v.sameKm (if v.ch.state = .profileFault then v else heard a v) := by
      split <;> exact ⟨rfl, rfl, rfl⟩
    exact told.trans (sameKm_ite (handOver_reach _ _).ch.sameKm)
  | presence t a role state flags tag =>
    exact h.frame_same (fun v => State.sameKm.trans (b := v.setPeer a _) ⟨rfl, rfl, rfl⟩
      (judgeGathering_reach _).sameKm) e
  | reportReceived t a payload => exact h.frame_same State.sameKm.refl e
  | silenceTimerExpiry t a =>
    simp only [Machine.exec, execSilenceTimerExpiry] at e
    refine h.taken (fun k => ?_) e
    split
    · exact k
    · split
      · next entry _ =>
        have left : ((s.arrive t).setPeer a entry).KeyboardSound := k.same ⟨rfl, rfl, rfl⟩
        exact left.accepted (left.stationLost a fit)
      · exact k
  | pizzicatoExpiry t d k =>
    refine h.taken (fun arrived => ?_) e
    split
    · exact arrived.pizzExpiry d.val k.val
    · exact arrived
  | reiterationClockEdge t w => exact h.taken_same (fun v => sameKm_ite (clockEdge_reach _ v).sameKm) e
  | pullInEnd t o => exact h.taken_same (fun v => (pullInEnds_reach _ v).sameKm) e
  | strikeEnd t o => exact h.taken_same (fun v => (strikeEnds_reach _ v).sameKm) e
  | shiftEnd t c returned => exact h.taken_same (fun v => sameKm_ite (endShift_sameKm _ _ v)) e
  | refreshTimerExpiry t c => exact h.taken_same (fun v => sameKm_ite (shiftWanted_reach _ v).grant.pa.sameKm) e
  | waitEnd t r | awaitTimeout t r =>
    simp only [Machine.exec, execWaitEnd, execAwaitTimeout] at e
    refine h.taken_same (fun v => ?_) e
    split
    · exact sameKm_ite (resumePass_reach _ _ v).sameKm
    · exact .refl v
  | awaitlineTimeout t =>
    simp only [Machine.exec, execAwaitlineTimeout] at e
    refine h.taken_same (fun v => ?_) e
    split
    · split
      · split
        · exact (wakeTimeout_reach _ _ v).sameKm
        · exact (resumePass_reach _ _ v).sameKm
      · exact .refl v
    · exact .refl v
  | phase0 t g =>
    simp only [Machine.exec, execPhase0] at e
    refine h.taken_same (fun v => ?_) e
    split
    · exact sameKm_ite (phase0At_reach _ _ v).sameKm
    · exact .refl v
  | phaseW t g => exact h.taken_same (fun v => sameKm_ite (phaseWAt_reach _ v).sameKm) e
  | followLossExpiry t g =>
    simp only [Machine.exec, execFollowLossExpiry] at e
    refine h.taken_same (fun v => ?_) e
    exact sameKm_ite ⟨rfl, rfl, rfl⟩
  | ownerHoldExpiry t x =>
    simp only [Machine.exec, execOwnerHoldExpiry] at e
    refine h.taken_same (fun v => ?_) e
    exact sameKm_ite ⟨rfl, rfl, rfl⟩
  | stepTimerExpiry t x => exact h.taken_same (fun v => sameKm_ite (stepTimerEnds_reach _ v).sameKm) e
  | syncTimeout t => exact h.taken_same (fun v => sameKm_ite (syncShort_reach v).sameKm) e
  | restTimerExpiry t => exact h.taken_same (fun v => sameKm_ite (restExpires_reach v).sameKm) e
  | lineRawChange t l v =>
    simp only [Machine.exec, execLineRawChange] at e
    split at e
    · cases e
      exact h.congr rfl (Nat.le_max_left _ _) rfl
    · refine State.KeyboardSound.taken (s := pinLevel l.val v s) (h.same ⟨rfl, rfl, rfl⟩) (fun k => ?_) e
      exact k.accepted (k.rawChanged fit l.val v)
  | debounceExpiry t l =>
    refine h.taken (fun k => ?_) e
    split
    · exact k.debouncedEdge fit _ _
    · exact k
  | presencePeriodExpiry t =>
    simp only [Machine.exec, execPresencePeriodExpiry] at e
    exact h.taken_same (fun v => sameKm_ite (State.sameKm.trans
      (b := { v with li := { v.li with presencePeriod := v.li.presencePeriod.map (· + ms 200) } }) ⟨rfl, rfl, rfl⟩
      (handPresence_reach _).ch.sameKm)) e
  | txStart t =>
    simp only [Machine.exec, execTxStart] at e
    refine h.taken_same (fun v => ?_) e
    split
    · exact .refl v
    · exact beginFrame_sameKm v
  | claimLost t => exact h.taken_same returnFrame_sameKm e
  | txMismatch t => exact h.taken_same (fun v => sameKm_ite (mismatch_sameKm v)) e
  | txComplete t =>
    simp only [Machine.exec, execTxComplete] at e
    refine h.taken_same (fun v => ?_) e
    split
    · exact .refl v
    · exact State.sameKm.trans (b := { v with li := _ }) ⟨rfl, rfl, rfl⟩ (ownFrame_sameKm _ _)
  | profileHeaderRead t tag =>
    simp only [Machine.exec, execProfileHeaderRead] at e
    refine h.taken_same (fun v => ?_) e
    exact sameKm_ite ⟨rfl, rfl, rfl⟩
  | endOfPinReset t =>
    cases e
    have arrived : (s.arrive t).KeyboardSound := h.congr rfl (Nat.le_max_left _ _) rfl
    dsimp only
    split
    · exact (arrived.same ⟨rfl, rfl, rfl⟩).same (endReset_sameKm _)
    · exact arrived

/-- Settles O56: on an empty queue nothing moves, and every command keeps the laws. -/
theorem keyboardLawsAreKept : Obligations.KeyboardLawsAreKept := by
  intro s u chamber profile h e
  unfold step at e
  split at e
  · cases e
    exact h
  · next c rest _ =>
    have taken : State.KeyboardSound { s with pending := rest } := h.same ⟨rfl, rfl, rfl⟩
    exact taken.exec profile.keyCount_le (fun reads => chamber.profiled.2 (.inl reads)) c e

end Sys2Proof.Machine
end

section
/-! O14: a playing frame that finds all four slots bound to other stations. -/

namespace Sys2Proof.Machine

/-- R22: a playing frame that finds no slot is refused; the first of a station is recorded. -/
theorem frame_refused {t : Nat} {a : Station} {detail : Nat} {apply : Nat → State → State} {s : State} (h : s.serves)
    (unbound : s.slotOf a = none) (bound : s.freeSlot = none) :
    frame t a (accepted (withSlot a detail apply)) s = .next (
      if s.km.refused.get a.val then s.hearing t a
      else { s.hearing t a with
        km := { s.km with refused := s.km.refused.set a.val true }
        pf := s.pf.recording .consoleExcess a.val detail }) := by
  have refused : accepted (withSlot a detail apply) (s.hearing t a) = refuseConsole a detail (s.hearing t a) := by
    rw [accepted_run (show (s.hearing t a).profile.isSome = true from h.2)]
    unfold withSlot
    rw [show (s.hearing t a).slotOf a = none from unbound, show (s.hearing t a).freeSlot = none from bound]
  have idle : (refuseConsole a detail (s.hearing t a)).runner 0 = s.runner 0 := by
    unfold refuseConsole
    split <;> rfl
  rw [frame_run h.1 (by rw [refused]; exact idle), refused]
  rfl

/-- Settles O14: the four commands are refused alike, each with its own detail. -/
theorem fifthConsoleIsRefused : Obligations.FifthConsoleIsRefused := by
  rintro a c detail s h unbound bound
    (⟨t, d, changes, rfl, rfl⟩ | ⟨t, d, codes, rfl, rfl⟩ | ⟨t, pairs, rfl, rfl⟩ | ⟨t, changes, rfl, rfl⟩)
  all_goals exact frame_refused h unbound bound

end Sys2Proof.Machine
end

section
/-! PA's requests depend on the clock, the profile, PA, CC and whether the chamber is READY, and on nothing else. -/

namespace Sys2Proof.Machine

/-- Two states that PA and CC cannot tell apart. -/
structure State.PaAlike (s t : State) : Prop where
  now : t.now = s.now
  profile : t.profile = s.profile
  pa : t.pa = s.pa
  cc : t.cc = s.cc
  ready : t.isReady = s.isReady

theorem State.PaAlike.refl (s : State) : s.PaAlike s := ⟨rfl, rfl, rfl, rfl, rfl⟩

theorem State.PaAlike.symm {s t : State} (h : s.PaAlike t) : t.PaAlike s :=
  ⟨h.now.symm, h.profile.symm, h.pa.symm, h.cc.symm, h.ready.symm⟩

theorem State.PaAlike.trans {a b c : State} (h : a.PaAlike b) (k : b.PaAlike c) : a.PaAlike c :=
  ⟨k.now.trans h.now, k.profile.trans h.profile, k.pa.trans h.pa, k.cc.trans h.cc, k.ready.trans h.ready⟩

section
variable {s t : State} (h : s.PaAlike t)
include h

theorem State.PaAlike.prof : t.prof = s.prof := by unfold State.prof; rw [h.profile]

theorem State.PaAlike.out (o : Nat) : t.out o = s.out o := by unfold State.out; rw [h.pa]

theorem State.PaAlike.chain (c : Nat) : t.chain c = s.chain c := by unfold State.chain; rw [h.cc]

theorem State.PaAlike.weight (o : Nat) : t.weight o = s.weight o := by unfold State.weight; rw [h.prof]

theorem State.PaAlike.shiftPattern (c : Nat) : t.shiftPattern c = s.shiftPattern c := by
  unfold State.shiftPattern State.truePattern
  simp only [h.chain, h.prof, h.out]

theorem State.PaAlike.setChain (c : Nat) (v : Chain) : (s.setChain c v).PaAlike (t.setChain c v) :=
  ⟨h.now, h.profile, h.pa, by simp [State.setChain, h.cc], h.ready⟩

theorem State.PaAlike.withPa (v : Pa) : State.PaAlike { s with pa := v } { t with pa := v } :=
  ⟨h.now, h.profile, rfl, h.cc, h.ready⟩

theorem State.PaAlike.energizedNotice (o : Nat) : (energizedNotice o s).PaAlike (energizedNotice o t) := by
  unfold Machine.energizedNotice shiftWanted startShift
  rw [h.chain, h.prof, h.shiftPattern, h.now]
  split
  · exact h.setChain _ _
  · split
    · exact h
    · exact h.setChain _ _

theorem State.PaAlike.grantPa (c : Candidate) : grantPa t c = grantPa s c := by
  cases c <;> simp [Machine.grantPa, h.pa, h.now, h.weight, h.prof, State.pullInTime]

theorem State.PaAlike.grant (c : Candidate) : (grant c s).PaAlike (grant c t) := by
  unfold Machine.grant
  rw [h.grantPa]
  exact (h.withPa _).energizedNotice _

end

theorem State.PaAlike.chooseUpTo (n : Nat) : ∀ {s t : State}, s.PaAlike t → (chooseUpTo n s).PaAlike (chooseUpTo n t) := by
  induction n with
  | zero => exact fun h => h
  | succ n ih =>
    intro s t h
    have same : t.candidate = s.candidate := by simp [State.candidate, h.pa, h.prof]
    have room : t.freeUnits = s.freeUnits := by simp [State.freeUnits, h.pa, h.prof]
    unfold Machine.chooseUpTo
    rw [same]
    cases s.candidate with
    | none => exact h
    | some c =>
      dsimp only
      rw [h.weight, room]
      split
      · exact ih (h.grant c)
      · exact h

theorem State.PaAlike.chooseGrants {s t : State} (h : s.PaAlike t) : (chooseGrants s).PaAlike (chooseGrants t) := by
  unfold Machine.chooseGrants
  rw [h.pa]
  exact h.chooseUpTo _

/-- A request that PA answers alike in states that it cannot tell apart, and that records the same faults. -/
def PaRequest (f : State → State) : Prop :=
  ∀ s t : State, s.PaAlike t → (f s).PaAlike (f t) ∧ (t.pf = s.pf → (f t).pf = (f s).pf)

/-- R65, R71: an event at PA is answered alike if what it does before the choice is. -/
theorem PaRequest.paEvent {f : State → State} (k : PaRequest f) : PaRequest (paEvent f) := by
  intro s t h
  unfold Machine.paEvent
  rw [h.ready]
  split
  · obtain ⟨alike, recorded⟩ := k s t h
    refine ⟨alike.chooseGrants, fun pf => ?_⟩
    have stands : ∀ v : State, (Machine.chooseGrants v).pf = v.pf := fun v => by
      have reach := chooseGrants_reach v
      unfold ReachGrant at reach
      rw [reach]
    rw [stands, stands]
    exact recorded pf
  · exact ⟨h, fun pf => pf⟩

theorem joinAction_request (o : Nat) (k : ActionKind) : PaRequest (joinAction o k) := by
  intro s t h
  unfold joinAction
  rw [h.pa]
  split
  · exact ⟨h.withPa _, fun pf => pf⟩
  · exact ⟨⟨h.now, h.profile, h.pa, h.cc, h.ready⟩, fun pf => by unfold reportFault; rw [pf]⟩

theorem paOpen_request (o : Nat) : PaRequest (paOpen o) := by
  refine PaRequest.paEvent fun s t h => ?_
  dsimp only
  rw [h.out, h.pa]
  split
  · exact ⟨h.withPa _, fun pf => pf⟩
  · exact ⟨h, fun pf => pf⟩

theorem paHold_request (o : Nat) : PaRequest (paHold o) := by
  refine PaRequest.paEvent fun s t h => ?_
  dsimp only
  rw [h.out]
  split
  · exact joinAction_request _ _ s t h
  · rw [h.pa]; exact ⟨h.withPa _, fun pf => pf⟩
  · unfold State.setOut; rw [h.pa]; exact ⟨h.withPa _, fun pf => pf⟩
  · exact ⟨h, fun pf => pf⟩
  · exact ⟨h, fun pf => pf⟩

theorem energizedNotice_pf (o : Nat) (s : State) : (energizedNotice o s).pf = s.pf := by
  have reach := energizedNotice_reach o s
  unfold ReachCc at reach
  rw [reach]

theorem paRelease_request (o : Nat) : PaRequest (paRelease o) := by
  refine PaRequest.paEvent fun s t h => ?_
  unfold releaseOut
  rw [h.out]
  split
  · exact ⟨h, fun pf => pf⟩
  · dsimp only; rw [h.pa]; exact ⟨h.withPa _, fun pf => pf⟩
  · rw [h.pa, h.weight]
    exact ⟨(h.withPa _).energizedNotice o, fun pf => by rw [energizedNotice_pf, energizedNotice_pf]; exact pf⟩
  · unfold State.setOut
    rw [h.pa]
    exact ⟨(h.withPa _).energizedNotice o, fun pf => by rw [energizedNotice_pf, energizedNotice_pf]; exact pf⟩
  · unfold State.setOut; rw [h.pa]; exact ⟨h.withPa _, fun pf => pf⟩

/-- Requests for a list of outputs are answered alike. -/
theorem PaRequest.forOutputs {f : Nat → State → State} (k : ∀ o, PaRequest (f o)) (l : List Nat) :
    PaRequest (forOutputs f l) := by
  induction l with
  | nil => exact fun s t h => ⟨h, fun pf => pf⟩
  | cons o rest ih =>
    intro s t h
    obtain ⟨alike, recorded⟩ := k o s t h
    obtain ⟨alike', recorded'⟩ := ih _ _ alike
    exact ⟨alike', fun pf => recorded' (recorded pf)⟩

/-- R69: a RELEASE reaches PA and CC alone. -/
theorem paRelease_grant (o : Nat) (s : State) : ReachGrant s (paRelease o s) := by
  unfold paRelease paEvent
  split
  · exact (releaseOut_reach o s).trans (chooseGrants_reach _)
  · rfl

theorem paRelease_eq (o : Nat) (s : State) :
    paRelease o s = { s with pa := (paRelease o s).pa, cc := (paRelease o s).cc } := paRelease_grant o s

@[simp] theorem paRelease_isReady (o : Nat) (s : State) : (paRelease o s).isReady = s.isReady := by
  rw [paRelease_eq]
  rfl

end Sys2Proof.Machine
end

section
/-! An application of falls alone (R18, R38, R58): counts come down, in READY each pipe whose count comes to 0 is released,
and the closing mark does nothing. O19 is the application of a pizzicato expiry. -/

namespace Sys2Proof.Machine

/-! ### One fall -/

/-- The delta is −1 on a count of DT, or one on a trigger count that is withheld (R38). -/
def Delta.falls (withhold : Bool) : Delta → Prop
  | .count _ _ _ up => up = false
  | .effect _ _ => withhold = true
  | .group _ _ => False

/-- R44, R45, R48: what a fall does to DT. -/
def Delta.fallDt (d : Delta) (dt : Dt) : Dt :=
  match d with
  | .count .pipe _ o _ => { dt with pipe := dt.pipe.set o (dt.pipe.get o - 1) }
  | .count .single _ o _ => { dt with single := dt.single.set o (dt.single.get o - 1) }
  | .count .reiterate w o _ =>
    { dt with
      reiterate := dt.reiterate.set o (dt.reiterate.get o - 1)
      sets := dt.sets.set w (if dt.reiterate.get o = 1 then (dt.sets.get w).filter (· != o) else dt.sets.get w) }
  | .effect _ _ | .group _ _ => dt

/-- R45: the pipe that a fall releases in READY. -/
def Delta.releases (dt : Dt) : Delta → Option Nat
  | .count .pipe _ o _ => if dt.pipe.get o = 1 then some o else none
  | .count .single _ _ _ | .count .reiterate _ _ _ | .effect _ _ | .group _ _ => none

/-- A fall: DT's counts move, and the pipe whose count comes to 0 is released; outside READY PA ignores it. -/
def fall (s : State) (d : Delta) : State :=
  forOutputs paRelease (d.releases s.dt).toList { s with dt := d.fallDt s.dt }

/-- R43: outside READY PA ignores a release. -/
theorem paRelease_notReady {o : Nat} {s : State} (h : s.isReady = false) : paRelease o s = s := paEvent_notReady h

theorem takeDelta_fall {withhold : Bool} {d : Delta} (h : d.falls withhold) (s : State) (log : AppLog) :
    takeDelta s.isReady withhold (s, log) d = (fall s d, log) := by
  match d with
  | .count .pipe w o up =>
    obtain rfl : up = false := h
    simp only [takeDelta, fall, Delta.releases, Delta.fallDt, moved, Bool.false_eq_true, and_false, false_and, if_false,
      true_and]
    by_cases one : s.dt.pipe.get o = 1
    · cases ready : s.isReady with
      | true => simp [one, forOutputs]
      | false =>
        simp only [one, if_true, Bool.false_eq_true, false_and, if_false, forOutputs, Option.toList, List.foldl_cons,
          List.foldl_nil]
        rw [paRelease_notReady (by exact ready)]
    · simp [one, forOutputs]
  | .count .single w o up =>
    obtain rfl : up = false := h
    rfl
  | .count .reiterate w o up =>
    obtain rfl : up = false := h
    simp [takeDelta, fall, Delta.releases, Delta.fallDt, moved, forOutputs]
  | .effect e up =>
    obtain rfl : withhold = true := h
    rfl
  | .group g up => exact h.elim

/-- Requests for RELEASE reach PA and CC alone. -/
theorem forOutputs_paRelease_reach (l : List Nat) (s : State) : ReachGrant s (forOutputs paRelease l s) :=
  foldl_reach ReachGrant (fun _ => rfl) (fun _ _ _ => ReachGrant.trans) _ (fun s o => paRelease_grant o s) l s

theorem fall_dt (s : State) (d : Delta) : (fall s d).dt = d.fallDt s.dt := by
  have reach := forOutputs_paRelease_reach (d.releases s.dt).toList { s with dt := d.fallDt s.dt }
  unfold ReachGrant at reach
  unfold fall
  rw [reach]

/-- A fall reaches DT's counts, PA and CC alone. -/
theorem fall_eq (s : State) (d : Delta) :
    fall s d = { s with dt := d.fallDt s.dt, pa := (fall s d).pa, cc := (fall s d).cc } :=
  forOutputs_paRelease_reach (d.releases s.dt).toList { s with dt := d.fallDt s.dt }

@[simp] theorem fall_isReady (s : State) (d : Delta) : (fall s d).isReady = s.isReady := by
  rw [fall_eq]
  rfl

/-! ### Falls in a row -/

/-- What falls reach: DT's counts and sets, PA and CC. -/
def ReachFall (s t : State) : Prop :=
  t = { s with dt := { t.dt with tuning := s.dt.tuning, clocks := s.dt.clocks }, pa := t.pa, cc := t.cc }

theorem ReachFall.trans {a b c : State} (h : ReachFall a b) (k : ReachFall b c) : ReachFall a c := by
  unfold ReachFall at *
  rw [k, h]

theorem fall_reach (s : State) (d : Delta) : ReachFall s (fall s d) := by
  have stands : d.fallDt s.dt = { d.fallDt s.dt with tuning := s.dt.tuning, clocks := s.dt.clocks } := by
    match d with
    | .count .pipe _ _ _ | .count .single _ _ _ | .count .reiterate _ _ _ | .effect _ _ | .group _ _ => rfl
  unfold ReachFall
  rw [fall_dt, ← stands]
  exact fall_eq s d

theorem falls_reach (l : List Delta) (s : State) : ReachFall s (l.foldl fall s) :=
  foldl_reach ReachFall (fun _ => rfl) (fun _ _ _ => ReachFall.trans) fall fall_reach l s

/-- An application of falls is the falls, one after the other: no bar is struck and no effect moves. -/
theorem application_falls {withhold : Bool} {l : List Delta} (h : ∀ d ∈ l, d.falls withhold) (s : State) :
    application withhold l s = l.foldl fall s := by
  have along : ∀ (l : List Delta) (s : State) (log : AppLog), (∀ d ∈ l, d.falls withhold) →
      l.foldl (takeDelta s.isReady withhold) (s, log) = (l.foldl fall s, log) := by
    intro l
    induction l with
    | nil => exact fun _ _ _ => rfl
    | cons d rest ih =>
      intro s log h
      rw [List.foldl_cons, takeDelta_fall (h d List.mem_cons_self), ← fall_isReady s d,
        ih _ _ fun x m => h x (List.mem_cons_of_mem _ m)]
      rfl
  unfold application
  dsimp only
  rw [along l s _ h]
  unfold closeApplication
  simp [actOnEffects, forOutputs]

/-! ### The counts after falls -/

/-- The delta moves the count of this kind of output `o`. -/
def Delta.hits (kind : CountKind) (o : Nat) : Delta → Bool
  | .count kind' _ o' _ => kind' == kind && o' == o
  | .effect _ _ | .group _ _ => false

/-- The count of a kind. -/
def Dt.count (dt : Dt) (kind : CountKind) (o : Nat) : Nat :=
  match kind with
  | .pipe => dt.pipe.get o
  | .single => dt.single.get o
  | .reiterate => dt.reiterate.get o

theorem fallDt_count (d : Delta) (dt : Dt) (kind : CountKind) (o : Nat) :
    (d.fallDt dt).count kind o = dt.count kind o - if d.hits kind o then 1 else 0 := by
  match d with
  | .count moved w o' up =>
    cases moved <;> cases kind <;> simp [Delta.fallDt, Dt.count, Delta.hits, Table.get_set] <;>
      by_cases same : o = o' <;> simp [same, eq_comm (a := o')]
  | .effect _ _ | .group _ _ => cases kind <;> simp [Delta.fallDt, Delta.hits]

/-- R44: each fall that names a count takes 1 from it. -/
theorem falls_count (l : List Delta) (s : State) (kind : CountKind) (o : Nat) :
    (l.foldl fall s).dt.count kind o = s.dt.count kind o - l.countP (·.hits kind o) := by
  induction l generalizing s with
  | nil => simp
  | cons d rest ih =>
    rw [List.foldl_cons, ih, fall_dt, fallDt_count, List.countP_cons]
    omega

/-! ### PA after falls -/

/-- R43: outside READY falls leave PA and CC alone. -/
theorem falls_notReady (l : List Delta) (s : State) (ready : s.isReady = false) : s.PaAlike (l.foldl fall s) := by
  induction l generalizing s with
  | nil => exact .refl s
  | cons d rest ih =>
    have still : s.PaAlike (fall s d) := by
      unfold fall
      cases d.releases s.dt with
      | none => exact ⟨rfl, rfl, rfl, rfl, rfl⟩
      | some o =>
        show s.PaAlike (paRelease o { s with dt := d.fallDt s.dt })
        rw [paRelease_notReady (by exact ready)]
        exact ⟨rfl, rfl, rfl, rfl, rfl⟩
    exact still.trans (ih _ (still.ready.trans ready))

/-- R45: in READY falls ask PA for a RELEASE of each pipe whose count they bring to 0, and for nothing else. -/
theorem falls_requests_ready (l : List Delta) (s : State) (ready : s.isReady = true) :
    ∃ outs : List Nat, outs.Nodup ∧ (∀ o, o ∈ outs ↔ 0 < s.dt.pipe.get o ∧ (l.foldl fall s).dt.pipe.get o = 0) ∧
      (forOutputs paRelease outs s).PaAlike (l.foldl fall s) := by
  induction l generalizing s with
  | nil => exact ⟨[], List.nodup_nil, fun o => by simp; omega, .refl s⟩
  | cons d rest ih =>
    obtain ⟨outs, once, named, alike⟩ := ih (fall s d) (by rw [fall_isReady]; exact ready)
    have before : ∀ o, (fall s d).dt.pipe.get o = s.dt.pipe.get o - if d.hits .pipe o then 1 else 0 := fun o => by
      rw [fall_dt]
      exact fallDt_count d s.dt .pipe o
    have counted : (forOutputs paRelease (d.releases s.dt).toList s).PaAlike (fall s d) :=
      (PaRequest.forOutputs paRelease_request _ s { s with dt := d.fallDt s.dt } ⟨rfl, rfl, rfl, rfl, rfl⟩).1
    have onward := (PaRequest.forOutputs paRelease_request outs _ _ counted).1.trans alike
    have released : ∀ o, d.releases s.dt = some o → s.dt.pipe.get o = 1 ∧ (fall s d).dt.pipe.get o = 0 := by
      intro o e
      match d with
      | .count .pipe w o' up =>
        simp only [Delta.releases, Option.ite_none_right_eq_some, Option.some.injEq] at e
        obtain ⟨one, rfl⟩ := e
        rw [before, one]
        simp [Delta.hits]
    have kept : ∀ o, d.releases s.dt ≠ some o → (0 < (fall s d).dt.pipe.get o ↔ 0 < s.dt.pipe.get o) := by
      intro o ne
      rw [before]
      split
      · next hit =>
        match d with
        | .count .pipe w o' up =>
          obtain rfl : o' = o := by simpa [Delta.hits] using hit
          have many : s.dt.pipe.get o' ≠ 1 := fun one => ne (by simp [Delta.releases, one])
          omega
      · simp
    refine ⟨(d.releases s.dt).toList ++ outs, ?once, fun o => ?named, ?alike⟩
    case once =>
      refine List.nodup_append.2 ⟨by cases d.releases s.dt <;> simp, once, fun o m o' m' e => ?_⟩
      subst e
      have zero := (released o (Option.mem_toList.1 m)).2
      have some := ((named o).1 m').1
      omega
    case named =>
      rw [List.mem_append, named, Option.mem_toList, List.foldl_cons]
      by_cases e : d.releases s.dt = some o
      · obtain ⟨one, zero⟩ := released o e
        have final : (rest.foldl fall (fall s d)).dt.pipe.get o = 0 := by
          have count := falls_count rest (fall s d) .pipe o
          simp only [Dt.count] at count
          omega
        simp [e, one, final]
      · simp [e, kept o e]
    case alike =>
      unfold forOutputs at onward ⊢
      rw [List.foldl_append]
      exact onward

/-- R43, R45: what falls ask of PA, in READY and outside it. -/
theorem falls_requests (l : List Delta) (s : State) :
    ∃ outs : List Nat, outs.Nodup ∧
      (∀ o, o ∈ outs ↔ s.ch.state = .ready ∧ 0 < s.dt.pipe.get o ∧ (l.foldl fall s).dt.pipe.get o = 0) ∧
      (forOutputs paRelease outs s).PaAlike (l.foldl fall s) := by
  by_cases ready : s.ch.state = .ready
  · obtain ⟨outs, once, named, alike⟩ := falls_requests_ready l s (by simp [State.isReady, ready])
    exact ⟨outs, once, fun o => by rw [named]; simp [ready], alike⟩
  · exact ⟨[], List.nodup_nil, fun o => by simp [ready], falls_notReady l s (by simp [State.isReady, ready])⟩

end Sys2Proof.Machine
end

section
/-! O19: the pizzicato expiry of a key (R33) is an application of falls. -/

namespace Sys2Proof.Machine

/-- The key's delta of an entry is on a count, an effect or nothing, in the direction asked for. -/
theorem StopEntry.keyDelta_falls (p : Profile) (e : StopEntry) (k : Nat) : ∀ d ∈ e.keyDelta p k false, d.falls true := by
  intro d m
  unfold StopEntry.keyDelta at m
  split at m
  · split at m
    · cases m
    · split at m
      · cases m
      · rw [List.mem_singleton.1 m]; rfl
  · rw [List.mem_singleton.1 m]; rfl
  · cases m

/-- What a PIZZ entry delivers for a key: the fall of the count of the output that the pair resolves to. -/
theorem StopEntry.keyDelta_pizz (p : Profile) {e : StopEntry} (h : e.isPizz = true) (k : Nat) :
    ∃ wn offset mode top bottom, e.kind = .voice wn offset mode top bottom .pizz ∧
      e.keyDelta p k false =
        ((p.windows[wn]?).bind fun w => (resolve (p.baseNote e.division) k offset w top bottom).map fun o =>
          Delta.count (countKind w.kind mode) wn o false).toList := by
  unfold StopEntry.isPizz at h
  split at h
  · next wn offset mode top bottom kind =>
    refine ⟨wn, offset, mode, top, bottom, kind, ?_⟩
    unfold StopEntry.keyDelta
    rw [kind]
    dsimp only
    cases p.windows[wn]? with
    | none => rfl
    | some w =>
      dsimp only [Option.bind_some]
      cases resolve (p.baseNote e.division) k offset w top bottom <;> rfl
  · cases h

/-- R18: the deltas of a pizzicato expiry are falls of counts. -/
theorem pizzDeltas_falls (p : Profile) (on : Table Bool) (d k : Nat) : ∀ x ∈ pizzDeltas p on d k, x.falls false := by
  intro x m
  obtain ⟨l, ml, mx⟩ := List.mem_flatten.1 m
  obtain ⟨e, -, rfl⟩ := List.mem_map.1 ml
  split at mx
  · next picked =>
    obtain ⟨wn, offset, mode, top, bottom, -, deltas⟩ := StopEntry.keyDelta_pizz p picked.2.2 k
    rw [deltas, Option.mem_toList, Option.bind_eq_some_iff] at mx
    obtain ⟨w, -, found⟩ := mx
    obtain ⟨o, -, rfl⟩ := Option.map_eq_some_iff.1 found
    rfl
  · cases mx

/-- R33: the entry is ON, of the division and of condition PIZZ, and its pair with the key resolves to the output. -/
def State.pizzHit (s : State) (kind : CountKind) (d k o : Nat) (e : StopEntry) : Bool :=
  decide (e.division = d) && s.km.stopOn.get e.stop &&
    match e.kind with
    | .voice wn offset mode top bottom .pizz =>
      (s.prof.windows[wn]?).any fun w =>
        countKind w.kind mode == kind && resolve (s.prof.baseNote d) k offset w top bottom == some o
    | _ => false

theorem State.pizzFall_eq (s : State) (kind : CountKind) (d k o : Nat) :
    s.pizzFall kind d k o = s.prof.entries.countP (s.pizzHit kind d k o) :=
  (List.countP_eq_length_filter (l := s.prof.entries) (p := s.pizzHit kind d k o)).symm

theorem State.pizzHit_voice {s : State} {kind : CountKind} {d k o : Nat} {e : StopEntry} {wn : Nat} {offset : Int}
    {mode : StrikeMode} {top bottom : Policy} (named : e.kind = .voice wn offset mode top bottom .pizz) :
    s.pizzHit kind d k o e = (decide (e.division = d) && s.km.stopOn.get e.stop &&
      (s.prof.windows[wn]?).any fun w =>
        countKind w.kind mode == kind && resolve (s.prof.baseNote d) k offset w top bottom == some o) := by
  unfold State.pizzHit
  rw [named]

theorem State.pizzHit_isPizz {s : State} {kind : CountKind} {d k o : Nat} {e : StopEntry}
    (h : s.pizzHit kind d k o e = true) : (e.division = d ∧ s.km.stopOn.get e.stop = true) ∧ e.isPizz = true := by
  unfold State.pizzHit at h
  rw [Bool.and_eq_true, Bool.and_eq_true, decide_eq_true_eq] at h
  refine ⟨h.1, ?_⟩
  have hit := h.2
  cases named : e.kind with
  | voice wn offset mode top bottom c =>
    rw [named] at hit
    cases c with
    | pizz => simp only [StopEntry.isPizz, named]
    | first => cases hit
    | second => cases hit
  | trem g => rw [named] at hit; cases hit
  | trap x c => rw [named] at hit; cases hit

/-- R18, R33: an entry's delta names an output's count exactly when the entry falls on it. -/
theorem pizzDelta_hits (s : State) (kind : CountKind) (d k o : Nat) (e : StopEntry) :
    (if e.division = d ∧ s.km.stopOn.get e.stop = true ∧ e.isPizz = true then e.keyDelta s.prof k false
      else []).countP (·.hits kind o) = if s.pizzHit kind d k o e = true then 1 else 0 := by
  by_cases picked : e.division = d ∧ s.km.stopOn.get e.stop = true ∧ e.isPizz = true
  · rw [if_pos picked]
    obtain ⟨rfl, on, pizz⟩ := picked
    obtain ⟨wn, offset, mode, top, bottom, named, deltas⟩ := StopEntry.keyDelta_pizz s.prof pizz k
    rw [deltas, State.pizzHit_voice named, on]
    cases s.prof.windows[wn]? with
    | none => simp
    | some w =>
      cases found : resolve (s.prof.baseNote e.division) k offset w top bottom with
      | none => simp [found]
      | some o' => simp [found, Delta.hits]
  · rw [if_neg picked, if_neg fun h => picked ?_]
    · rfl
    · obtain ⟨⟨here, on⟩, pizz⟩ := State.pizzHit_isPizz h
      exact ⟨here, on, pizz⟩

/-- R18, R33: the expiry's deltas name an output's count as often as `State.pizzFall` says. -/
theorem pizzDeltas_hits (s : State) (kind : CountKind) (d k o : Nat) :
    (pizzDeltas s.prof s.km.stopOn d k).countP (·.hits kind o) = s.pizzFall kind d k o := by
  rw [State.pizzFall_eq]
  unfold pizzDeltas
  induction s.prof.entries with
  | nil => rfl
  | cons e rest ih =>
    rw [List.map_cons, List.flatten_cons, List.countP_append, ih, pizzDelta_hits, List.countP_cons, Nat.add_comm]

/-- The part's own test of an entry whose time has come. -/
theorem pizzDue_iff (s : State) (d k : Nat) :
    s.pizzDue d k = true ↔ ∃ e ∈ s.km.pizzicato, e.division = d ∧ e.key = k ∧ e.expiry ≤ s.now := by
  unfold State.pizzDue
  simp only [List.any_eq_true, Bool.and_eq_true, beq_iff_eq, decide_eq_true_eq, and_assoc]

theorem exec_pizzicatoExpiry {t : Nat} {d : Fin 8} {k : Fin 64} {s : State} (h : s.takes) :
    exec (.pizzicatoExpiry t d k) s = .next (runChamber
      (if (s.at t).pizzDue d.val k.val = true then pizzExpiry d.val k.val (s.at t) else s.at t)) := taken_eq h

/-- Settles O19: an expiry that is due is the falls of the key's PIZZ entries, and the entry goes. -/
theorem pizzicatoWindowEnds : Obligations.PizzicatoWindowEnds := by
  intro t d k s takes
  refine ⟨fun early => ?_, fun due => ?_⟩
  · rw [exec_pizzicatoExpiry takes, if_neg fun h => early ((pizzDue_iff _ _ _).1 h),
      runChamber_waits (s := s.at t) takes.2]
  · have falls := application_falls (pizzDeltas_falls (s.at t).prof (s.at t).km.stopOn d.val k.val) (s.at t)
    have reach := falls_reach (pizzDeltas (s.at t).prof (s.at t).km.stopOn d.val k.val) (s.at t)
    have counts := falls_count (pizzDeltas (s.at t).prof (s.at t).km.stopOn d.val k.val) (s.at t)
    obtain ⟨outs, once, named, alike⟩ := falls_requests
      (pizzDeltas (s.at t).prof (s.at t).km.stopOn d.val k.val) (s.at t)
    rw [← falls] at reach counts named alike
    have idle : (pizzExpiry d.val k.val (s.at t)).runner 0 = s.runner 0 := by
      unfold ReachFall at reach
      unfold pizzExpiry
      rw [reach]
      rfl
    refine ⟨pizzExpiry d.val k.val (s.at t), ?taken, fun e => ?list, fun o => ?counts, rfl,
      ⟨outs, once, named, alike.pa, alike.cc⟩, ?frame⟩
    case taken =>
      rw [exec_pizzicatoExpiry takes, if_pos ((pizzDue_iff _ _ _).2 due), runChamber_waits]
      rw [idle]
      exact takes.2
    case list =>
      rw [pizzExpiry_km]
      exact mem_withoutKey
    case counts =>
      have hits := fun kind => pizzDeltas_hits (s.at t) kind d.val k.val o
      exact ⟨(counts .pipe o).trans (congrArg _ (hits .pipe)), (counts .single o).trans (congrArg _ (hits .single)),
        (counts .reiterate o).trans (congrArg _ (hits .reiterate))⟩
    case frame =>
      unfold ReachFall at reach
      unfold pizzExpiry
      rw [reach]
      rfl

end Sys2Proof.Machine
end

section
/-! The outputs of a profile's windows (R2), listed in ascending order. -/

namespace Sys2Proof.Machine

theorem insertByFirst_perm (w : Window) (l : List Window) : (insertByFirst w l).Perm (w :: l) := by
  induction l with
  | nil => exact .refl _
  | cons v rest ih =>
    unfold insertByFirst
    split
    · exact .refl _
    · exact (ih.cons v).trans (.swap w v rest)

theorem windowsByOutput_perm (l : List Window) : (windowsByOutput l).Perm l := by
  induction l with
  | nil => exact .refl _
  | cons w rest ih => exact (insertByFirst_perm w _).trans (ih.cons w)

theorem insertByFirst_sorted (w : Window) {l : List Window} (h : l.Pairwise (fun v w => v.first ≤ w.first)) :
    (insertByFirst w l).Pairwise (fun v w => v.first ≤ w.first) := by
  induction l with
  | nil => exact List.pairwise_singleton _ _
  | cons v rest ih =>
    obtain ⟨low, sorted⟩ := List.pairwise_cons.1 h
    unfold insertByFirst
    split
    · next le =>
      refine List.pairwise_cons.2 ⟨fun x m => ?_, h⟩
      rcases List.mem_cons.1 m with rfl | m
      · exact le
      · exact le.trans (low x m)
    · next gt =>
      refine List.pairwise_cons.2 ⟨fun x m => ?_, ih sorted⟩
      rcases List.mem_cons.1 ((insertByFirst_perm w rest).mem_iff.1 m) with rfl | m
      · omega
      · exact low x m

theorem windowsByOutput_sorted (l : List Window) : (windowsByOutput l).Pairwise (fun v w => v.first ≤ w.first) := by
  induction l with
  | nil => exact List.Pairwise.nil
  | cons w rest ih => exact insertByFirst_sorted w ih

theorem Window.mem_outputs {w : Window} {o : Nat} : o ∈ w.outputs ↔ w.contains o = true := by
  simp only [Window.outputs, Window.contains, List.mem_map, List.mem_range, decide_eq_true_eq]
  constructor
  · rintro ⟨i, lt, rfl⟩
    omega
  · rintro ⟨low, high⟩
    exact ⟨o - w.first, by omega, by omega⟩

/-- The outputs listed are those of the windows kept. -/
theorem Profile.mem_outputsOf {p : Profile} {keep : Window → Bool} {o : Nat} :
    o ∈ p.outputsOf keep ↔ ∃ w ∈ p.windows, keep w = true ∧ w.contains o = true := by
  unfold Profile.outputsOf
  simp only [List.mem_flatten, List.mem_map, (windowsByOutput_perm _).mem_iff, List.mem_filter]
  constructor
  · rintro ⟨l, ⟨w, ⟨m, k⟩, rfl⟩, h⟩
    exact ⟨w, m, k, Window.mem_outputs.1 h⟩
  · rintro ⟨w, m, k, h⟩
    exact ⟨w.outputs, ⟨w, ⟨m, k⟩, rfl⟩, Window.mem_outputs.2 h⟩

/-- R2: two windows that share no output, in the order of their first outputs, stand wholly one before the other. -/
theorem Window.outputs_lt {v w : Window} (order : v.first ≤ w.first) (size : 1 ≤ w.size)
    (apart : ∀ o, v.contains o = true → w.contains o = false) : ∀ x ∈ v.outputs, ∀ y ∈ w.outputs, x < y := by
  intro x mx y my
  have hx := Window.mem_outputs.1 mx
  have hy := Window.mem_outputs.1 my
  have first := apart w.first
  simp only [Window.contains, decide_eq_true_eq, decide_eq_false_iff_not] at hx hy first
  omega

/-- R2: the outputs are listed in ascending order. -/
theorem Profile.InRange.outputsOf_ascending {p : Profile} (h : p.InRange) (keep : Window → Bool) :
    (p.outputsOf keep).Pairwise (· < ·) := by
  unfold Profile.outputsOf
  have sym : ∀ {v w : Window}, (∀ o, v.contains o = true → w.contains o = false) →
      ∀ o, w.contains o = true → v.contains o = false := by
    intro v w apart o hw
    cases hv : v.contains o with
    | false => rfl
    | true => rw [apart o hv] at hw; cases hw
  have apart := ((windowsByOutput_perm (p.windows.filter keep)).pairwise_iff sym).2 (h.disjoint.filter keep)
  have sorted := windowsByOutput_sorted (p.windows.filter keep)
  have sized : ∀ w ∈ windowsByOutput (p.windows.filter keep), 1 ≤ w.size := fun w m =>
    (h.windowRanges w (List.mem_filter.1 ((windowsByOutput_perm _).mem_iff.1 m)).1).1
  refine List.pairwise_flatten.2 ⟨fun l ml => ?_, ?_⟩
  · obtain ⟨w, -, rfl⟩ := List.mem_map.1 ml
    unfold Window.outputs
    exact List.pairwise_map.2 (List.pairwise_lt_range.imp fun h => by omega)
  · refine List.pairwise_map.2 ((sorted.and apart).imp_of_mem fun _ mw h => ?_)
    exact Window.outputs_lt h.1 (sized _ mw) h.2

/-- R2: the same of the profile that a state holds, if it holds one. -/
theorem State.ProfileSound.outputsOf_ascending {s : State} (h : s.ProfileSound) (keep : Window → Bool) :
    (s.prof.outputsOf keep).Pairwise (· < ·) := by
  unfold State.prof
  cases p : s.profile with
  | none => exact List.Pairwise.nil
  | some q => exact (h q p).outputsOf_ascending keep

end Sys2Proof.Machine
end

section
/-! What becomes of an output while PA is asked for RELEASEs (R69, R71): only an output that waits can be granted. -/

namespace Sys2Proof.Machine

/-- The outputs that stand in PA's queues. -/
def Pa.queued (pa : Pa) : List Nat := pa.speech ++ pa.action.map (·.output)

/-- R63, R64: an output in a queue is WAITING, and none stands twice. -/
structure State.QueuesSound (s : State) : Prop where
  waiting : ∀ o ∈ s.pa.queued, s.out o = .waiting
  once : s.pa.queued.Nodup

theorem State.ArbiterSound.queues {s : State} (h : s.ArbiterSound) : s.QueuesSound :=
  ⟨fun o m => (h.waiting o).2 (List.mem_append.1 m), h.once⟩

/-- R71: the candidate stands in a queue. -/
theorem State.candidate_queued {s : State} {c : Candidate} (h : s.candidate = some c) : c.output ∈ s.pa.queued := by
  unfold State.candidate at h
  unfold Pa.queued
  split at h
  · cases h
  · next a => cases h; rw [a]; exact List.mem_append_left _ List.mem_cons_self
  · next a _ => cases h; rw [a]; exact List.mem_append_right _ List.mem_cons_self
  · next a b =>
    split at h
    · cases h; rw [a]; exact List.mem_append_right _ List.mem_cons_self
    · cases h; rw [b]; exact List.mem_append_left _ List.mem_cons_self

theorem Pa.queued_split {pa : Pa} {e : ActionEntry} {rest : List ActionEntry} (h : pa.action = e :: rest) :
    pa.queued.Perm (e.output :: (pa.speech ++ rest.map (·.output))) := by
  unfold Pa.queued
  rw [h]
  exact List.perm_middle

/-- R72: a grant takes the candidate's output off the queues, and no other. -/
theorem grant_queued {s : State} {c : Candidate} (h : s.candidate = some c) :
    s.pa.queued.Perm (c.output :: (grant c s).pa.queued) := by
  rw [grant_pa]
  unfold State.candidate at h
  split at h
  · cases h
  · next a b =>
    cases h
    simp only [Pa.queued, grantPa, a, b, Candidate.output]
    exact .refl _
  · next a b =>
    cases h
    refine (Pa.queued_split a).trans ?_
    simp only [Pa.queued, grantPa, a, Candidate.output]
    exact .refl _
  · next a b =>
    split at h
    · cases h
      refine (Pa.queued_split a).trans ?_
      simp only [Pa.queued, grantPa, a, Candidate.output]
      exact .refl _
    · cases h
      simp only [Pa.queued, grantPa, a, b, Candidate.output]
      exact .refl _

theorem grant_out {s : State} {c : Candidate} {o : Nat} (h : o ≠ c.output) : (grant c s).out o = s.out o := by
  unfold State.out
  rw [grant_pa]
  cases c <;> exact Table.get_set_ne _ h _

theorem State.QueuesSound.grant {s : State} (h : s.QueuesSound) {c : Candidate} (k : s.candidate = some c) :
    (grant c s).QueuesSound := by
  have perm := grant_queued k
  obtain ⟨gone, once⟩ := List.nodup_cons.1 (perm.nodup_iff.1 h.once)
  refine ⟨fun o m => ?_, once⟩
  rw [grant_out fun e => gone (e ▸ m)]
  exact h.waiting o (perm.mem_iff.2 (List.mem_cons_of_mem _ m))

/-- R71: the choice leaves every output that does not wait. -/
theorem State.QueuesSound.chooseUpTo (n : Nat) : ∀ {s : State}, s.QueuesSound →
    (chooseUpTo n s).QueuesSound ∧ ∀ o, s.out o ≠ .waiting → (Machine.chooseUpTo n s).out o = s.out o := by
  induction n with
  | zero => exact fun h => ⟨h, fun _ _ => rfl⟩
  | succ n ih =>
    intro s h
    unfold Machine.chooseUpTo
    split
    · exact ⟨h, fun _ _ => rfl⟩
    · next c k =>
      split
      · obtain ⟨sound, still⟩ := ih (h.grant k)
        refine ⟨sound, fun o idle => ?_⟩
        have other : o ≠ c.output := fun e => idle (e ▸ h.waiting _ (State.candidate_queued k))
        rw [still o (by rw [grant_out other]; exact idle), grant_out other]
      · exact ⟨h, fun _ _ => rfl⟩

/-- R69: the state in which RELEASE leaves its own output. -/
def OutState.released : OutState → OutState
  | .striking ends _ => .striking ends false
  | .off | .waiting | .pulling _ | .holding => .off

theorem releaseOut_pa_outs (o : Nat) (s : State) (o' : Nat) :
    (releaseOut o s).out o' = if o' = o then (s.out o).released else s.out o' := by
  have notice : ∀ (v : State), (energizedNotice o v).out o' = v.out o' := fun v => by
    have reach := energizedNotice_reach o v
    unfold ReachCc at reach
    rw [reach]
    rfl
  unfold releaseOut
  split
  · next e => split <;> simp_all [OutState.released]
  · next e => simp only [State.out, Table.get_set] at e ⊢; rw [e]; rfl
  · next e => rw [notice]; simp only [State.out, Table.get_set] at e ⊢; rw [e]; rfl
  · next e => rw [notice, State.out_setOut, e]; rfl
  · next e => rw [State.out_setOut, e]; rfl

/-- R69: RELEASE takes its own output off the queues where it waits, and leaves them otherwise. -/
theorem releaseOut_queued (o : Nat) (s : State) :
    (releaseOut o s).pa.queued = if s.out o = .waiting then s.pa.queued.filter (· != o) else s.pa.queued := by
  have notice : ∀ (v : State), (energizedNotice o v).pa = v.pa := fun v => by
    have reach := energizedNotice_reach o v
    unfold ReachCc at reach
    rw [reach]
  unfold releaseOut
  split
  · next e => rw [e]; rfl
  · next e =>
    rw [e, if_pos rfl]
    simp only [Pa.queued, List.filter_append, List.filter_map]
    rfl
  · next e => rw [notice, e]; rfl
  · next e => rw [notice, e]; rfl
  · next e => rw [e]; rfl

theorem State.QueuesSound.releaseOut {s : State} (h : s.QueuesSound) (o : Nat) : (releaseOut o s).QueuesSound := by
  constructor
  · intro o' m
    rw [releaseOut_queued] at m
    rw [releaseOut_pa_outs]
    split at m
    · obtain ⟨m, other⟩ := List.mem_filter.1 m
      rw [if_neg (by simpa using other)]
      exact h.waiting o' m
    · next idle =>
      rw [if_neg fun e : o' = o => idle (e ▸ h.waiting o' m)]
      exact h.waiting o' m
  · rw [releaseOut_queued]
    split
    · exact h.once.filter _
    · exact h.once

theorem State.QueuesSound.paRelease {s : State} (h : s.QueuesSound) (o : Nat) : (paRelease o s).QueuesSound := by
  unfold Machine.paRelease paEvent
  split
  · exact ((h.releaseOut o).chooseUpTo _).1
  · exact h

/-- R69: in READY a release leaves its own output OFF, or with a strike that runs out. -/
theorem State.QueuesSound.paRelease_own {s : State} (h : s.QueuesSound) (ready : s.isReady = true) (o : Nat) :
    (Machine.paRelease o s).out o = (s.out o).released := by
  have own : (Machine.releaseOut o s).out o = (s.out o).released := by rw [releaseOut_pa_outs, if_pos rfl]
  unfold Machine.paRelease paEvent
  rw [if_pos ready]
  refine (((h.releaseOut o).chooseUpTo _).2 o ?_).trans own
  rw [own]
  cases s.out o <;> simp [OutState.released]

/-- R69, R71: a release leaves every other output that does not wait. -/
theorem State.QueuesSound.paRelease_other {s : State} (h : s.QueuesSound) {o o' : Nat} (other : o' ≠ o)
    (idle : s.out o' ≠ .waiting) : (Machine.paRelease o s).out o' = s.out o' := by
  have still : (Machine.releaseOut o s).out o' = s.out o' := by rw [releaseOut_pa_outs, if_neg other]
  unfold Machine.paRelease paEvent
  split
  · exact (((h.releaseOut o).chooseUpTo _).2 o' (by rw [still]; exact idle)).trans still
  · rfl

/-- R88: the output is OFF, or its strike runs out and ends OFF. -/
def OutState.quiet (v : OutState) : Prop := v = .off ∨ ∃ m, v = .striking m false

theorem OutState.released_quiet (v : OutState) : v.released.quiet := by
  cases v with
  | striking m stay => exact .inr ⟨m, rfl⟩
  | off | waiting | pulling _ | holding => exact .inl rfl

/-- A quiet output stays as it is when it is released. -/
theorem OutState.quiet.released_eq {v : OutState} (h : v.quiet) : v.released = v := by
  rcases h with rfl | ⟨m, rfl⟩ <;> rfl

theorem OutState.quiet.not_waiting {v : OutState} (h : v.quiet) : v ≠ .waiting := by
  rcases h with rfl | ⟨m, rfl⟩ <;> simp

/-- What is quiet stays quiet while PA is asked for RELEASEs. -/
theorem State.QueuesSound.quiet_stands (l : List Nat) : ∀ {s : State}, s.QueuesSound → s.isReady = true → ∀ o,
    (s.out o).quiet → (forOutputs Machine.paRelease l s).out o = s.out o := by
  induction l with
  | nil => exact fun _ _ _ _ => rfl
  | cons o' rest ih =>
    intro s h ready o quiet
    have one : (Machine.paRelease o' s).out o = s.out o := by
      by_cases e : o = o'
      · subst e
        rw [h.paRelease_own ready, quiet.released_eq]
      · exact h.paRelease_other e quiet.not_waiting
    exact (ih (h.paRelease o') (by rw [paRelease_isReady]; exact ready) o (by rw [one]; exact quiet)).trans one

/-- R69, R88: in READY, after a RELEASE of every output of a list, each of them is quiet, and OFF if it was energized but
for a strike. -/
theorem State.QueuesSound.releases (l : List Nat) : ∀ {s : State}, s.QueuesSound → s.isReady = true → ∀ o ∈ l,
    ((forOutputs Machine.paRelease l s).out o).quiet ∧
      ((s.out o = .holding ∨ ∃ m, s.out o = .pulling m) → (forOutputs Machine.paRelease l s).out o = .off) := by
  induction l with
  | nil => exact fun _ _ o m => by cases m
  | cons o' rest ih =>
    intro s h ready o m
    have ready' : (Machine.paRelease o' s).isReady = true := by rw [paRelease_isReady]; exact ready
    show ((forOutputs Machine.paRelease rest (Machine.paRelease o' s)).out o).quiet ∧
      ((s.out o = .holding ∨ ∃ m, s.out o = .pulling m) →
        (forOutputs Machine.paRelease rest (Machine.paRelease o' s)).out o = .off)
    by_cases e : o = o'
    · subst e
      have own := h.paRelease_own ready o
      rw [(h.paRelease o).quiet_stands rest ready' o (by rw [own]; exact OutState.released_quiet _), own]
      refine ⟨OutState.released_quiet _, ?_⟩
      rintro (e | ⟨m, e⟩) <;> rw [e] <;> rfl
    · obtain ⟨quiet, off⟩ := ih (h.paRelease o') ready' o ((List.mem_cons.1 m).resolve_left e)
      refine ⟨quiet, fun on => off ?_⟩
      have idle : s.out o ≠ .waiting := by rcases on with e | ⟨m, e⟩ <;> rw [e] <;> simp
      rw [h.paRelease_other e idle]
      exact on

end Sys2Proof.Machine
end

section
/-! A merged change, piece by piece (R27): room in the pizzicato list, one application, stud deltas, the rest timer, and
the offer of PLAY. -/

namespace Sys2Proof.Machine

/-! ### Falls do not read KM -/

theorem paRelease_withKm (o : Nat) (s : State) (km : Km) : paRelease o { s with km := km } = { paRelease o s with km := km } := by
  obtain ⟨alike, -⟩ := paRelease_request o s { s with km := km } ⟨rfl, rfl, rfl, rfl, rfl⟩
  rw [paRelease_eq o { s with km := km }, alike.pa, alike.cc, paRelease_eq o s]

theorem fall_withKm (s : State) (km : Km) (d : Delta) : fall { s with km := km } d = { fall s d with km := km } := by
  unfold fall
  dsimp only
  cases d.releases s.dt with
  | none => rfl
  | some o => exact paRelease_withKm o { s with dt := d.fallDt s.dt } km

theorem falls_withKm (l : List Delta) (km : Km) : ∀ s : State,
    l.foldl fall { s with km := km } = { l.foldl fall s with km := km } := by
  induction l with
  | nil => exact fun _ => rfl
  | cons d rest ih =>
    intro s
    rw [List.foldl_cons, fall_withKm, ih]
    rfl

/-- R18: a pizzicato expiry's application does not read KM. -/
theorem pizzApplication_withKm (p : Profile) (on : Table Bool) (d k : Nat) (km : Km) (s : State) :
    application false (pizzDeltas p on d k) { s with km := km } =
      { application false (pizzDeltas p on d k) s with km := km } := by
  rw [application_falls (pizzDeltas_falls p on d k), application_falls (pizzDeltas_falls p on d k), falls_withKm]

/-- R38: the deltas of a key's fall to UP are falls, the TRAP deltas being withheld. -/
theorem mergedDeltas_falls (p : Profile) (on : Table Bool) (d k : Nat) (old : Touch) (before after : Bool) :
    ∀ x ∈ mergedDeltas p on d k old .up before after, x.falls true := by
  intro x m
  obtain ⟨l, ml, mx⟩ := List.mem_flatten.1 m
  obtain ⟨e, -, rfl⟩ := List.mem_map.1 ml
  have ends : e.holds .up after = false := by
    unfold StopEntry.holds TouchCondition.holds
    cases e.kind with
    | voice _ _ _ _ _ c => cases c <;> rfl
    | trem _ => rfl
    | trap _ c => cases c <;> rfl
  rw [ends] at mx
  split at mx
  · cases held : e.holds old before with
    | true => rw [held] at mx; exact e.keyDelta_falls p k x mx
    | false => rw [held] at mx; cases mx
  · cases mx

/-! ### The pieces of a merged change -/

/-- The list holds an entry of the key. -/
def listed (d k : Nat) (l : List PizzEntry) : Bool := l.any (fun e => e.division == d && e.key == k)

theorem State.hasPizz_eq (s : State) (d k : Nat) : s.hasPizz d k = listed d k s.km.pizzicato := rfl

theorem listed_iff {d k : Nat} {l : List PizzEntry} : listed d k l = true ↔ ∃ e ∈ l, e.division = d ∧ e.key = k := by
  simp [listed]

/-- R32: the falls of an eviction, where the list has no room. -/
def State.evicted (s : State) : State :=
  if 64 ≤ s.km.pizzicato.length then
    match earliestPizz s.km.pizzicato with
    | some e => application false (pizzDeltas s.prof s.km.stopOn e.division e.key) s
    | none => s
  else s

/-- R32: what a rise to SECOND does before it creates its entry. -/
def State.roomed (s : State) (new : Touch) : State := if new = .second then s.evicted else s

theorem makeRoom_eq (s : State) (m : Table Touch) :
    makeRoom { s with km := { s.km with merged := m } } =
      { s.evicted with km := { s.km with merged := m, pizzicato := roomIn s.km.pizzicato } } := by
  unfold makeRoom State.evicted roomIn
  dsimp only
  by_cases full : 64 ≤ s.km.pizzicato.length
  · rw [if_pos full, if_pos full, if_pos full]
    cases earliestPizz s.km.pizzicato with
    | none => rfl
    | some e =>
      dsimp only
      unfold pizzExpiry removePizz
      dsimp only
      rw [show State.prof { s with km := { s.km with merged := m } } = s.prof from rfl, pizzApplication_withKm]
      rfl
  · rw [if_neg full, if_neg full, if_neg full]

/-- KM after a merged change. -/
def State.kmAfter (s : State) (d k : Nat) (old new : Touch) : Km :=
  { s.km with merged := s.km.merged.set (cell d k) new, pizzicato := s.listAfter d k old new }

/-- R27: the state in which RE takes a merged change. -/
theorem prepared_eq (d k : Nat) (old new : Touch) (s : State) :
    (let a : State := { s with km := { s.km with merged := s.km.merged.set (cell d k) new } }
     let b := if new = .second then createPizz d k a else a
     if old = .second then removePizz d k b else b) = { s.roomed new with km := s.kmAfter d k old new } := by
  have evicted : s.evicted.now = s.now ∧ s.evicted.prof = s.prof := by
    unfold State.evicted
    split
    · split
      · exact ⟨application_now _ _ _, application_prof _ _ _⟩
      · exact ⟨rfl, rfl⟩
    · exact ⟨rfl, rfl⟩
  dsimp only
  unfold State.roomed State.kmAfter State.listAfter
  have created : createPizz d k { s with km := { s.km with merged := s.km.merged.set (cell d k) new } } =
      { s.evicted with km := { s.km with
          merged := s.km.merged.set (cell d k) new, pizzicato := roomIn s.km.pizzicato ++ [s.pizzEntry s.now d k] } } := by
    unfold createPizz
    rw [makeRoom_eq]
    simp only [State.prof] at evicted
    simp [State.pizzEntry, State.prof, evicted, ms]
  by_cases n : new = .second
  · rw [if_pos n, if_pos n, created]
    by_cases o : old = .second <;> simp [o, n, removePizz, withoutKey]
  · rw [if_neg n, if_neg n]
    by_cases o : old = .second <;> simp [o, n, removePizz, withoutKey]

/-- R27: a merged change is taken by RE as one application. -/
def State.merging (s : State) (allOff : Bool) (d k : Nat) (old new : Touch) : State :=
  application allOff
    (mergedDeltas s.prof s.km.stopOn d k old new (s.hasPizz d k) (listed d k (s.listAfter d k old new)))
    { s.roomed new with km := s.kmAfter d k old new }

/-- R28: and then, on division 7, by EE as stud deltas. -/
def State.studded (s : State) (allOff : Bool) (d k : Nat) (old new : Touch) : State :=
  if d = 7 ∧ allOff = false then studDeltas k old new (s.merging allOff d k old new) else s.merging allOff d k old new

theorem State.roomed_same (s : State) (new : Touch) : (s.roomed new).prof = s.prof ∧ (s.roomed new).now = s.now := by
  unfold State.roomed State.evicted
  split
  · split
    · split
      · exact ⟨application_prof _ _ _, application_now _ _ _⟩
      · exact ⟨rfl, rfl⟩
    · exact ⟨rfl, rfl⟩
  · exact ⟨rfl, rfl⟩

/-- R27, R28, R137, R144: a merged change. -/
theorem mergedChange_eq (allOff : Bool) (d k : Nat) (old new : Touch) (s : State) :
    mergedChange allOff d k old new s =
      if old.rank < new.rank then offerWake .play (restartRest (s.studded allOff d k old new))
      else restartRest (s.studded allOff d k old new) := by
  have prepared := prepared_eq d k old new s
  dsimp only at prepared
  unfold mergedChange
  dsimp only
  rw [prepared]
  have prof : State.prof { s.roomed new with km := s.kmAfter d k old new } = s.prof := (s.roomed_same new).1
  rw [prof]
  rfl

/-- A merge is a merged change where the merged touch moves. -/
theorem remerge_moved {allOff : Bool} {d k : Nat} {s : State} (h : s.mergedTouch d k ≠ s.highest d k) :
    remerge allOff d k s = mergedChange allOff d k (s.mergedTouch d k) (s.highest d k) s := if_neg h

theorem remerge_still {allOff : Bool} {d k : Nat} {s : State} (h : s.mergedTouch d k = s.highest d k) :
    remerge allOff d k s = s := if_pos h

end Sys2Proof.Machine
end

section
/-! ALL-OFF (R38, R39, R98): what EE's stop leaves, and the walk over the keys. -/

namespace Sys2Proof.Machine

/-! ### States alike to DT and PA -/

/-- Two states that DT, PA and CC cannot tell apart, but for the tuning hold. -/
structure State.DemandAlike (s t : State) : Prop where
  alike : s.PaAlike t
  dt : t.dt = { s.dt with tuning := t.dt.tuning }

theorem Delta.fallDt_tuning (d : Delta) (dt : Dt) (v : Option Hold) :
    d.fallDt { dt with tuning := v } = { d.fallDt dt with tuning := v } := by
  match d with
  | .count .pipe _ _ _ | .count .single _ _ _ | .count .reiterate _ _ _ | .effect _ _ | .group _ _ => rfl

theorem Delta.releases_tuning (d : Delta) (dt : Dt) (v : Option Hold) :
    d.releases { dt with tuning := v } = d.releases dt := by
  match d with
  | .count .pipe _ _ _ | .count .single _ _ _ | .count .reiterate _ _ _ | .effect _ _ | .group _ _ => rfl

theorem State.DemandAlike.fall {s t : State} (h : s.DemandAlike t) (d : Delta) : (fall s d).DemandAlike (fall t d) := by
  constructor
  · unfold Machine.fall
    rw [show d.releases t.dt = d.releases s.dt by rw [h.dt]; exact d.releases_tuning _ _]
    refine (PaRequest.forOutputs paRelease_request _ { s with dt := d.fallDt s.dt } { t with dt := d.fallDt t.dt } ?_).1
    exact ⟨h.alike.now, h.alike.profile, h.alike.pa, h.alike.cc, h.alike.ready⟩
  · rw [fall_dt, fall_dt, h.dt, Delta.fallDt_tuning]

theorem State.DemandAlike.falls (l : List Delta) : ∀ {s t : State}, s.DemandAlike t →
    (l.foldl Machine.fall s).DemandAlike (l.foldl Machine.fall t) := by
  induction l with
  | nil => exact fun h => h
  | cons d rest ih => exact fun h => ih (h.fall d)

/-! ### What has been asked of PA is RELEASEs alone -/

/-- PA and CC of `t` are those of `s` after RELEASEs. -/
def State.releasesTo (s t : State) : Prop := ∃ l, (forOutputs paRelease l s).PaAlike t

theorem State.PaAlike.releasesTo {s t : State} (h : s.PaAlike t) : s.releasesTo t := ⟨[], h⟩

theorem State.releasesTo.trans {a b c : State} (h : a.releasesTo b) (k : b.releasesTo c) : a.releasesTo c := by
  obtain ⟨l, hl⟩ := h
  obtain ⟨m, hm⟩ := k
  refine ⟨l ++ m, ?_⟩
  have both := (PaRequest.forOutputs paRelease_request m _ _ hl).1.trans hm
  unfold forOutputs at both ⊢
  rw [List.foldl_append]
  exact both

theorem fall_releasesTo (s : State) (d : Delta) : s.releasesTo (fall s d) :=
  ⟨(d.releases s.dt).toList,
    (PaRequest.forOutputs paRelease_request _ s { s with dt := d.fallDt s.dt } ⟨rfl, rfl, rfl, rfl, rfl⟩).1⟩

theorem falls_releasesTo (l : List Delta) (s : State) : s.releasesTo (l.foldl fall s) :=
  foldl_reach State.releasesTo (fun s => (State.PaAlike.refl s).releasesTo) (fun _ _ _ => .trans) fall fall_releasesTo l s

/-! ### EE -/

/-- What a clear of claim groups reaches: PA, CC and the contexts of runners 1 to 7. -/
def ReachClear (s t : State) : Prop :=
  t = { s with pa := t.pa, cc := t.cc, ee := { s.ee with runners := t.ee.runners } } ∧
    ∀ r, ¬ (1 ≤ r ∧ r < 8) → t.runner r = s.runner r

theorem ReachClear.refl (s : State) : ReachClear s s := ⟨rfl, fun _ _ => rfl⟩

theorem ReachClear.trans {a b c : State} (h : ReachClear a b) (k : ReachClear b c) : ReachClear a c := by
  refine ⟨?_, fun r out => (k.2 r out).trans (h.2 r out)⟩
  rw [k.1, h.1]

theorem ReachClear.prof {s t : State} (h : ReachClear s t) : t.prof = s.prof := by rw [h.1]; rfl

theorem ReachClear.trigger {s t : State} (h : ReachClear s t) (e : Nat) : t.trigger e = s.trigger e := by rw [h.1]; rfl

theorem effectRunners_bounds {r : Nat} : r ∈ effectRunners ↔ 1 ≤ r ∧ r < 8 := by
  simp only [effectRunners, List.mem_cons, List.not_mem_nil, or_false]
  omega

/-- R88: emptying held lists moves the contexts of runners 1 to 7 alone. -/
theorem emptyHelds_reach (g : Nat) (l : List Nat) (low : ∀ r ∈ l, 1 ≤ r ∧ r < 8) (s : State) :
    s.PaAlike (l.foldl (emptyHeld g) s) ∧ ReachClear s (l.foldl (emptyHeld g) s) := by
  induction l generalizing s with
  | nil => exact ⟨.refl s, .refl s⟩
  | cons r rest ih =>
    have one : s.PaAlike (emptyHeld g s r) ∧ ReachClear s (emptyHeld g s r) := by
      unfold emptyHeld
      split
      · split
        · refine ⟨⟨rfl, rfl, rfl, rfl, rfl⟩, rfl, fun r' out => ?_⟩
          rw [State.runner_setRunner, if_neg]
          rintro rfl
          exact out (low r' List.mem_cons_self)
        · exact ⟨.refl s, .refl s⟩
      · exact ⟨.refl s, .refl s⟩
    obtain ⟨alike, reach⟩ := ih (fun x m => low x (List.mem_cons_of_mem _ m)) (emptyHeld g s r)
    exact ⟨one.1.trans alike, one.2.trans reach⟩

/-- R88: the clear of a claim group asks PA for a RELEASE of each output of the group's TRAP windows. -/
theorem clearGroup_alike (g : Nat) (s : State) :
    (forOutputs paRelease (s.groupOutputs g) s).PaAlike (clearGroup g s) ∧ ReachClear s (clearGroup g s) := by
  obtain ⟨alike, reach⟩ := emptyHelds_reach g effectRunners (fun _ m => effectRunners_bounds.1 m)
    (forOutputs paRelease (s.groupOutputs g) s)
  have released := forOutputs_paRelease_reach (s.groupOutputs g) s
  have first : ReachClear s (forOutputs paRelease (s.groupOutputs g) s) := by
    unfold ReachGrant at released
    constructor
    · rw [released]
    · intro r _
      rw [released]
      rfl
  exact ⟨alike, first.trans reach⟩

theorem clearGroups_alike (l : List Nat) : ∀ {s v t : State}, v.PaAlike t → t.prof = s.prof →
    (l.foldl (fun v g => forOutputs paRelease (s.groupOutputs g) v) v).PaAlike (l.foldl (fun s g => clearGroup g s) t) ∧
      ReachClear t (l.foldl (fun s g => clearGroup g s) t) := by
  induction l with
  | nil => exact fun h _ => ⟨h, .refl _⟩
  | cons g rest ih =>
    intro s v t h same
    have outputs : t.groupOutputs g = s.groupOutputs g := by unfold State.groupOutputs; rw [same]
    obtain ⟨one, reach⟩ := clearGroup_alike g t
    rw [outputs] at one
    have onward := (PaRequest.forOutputs paRelease_request (s.groupOutputs g) v t h).1.trans one
    obtain ⟨alike, reach'⟩ := ih onward (reach.prof.trans same)
    simp only [List.foldl_cons]
    exact ⟨alike, reach.trans reach'⟩

theorem Table.get_foldl_set {α : Type} [Inhabited α] [DecidableEq α] (v : α) (l : List Nat) (j : Nat) :
    ∀ m : Table α, (l.foldl (fun m r => m.set r v) m).get j = if j ∈ l then v else m.get j := by
  induction l with
  | nil => exact fun _ => rfl
  | cons r rest ih =>
    intro m
    rw [List.foldl_cons, ih, Table.get_set]
    by_cases later : j ∈ rest <;> by_cases here : j = r <;> simp [later, here]

/-- R98: the first `n` trigger counts keep their cue parts alone. -/
theorem zeroKeyParts_get (n : Nat) (m : Table Trigger) (e : Nat) :
    ((List.range n).foldl (fun m e => m.set e { trap := 0, stud := false, cue := (m.get e).cue }) m).get e =
      if e < n then { trap := 0, stud := false, cue := (m.get e).cue } else m.get e := by
  induction n with
  | zero => simp
  | succ n ih =>
    rw [List.range_succ, List.foldl_append, List.foldl_cons, List.foldl_nil, Table.get_set]
    by_cases here : e = n
    · subst here
      rw [if_pos rfl, ih, if_neg (Nat.lt_irrefl e), if_pos (Nat.lt_succ_self e)]
    · rw [if_neg here, ih]
      exact if_congr (by omega) rfl rfl

theorem zeroKeyParts_trigger (s : State) {e : Nat} (low : e < 32) :
    (zeroKeyParts s).trigger e = { trap := 0, stud := false, cue := (s.trigger e).cue } := by
  unfold State.trigger zeroKeyParts
  generalize 32 = n at low
  exact (zeroKeyParts_get n s.ee.triggers e).trans (if_pos low)

/-- R98: what EE's stop leaves: no group in play, runners 1 to 7 idle, and of the trigger counts the cue parts. -/
structure State.stoppedTo (s t : State) : Prop where
  frame : t = { s with pa := t.pa, cc := t.cc, ee := t.ee }
  alike : ((List.range 16).foldl (fun v g => forOutputs paRelease (s.groupOutputs g) v) s).PaAlike t
  groups : ∀ g, (t.group g).holder = none ∧ (t.group g).stack = [] ∧ (t.group g).pending = none
  runners : ∀ r, t.runner r = if 1 ≤ r ∧ r < 8 then none else s.runner r
  triggers : ∀ e, e < 32 → t.trigger e = { trap := 0, stud := false, cue := (s.trigger e).cue }

/-- EE's own part of its stop. -/
theorem zeroKeyParts_stopEffects (t : State) :
    ∃ ee, zeroKeyParts (stopEffects t) = { t with ee := ee } := ⟨_, rfl⟩

theorem State.PaAlike.withEe (s : State) (ee : Ee) : s.PaAlike { s with ee := ee } := ⟨rfl, rfl, rfl, rfl, rfl⟩

theorem eeAllOff_stopped (s : State) : s.stoppedTo (eeAllOff s) := by
  obtain ⟨alike, reach⟩ := clearGroups_alike (List.range 16) (State.PaAlike.refl s) rfl
  have cleared : clearAllGroups s = (List.range 16).foldl (fun s g => clearGroup g s) s := rfl
  unfold eeAllOff
  rw [cleared]
  generalize (List.range 16).foldl (fun s g => clearGroup g s) s = t at alike reach
  have frame := reach.1
  refine ⟨?_, ?_, fun g => ⟨rfl, rfl, rfl⟩, fun r => ?_, fun e low => ?_⟩
  · obtain ⟨ee, moved⟩ := zeroKeyParts_stopEffects t
    rw [moved]
    show { t with ee := ee } = _
    rw [frame]
  · obtain ⟨ee, moved⟩ := zeroKeyParts_stopEffects t
    rw [moved]
    exact alike.trans (.withEe t ee)
  · refine (Table.get_foldl_set none effectRunners r t.ee.runners).trans ?_
    by_cases own : 1 ≤ r ∧ r < 8
    · rw [if_pos own, if_pos (effectRunners_bounds.2 own)]
    · rw [if_neg own, if_neg fun m => own (effectRunners_bounds.1 m)]
      exact reach.2 r own
  · rw [zeroKeyParts_trigger _ low]
    have cue : ((stopEffects t).trigger e).cue = (s.trigger e).cue := congrArg Trigger.cue (reach.trigger e)
    rw [cue]

/-! ### One key of the walk -/

/-- R38: every slot's touch of a key is UP. -/
def State.keyUp (s : State) (d k : Nat) : State := (List.range 4).foldl (fun s c => s.setSlotTouch c d k .up) s

theorem State.keyUp_station (s : State) (d k c : Nat) : ((s.keyUp d k).slot c).station = (s.slot c).station := by
  simp [State.keyUp, List.range_succ]

theorem State.keyUp_highest (s : State) (d k : Nat) : (s.keyUp d k).highest d k = .up := by
  refine State.highest_eq_up.2 fun c lt => ?_
  simp only [State.keyUp, List.range_succ, List.range_zero, List.nil_append, List.cons_append, List.foldl_cons,
    List.foldl_nil, State.slotTouch_setSlotTouch, and_true]
  interval_cases c <;> rfl

/-- What one key of the walk reaches; no binding moves. -/
def ReachWalk (s t : State) : Prop :=
  (t = { s with
    km := { s.km with slots := t.km.slots, merged := t.km.merged, pizzicato := t.km.pizzicato }
    dt := { t.dt with tuning := s.dt.tuning, clocks := s.dt.clocks }, pa := t.pa, cc := t.cc
    ch := { s.ch with rest := t.ch.rest } }) ∧ ∀ c, (t.slot c).station = (s.slot c).station

theorem ReachWalk.refl (s : State) : ReachWalk s s := ⟨rfl, fun _ => rfl⟩

theorem ReachWalk.trans {a b c : State} (h : ReachWalk a b) (k : ReachWalk b c) : ReachWalk a c :=
  ⟨by rw [k.1, h.1], fun x => (k.2 x).trans (h.2 x)⟩

theorem ReachWalk.prof {s t : State} (h : ReachWalk s t) : t.prof = s.prof := by rw [h.1]; rfl

theorem ReachWalk.isReady {s t : State} (h : ReachWalk s t) : t.isReady = s.isReady := by rw [h.1]; rfl

theorem ReachWalk.restStart {s t : State} (h : ReachWalk s t) : t.restStart = s.restStart := by rw [h.1]; rfl

/-- R144: the restart of the rest timer. -/
theorem restartRest_eq (s : State) :
    restartRest s = if s.isReady then { s with ch := { s.ch with rest := s.restStart } } else s := by
  unfold restartRest State.restStart State.after ms
  rw [show 60000 * s.prof.params.restDelay * 1000 = s.prof.params.restDelay * 60000000 by omega]

/-- R38: a key that is not UP falls, as one application with the TRAP deltas withheld. -/
theorem allOffKey_moved {d k : Nat} {s : State} (h : s.mergedTouch d k ≠ .up) :
    allOffKey d s k = restartRest (application true
      (mergedDeltas s.prof s.km.stopOn d k (s.mergedTouch d k) .up (s.hasPizz d k)
        (listed d k (s.listAfter d k (s.mergedTouch d k) .up)))
      { s.keyUp d k with km := (s.keyUp d k).kmAfter d k (s.mergedTouch d k) .up }) := by
  have merged : (s.keyUp d k).mergedTouch d k = s.mergedTouch d k := rfl
  have falls : ¬ (s.mergedTouch d k).rank < Touch.up.rank := Nat.not_lt_zero _
  have keyUp : (List.range 4).foldl (fun s c => s.setSlotTouch c d k .up) s = s.keyUp d k := rfl
  unfold allOffKey
  rw [if_neg h, keyUp, remerge_moved (by rw [merged, s.keyUp_highest]; exact h), merged, s.keyUp_highest,
    mergedChange_eq, if_neg falls]
  unfold State.studded
  rw [if_neg (by simp)]
  rfl

theorem allOffKey_still {d k : Nat} {s : State} (h : s.mergedTouch d k = .up) : allOffKey d s k = s := if_pos h

theorem allOffKey_walk (d k : Nat) (s : State) : ReachWalk s (allOffKey d s k) := by
  by_cases h : s.mergedTouch d k = .up
  · rw [allOffKey_still h]
    exact .refl s
  · refine ⟨?_, fun c => ?_⟩
    · rw [allOffKey_moved h, application_falls (mergedDeltas_falls _ _ _ _ _ _ _), restartRest_eq]
      have reach := falls_reach (mergedDeltas s.prof s.km.stopOn d k (s.mergedTouch d k) .up (s.hasPizz d k)
        (listed d k (s.listAfter d k (s.mergedTouch d k) .up)))
        { s.keyUp d k with km := (s.keyUp d k).kmAfter d k (s.mergedTouch d k) .up }
      unfold ReachFall at reach
      rw [reach]
      split <;> rfl
    · unfold allOffKey
      rw [if_neg h, remerge_slot]
      exact s.keyUp_station d k c

/-- R38: after a key of the walk its merged touch is UP, and no other's has moved. -/
theorem allOffKey_mergedTouch {d k d' k' : Nat} (lk : k < 64) (lk' : k' < 64) (s : State) :
    (allOffKey d s k).mergedTouch d' k' = if d' = d ∧ k' = k then .up else s.mergedTouch d' k' := by
  by_cases h : s.mergedTouch d k = .up
  · rw [allOffKey_still h]
    split
    · next e => rw [e.1, e.2]; exact h
    · rfl
  · unfold allOffKey
    rw [if_neg h, remerge_mergedTouch]
    exact if_congr (cell_eq_iff lk' lk) (s.keyUp_highest d k) rfl

/-- Another key's entry stands or not as it did. -/
theorem listed_withoutKey {d k d' k' : Nat} (other : ¬ (d' = d ∧ k' = k)) (l : List PizzEntry) :
    listed d' k' (withoutKey d k l) = listed d' k' l := by
  rw [Bool.eq_iff_iff, listed_iff, listed_iff]
  constructor
  · rintro ⟨e, m, own⟩
    exact ⟨e, (mem_withoutKey.1 m).1, own⟩
  · rintro ⟨e, m, rfl, rfl⟩
    exact ⟨e, mem_withoutKey.2 ⟨m, other⟩, rfl, rfl⟩

theorem State.listAfter_up (s : State) (d k : Nat) (old : Touch) :
    s.listAfter d k old .up = if old = .second then withoutKey d k s.km.pizzicato else s.km.pizzicato := by
  simp [State.listAfter]

theorem allOffKey_hasPizz {d k d' k' : Nat} (other : ¬ (d' = d ∧ k' = k)) (s : State) :
    (allOffKey d s k).hasPizz d' k' = s.hasPizz d' k' := by
  by_cases h : s.mergedTouch d k = .up
  · rw [allOffKey_still h]
  · have list : (allOffKey d s k).km.pizzicato = s.listAfter d k (s.mergedTouch d k) .up := by
      unfold allOffKey
      have still : (s.keyUp d k).mergedTouch d k = s.mergedTouch d k := rfl
      show (if _ then _ else remerge true d k (s.keyUp d k)).km.pizzicato = _
      rw [if_neg h, remerge_pizzicato, s.keyUp_highest, still, if_neg h]
      rfl
    rw [State.hasPizz_eq, list, State.listAfter_up]
    split
    · exact listed_withoutKey other _
    · rfl

/-- R38: the key's own entry is gone after its fall. -/
theorem State.KeyboardSound.fallen_listed {s : State} (h : s.KeyboardSound) (d k : Nat) :
    listed d k (s.listAfter d k (s.mergedTouch d k) .up) = false := by
  rw [Bool.eq_false_iff]
  intro stands
  obtain ⟨e, m, own⟩ := listed_iff.1 stands
  rw [State.listAfter_up] at m
  split at m
  · exact (mem_withoutKey.1 m).2 own
  · next was => exact (h.but d k).not_listed was e m own

end Sys2Proof.Machine
end

section
/-! O17: the ALL-OFF walk over all keys (R38), the end of the tuning hold (R39), and what the whole command leaves. -/

namespace Sys2Proof.Machine

/-! ### The walk as one list of keys -/

/-- One key of the walk, as its division and number. -/
def walkKey (s : State) (x : Nat × Nat) : State := allOffKey x.1 s x.2

/-- Every key number of every division, in ascending order. -/
def allKeys : List (Nat × Nat) := (List.range 8).flatMap fun d => (List.range 64).map fun k => (d, k)

theorem mem_allKeys {d k : Nat} : (d, k) ∈ allKeys ↔ d < 8 ∧ k < 64 := by simp [allKeys]

theorem allKeys_nodup : allKeys.Nodup := by
  refine List.pairwise_flatMap.2 ⟨fun d _ => ?_, ?_⟩
  · exact List.pairwise_map.2 (List.nodup_range.imp fun differ e => differ (Prod.mk.inj e).2)
  · refine List.nodup_range.imp fun differ x mx y my e => differ ?_
    obtain ⟨_, -, rfl⟩ := List.mem_map.1 mx
    obtain ⟨_, -, rfl⟩ := List.mem_map.1 my
    exact (Prod.mk.inj e).1

/-- R24: a key at or above the key count is UP. -/
theorem State.KeyboardSound.above_up {s : State} (h : s.KeyboardSound) {d k : Nat} (ld : d < 8) (lk : k < 64)
    (above : s.prof.keyCount d ≤ k) : s.mergedTouch d k = .up := by
  rw [h.merged d k ld lk]
  exact State.highest_eq_up.2 fun c l => h.keys c d k l ld above lk

theorem State.KeyboardSound.walkKey {s : State} (h : s.KeyboardSound) {x : Nat × Nat} (low : x.1 < 8 ∧ x.2 < 64) :
    (walkKey s x).KeyboardSound := by
  by_cases key : x.2 < s.prof.keyCount x.1
  · exact h.allOffKey low.1 low.2 key
  · unfold Machine.walkKey
    rw [allOffKey_still (h.above_up low.1 low.2 (Nat.not_lt.1 key))]
    exact h

theorem State.KeyboardSound.walk (l : List (Nat × Nat)) : ∀ {s : State}, s.KeyboardSound →
    (∀ x ∈ l, x.1 < 8 ∧ x.2 < 64) → (l.foldl Machine.walkKey s).KeyboardSound := by
  induction l with
  | nil => exact fun h _ => h
  | cons x rest ih => exact fun h low => ih (h.walkKey (low x List.mem_cons_self)) fun y m => low y (List.mem_cons_of_mem _ m)

/-- R38: the walk of a division may as well take the numbers at and above the key count, whose keys are UP. -/
theorem allOffDivision_eq {s : State} (h : s.KeyboardSound) (fit : s.keysFit) {d : Nat} (ld : d < 8) :
    allOffDivision s d = ((List.range 64).map fun k => (d, k)).foldl walkKey s := by
  obtain ⟨m, e⟩ := Nat.exists_eq_add_of_le (fit d)
  have above : ∀ (l : List Nat) {t : State}, t.KeyboardSound → (∀ k ∈ l, t.prof.keyCount d ≤ k ∧ k < 64) →
      l.foldl (fun s k => walkKey s (d, k)) t = t := by
    intro l
    induction l with
    | nil => exact fun _ _ => rfl
    | cons k rest ih =>
      intro t ht low
      obtain ⟨high, lk⟩ := low k List.mem_cons_self
      have still : walkKey t (d, k) = t := allOffKey_still (ht.above_up ld lk high)
      rw [List.foldl_cons, still]
      exact ih ht fun y m => low y (List.mem_cons_of_mem _ m)
  rw [List.foldl_map, e, List.range_add, List.foldl_append]
  have low : (List.range (s.prof.keyCount d)).foldl (fun s k => walkKey s (d, k)) s = allOffDivision s d := rfl
  have keys : ∀ x ∈ (List.range (s.prof.keyCount d)).map fun k => (d, k), x.1 < 8 ∧ x.2 < 64 := by
    intro x mx
    obtain ⟨k, mk, rfl⟩ := List.mem_map.1 mx
    have := List.mem_range.1 mk
    exact ⟨ld, by dsimp only; omega⟩
  have sound := h.walk _ keys
  rw [List.foldl_map, low] at sound
  rw [low, above _ sound]
  intro k mk
  obtain ⟨i, mi, rfl⟩ := List.mem_map.1 mk
  have := List.mem_range.1 mi
  rw [(allOffDivision_reach s d).prof]
  omega

/-- R38: the walk takes every key of every division in ascending order. -/
theorem allOffDivisions_eq (l : List Nat) (low : ∀ d ∈ l, d < 8) : ∀ {s : State}, s.KeyboardSound → s.keysFit →
    l.foldl allOffDivision s = (l.flatMap fun d => (List.range 64).map fun k => (d, k)).foldl walkKey s := by
  induction l with
  | nil => exact fun _ _ => rfl
  | cons d rest ih =>
    intro s h fit
    have ld := low d List.mem_cons_self
    rw [List.foldl_cons, List.flatMap_cons, List.foldl_append, ← allOffDivision_eq h fit ld]
    refine ih (fun x m => low x (List.mem_cons_of_mem _ m)) ?_ (fit.reach (allOffDivision_reach s d))
    rw [allOffDivision_eq h fit ld]
    refine h.walk _ fun x mx => ?_
    obtain ⟨k, mk, rfl⟩ := List.mem_map.1 mx
    exact ⟨ld, List.mem_range.1 mk⟩

/-! ### What the walk leaves -/

theorem ReachWalk.stopOn {s t : State} (h : ReachWalk s t) : t.km.stopOn = s.km.stopOn := by rw [h.1]

theorem walk_reach (l : List (Nat × Nat)) (s : State) : ReachWalk s (l.foldl walkKey s) :=
  foldl_reach ReachWalk .refl (fun _ _ _ => .trans) walkKey (fun s x => allOffKey_walk x.1 x.2 s) l s

/-- R38: the keys that the walk has passed are UP. -/
theorem walk_mergedTouch (l : List (Nat × Nat)) (low : ∀ x ∈ l, x.1 < 8 ∧ x.2 < 64) {d k : Nat} (lk : k < 64) :
    ∀ s : State, (l.foldl walkKey s).mergedTouch d k = if (d, k) ∈ l then .up else s.mergedTouch d k := by
  induction l with
  | nil => exact fun _ => rfl
  | cons x rest ih =>
    intro s
    have one : (walkKey s x).mergedTouch d k = if d = x.1 ∧ k = x.2 then .up else s.mergedTouch d k :=
      allOffKey_mergedTouch (low x List.mem_cons_self).2 lk s
    rw [List.foldl_cons, ih (fun y m => low y (List.mem_cons_of_mem _ m)), one]
    by_cases later : (d, k) ∈ rest
    · rw [if_pos later, if_pos (List.mem_cons_of_mem _ later)]
    · rw [if_neg later]
      exact if_congr (by simp [later, Prod.ext_iff]) rfl rfl

theorem ReachFall.ch {s t : State} (h : ReachFall s t) : t.ch = s.ch := by
  unfold ReachFall at h
  rw [h]

theorem ReachFall.isReady {s t : State} (h : ReachFall s t) : t.isReady = s.isReady := by
  unfold State.isReady
  rw [h.ch]

theorem ReachFall.restStart {s t : State} (h : ReachFall s t) : t.restStart = s.restStart := by
  unfold ReachFall at h
  rw [h]
  rfl

theorem restartRest_rest (s : State) : (restartRest s).ch.rest = if s.isReady = true then s.restStart else s.ch.rest := by
  rw [restartRest_eq]
  split <;> rfl

/-- R27, R144: a key of the walk that moves its merged touch in READY restarts the rest timer. -/
theorem walkKey_rest (s : State) (x : Nat × Nat) :
    (walkKey s x).ch.rest = if s.isReady = true ∧ s.mergedTouch x.1 x.2 ≠ .up then s.restStart else s.ch.rest := by
  unfold walkKey
  by_cases h : s.mergedTouch x.1 x.2 = .up
  · rw [allOffKey_still h, if_neg fun m => m.2 h]
  · rw [allOffKey_moved h, application_falls (mergedDeltas_falls _ _ _ _ _ _ _), restartRest_rest,
      (falls_reach _ _).isReady, (falls_reach _ _).restStart, (falls_reach _ _).ch]
    exact if_congr ⟨fun ready => ⟨ready, h⟩, fun both => both.1⟩ rfl rfl

/-- R27, R144: the rest timer after the walk. -/
theorem walk_rest (l : List (Nat × Nat)) (low : ∀ x ∈ l, x.1 < 8 ∧ x.2 < 64) : ∀ s : State,
    ((s.isReady = true ∧ ∃ x ∈ l, s.mergedTouch x.1 x.2 ≠ .up) → (l.foldl walkKey s).ch.rest = s.restStart) ∧
      (¬ (s.isReady = true ∧ ∃ x ∈ l, s.mergedTouch x.1 x.2 ≠ .up) → (l.foldl walkKey s).ch.rest = s.ch.rest) := by
  induction l with
  | nil => exact fun _ => ⟨fun ⟨_, x, m, _⟩ => (List.not_mem_nil m).elim, fun _ => rfl⟩
  | cons x rest ih =>
    intro s
    have later : ∀ y ∈ rest, y.1 < 8 ∧ y.2 < 64 := fun y m => low y (List.mem_cons_of_mem _ m)
    obtain ⟨moves, stays⟩ := ih later (walkKey s x)
    have reach := allOffKey_walk x.1 x.2 s
    have ready : (walkKey s x).isReady = s.isReady := reach.isReady
    have start : (walkKey s x).restStart = s.restStart := reach.restStart
    have first := walkKey_rest s x
    rw [ready, start] at moves
    rw [ready] at stays
    have touch : ∀ y ∈ rest, (walkKey s x).mergedTouch y.1 y.2 =
        if y.1 = x.1 ∧ y.2 = x.2 then .up else s.mergedTouch y.1 y.2 :=
      fun y m => allOffKey_mergedTouch (low x List.mem_cons_self).2 (later y m).2 s
    rw [List.foldl_cons]
    by_cases again : s.isReady = true ∧ ∃ y ∈ rest, (walkKey s x).mergedTouch y.1 y.2 ≠ .up
    · rw [moves again]
      obtain ⟨isReady, y, m, up⟩ := again
      refine ⟨fun _ => rfl, fun none => absurd ⟨isReady, y, List.mem_cons_of_mem _ m, ?_⟩ none⟩
      intro was
      rw [touch y m, was, ite_self] at up
      exact up rfl
    · rw [stays again, first]
      refine ⟨fun ⟨isReady, y, m, up⟩ => if_pos ⟨isReady, ?_⟩, fun none =>
        if_neg fun one => none ⟨one.1, x, List.mem_cons_self, one.2⟩⟩
      intro was
      rcases List.mem_cons.1 m with rfl | m
      · exact up was
      · refine again ⟨isReady, y, m, ?_⟩
        rw [touch y m, if_neg]
        · exact up
        · rintro ⟨e₁, e₂⟩
          rw [e₁, e₂] at up
          exact up was

/-! ### What DT and PA hear of the walk -/

/-- R38: the fall of one key as it was in `s`, taken in `v` as one application with the TRAP deltas withheld. -/
def fallKey (s v : State) (x : Nat × Nat) : State :=
  if s.mergedTouch x.1 x.2 = .up then v
  else application true
    (mergedDeltas s.prof s.km.stopOn x.1 x.2 (s.mergedTouch x.1 x.2) .up (s.hasPizz x.1 x.2) false) v

theorem State.DemandAlike.restartRest {s t : State} (h : s.DemandAlike t) : s.DemandAlike (restartRest t) := by
  rw [restartRest_eq]
  split
  · exact ⟨h.alike.trans ⟨rfl, rfl, rfl, rfl, rfl⟩, h.dt⟩
  · exact h

/-- One key of the walk is its fall, to DT and PA. -/
theorem State.DemandAlike.walkKey {s v t : State} (h : v.DemandAlike t) (sound : t.KeyboardSound) (prof : t.prof = s.prof)
    (stops : t.km.stopOn = s.km.stopOn) {x : Nat × Nat} (touch : t.mergedTouch x.1 x.2 = s.mergedTouch x.1 x.2)
    (pizz : t.hasPizz x.1 x.2 = s.hasPizz x.1 x.2) : (fallKey s v x).DemandAlike (walkKey t x) := by
  unfold fallKey Machine.walkKey
  by_cases up : s.mergedTouch x.1 x.2 = .up
  · rw [if_pos up, allOffKey_still (by rw [touch]; exact up)]
    exact h
  · rw [if_neg up, allOffKey_moved (by rw [touch]; exact up), sound.fallen_listed,
      application_falls (mergedDeltas_falls _ _ _ _ _ _ _),
      application_falls (mergedDeltas_falls _ _ _ _ _ _ _), prof, stops, touch, pizz]
    refine (State.DemandAlike.falls _ ?_).restartRest
    exact ⟨h.alike.trans ⟨rfl, rfl, rfl, rfl, rfl⟩, h.dt⟩

theorem State.DemandAlike.walk {s : State} (l : List (Nat × Nat)) (nodup : l.Nodup) (low : ∀ x ∈ l, x.1 < 8 ∧ x.2 < 64) :
    ∀ {v t : State}, v.DemandAlike t → t.KeyboardSound → t.prof = s.prof → t.km.stopOn = s.km.stopOn →
      (∀ x ∈ l, t.mergedTouch x.1 x.2 = s.mergedTouch x.1 x.2 ∧ t.hasPizz x.1 x.2 = s.hasPizz x.1 x.2) →
      (l.foldl (fallKey s) v).DemandAlike (l.foldl Machine.walkKey t) := by
  induction l with
  | nil => exact fun h _ _ _ _ => h
  | cons x rest ih =>
    intro v t h sound prof stops same
    obtain ⟨apart, nodup'⟩ := List.nodup_cons.1 nodup
    have reach : ReachWalk t (Machine.walkKey t x) := allOffKey_walk x.1 x.2 t
    obtain ⟨touch, pizz⟩ := same x List.mem_cons_self
    refine ih nodup' (fun y m => low y (List.mem_cons_of_mem _ m)) (h.walkKey sound prof stops touch pizz)
      (sound.walkKey (low x List.mem_cons_self)) (reach.prof.trans prof) (reach.stopOn.trans stops) fun y m => ?_
    obtain ⟨touch', pizz'⟩ := same y (List.mem_cons_of_mem _ m)
    have other : ¬ (y.1 = x.1 ∧ y.2 = x.2) := fun e => apart (by rw [← Prod.ext e.1 e.2]; exact m)
    refine ⟨?_, (allOffKey_hasPizz other t).trans pizz'⟩
    have still := allOffKey_mergedTouch (d := x.1) (d' := y.1) (low x List.mem_cons_self).2 (low y (List.mem_cons_of_mem _ m)).2 t
    rw [if_neg other] at still
    exact still.trans touch'

theorem walkKey_releasesTo (s : State) (x : Nat × Nat) : s.releasesTo (walkKey s x) := by
  unfold walkKey
  by_cases up : s.mergedTouch x.1 x.2 = .up
  · rw [allOffKey_still up]
    exact (State.PaAlike.refl s).releasesTo
  · rw [allOffKey_moved up, application_falls (mergedDeltas_falls _ _ _ _ _ _ _), restartRest_eq]
    have first : s.releasesTo { s.keyUp x.1 x.2 with km := (s.keyUp x.1 x.2).kmAfter x.1 x.2 (s.mergedTouch x.1 x.2) .up } :=
      State.PaAlike.releasesTo ⟨rfl, rfl, rfl, rfl, rfl⟩
    have falls := first.trans (falls_releasesTo
      (mergedDeltas s.prof s.km.stopOn x.1 x.2 (s.mergedTouch x.1 x.2) .up (s.hasPizz x.1 x.2)
        (listed x.1 x.2 (s.listAfter x.1 x.2 (s.mergedTouch x.1 x.2) .up))) _)
    split
    · exact falls.trans (State.PaAlike.releasesTo ⟨rfl, rfl, rfl, rfl, rfl⟩)
    · exact falls

theorem walk_releasesTo (l : List (Nat × Nat)) (s : State) : s.releasesTo (l.foldl walkKey s) :=
  foldl_reach State.releasesTo (fun s => (State.PaAlike.refl s).releasesTo) (fun _ _ _ => .trans) walkKey
    walkKey_releasesTo l s

/-! ### The end of the tuning hold -/

/-- R58: the end of a tuning hold asks for falls alone. -/
theorem tuneDeltas_falls (p : Profile) (old : Option Nat) : ∀ d ∈ tuneDeltas p old none, d.falls false := by
  intro d m
  cases old with
  | none => cases m
  | some o =>
    have down : d ∈ tuneDelta p o false := by simpa [tuneDeltas] using m
    unfold tuneDelta at down
    split at down
    · cases down
    · rw [List.mem_singleton.1 down]
      rfl

/-- No output is held for tuning. -/
def State.untuned (s : State) : State := { s with dt := { s.dt with tuning := none } }

theorem State.DemandAlike.untuned {s t : State} (h : s.DemandAlike t) : s.DemandAlike t.untuned :=
  ⟨h.alike.trans ⟨rfl, rfl, rfl, rfl, rfl⟩, congrArg (fun dt : Dt => { dt with tuning := none }) h.dt⟩

/-- R58: the tuning hold ends by an application of its falls. -/
theorem endHold_eq (s : State) : endHold s = (tuneDeltas s.prof (s.dt.tuning.map (·.output)) none).foldl fall s.untuned := by
  unfold endHold
  by_cases idle : s.dt.tuning = none
  · have still : s.untuned = s := by
      unfold State.untuned
      rw [← idle]
    rw [if_pos idle, idle, still]
    rfl
  · rw [if_neg idle]
    exact application_falls (tuneDeltas_falls _ _) _

/-- The end of the tuning hold reaches DT, PA and CC alone. -/
theorem endHold_falls (s : State) :
    endHold s = { s with
      dt := { (endHold s).dt with tuning := none, clocks := s.dt.clocks }, pa := (endHold s).pa, cc := (endHold s).cc } := by
  rw [endHold_eq]
  exact falls_reach _ s.untuned

theorem State.DemandAlike.endHold {v t : State} (h : v.DemandAlike t) :
    (application false (tuneDeltas t.prof (t.dt.tuning.map (·.output)) none) v).DemandAlike (endHold t) := by
  rw [application_falls (tuneDeltas_falls _ _), endHold_eq]
  exact State.DemandAlike.falls _ h.untuned

theorem endHold_releasesTo (s : State) : s.releasesTo (endHold s) := by
  have first : s.releasesTo s.untuned := State.PaAlike.releasesTo ⟨rfl, rfl, rfl, rfl, rfl⟩
  rw [endHold_eq]
  exact first.trans (falls_releasesTo _ _)

/-! ### The outputs of the TRAP windows -/

/-- The claim groups and the outputs of their TRAP windows, ascending. -/
def State.trapOutputs (s : State) : List (Nat × Nat) := (List.range 16).flatMap fun g => (s.groupOutputs g).map (g, ·)

theorem State.ProfileSound.trapOutputs_ascending {s : State} (h : s.ProfileSound) :
    s.trapOutputs.Pairwise (fun x y => x.1 < y.1 ∨ x.1 = y.1 ∧ x.2 < y.2) := by
  refine List.pairwise_flatMap.2 ⟨fun g _ => ?_, ?_⟩
  · exact List.pairwise_map.2 ((h.outputsOf_ascending _).imp fun lt => .inr ⟨rfl, lt⟩)
  · refine List.pairwise_lt_range.imp fun lt x mx y my => .inl ?_
    obtain ⟨_, -, rfl⟩ := List.mem_map.1 mx
    obtain ⟨_, -, rfl⟩ := List.mem_map.1 my
    exact lt

theorem State.mem_groupOutputs {s : State} {g o : Nat} :
    o ∈ s.groupOutputs g ↔ ∃ w ∈ s.prof.windows, w.kind = .trap ∧ w.claimGroup = g ∧ w.contains o = true := by
  unfold State.groupOutputs
  simp [Profile.mem_outputsOf, and_assoc]

/-- R2: no claim group is above 15. -/
theorem State.ProfileSound.claimGroup_lt {s : State} (h : s.ProfileSound) {w : Window} (m : w ∈ s.prof.windows) :
    w.claimGroup < 16 := by
  unfold State.prof at m
  cases p : s.profile with
  | none => rw [p] at m; cases m
  | some q =>
    rw [p] at m
    obtain ⟨-, -, -, -, -, -, low⟩ := (h q p).windowRanges w m
    omega

theorem State.ProfileSound.mem_trapOutputs {s : State} (h : s.ProfileSound) {g o : Nat} :
    (g, o) ∈ s.trapOutputs ↔ inTrapOf s.prof.windows g o = true := by
  have parts : (g, o) ∈ s.trapOutputs ↔ g < 16 ∧ o ∈ s.groupOutputs g := by
    simp [State.trapOutputs]
  rw [parts, State.mem_groupOutputs]
  simp only [inTrapOf, List.any_eq_true, Bool.and_eq_true, beq_iff_eq, and_assoc]
  refine ⟨fun m => m.2, fun m => ⟨?_, m⟩⟩
  obtain ⟨w, mw, -, rfl, -⟩ := m
  exact h.claimGroup_lt mw

/-- An output of kind TRAP stands in a claim group. -/
theorem State.ProfileSound.trap_listed {s : State} (h : s.ProfileSound) {o : Nat} (trap : s.outputIs .trap o) :
    o ∈ (List.range 16).flatMap s.groupOutputs := by
  unfold State.outputIs Profile.windowOf at trap
  obtain ⟨w, found, kind⟩ := Option.map_eq_some_iff.1 trap
  have mw := List.mem_of_find?_eq_some found
  have holds := List.find?_some found
  exact List.mem_flatMap.2 ⟨w.claimGroup, List.mem_range.2 (h.claimGroup_lt mw),
    State.mem_groupOutputs.2 ⟨w, mw, kind, rfl, holds⟩⟩

theorem clearGroups_eq (s v : State) : (List.range 16).foldl (fun v g => forOutputs paRelease (s.groupOutputs g) v) v =
    s.trapOutputs.foldl (fun v x => paRelease x.2 v) v := by
  unfold State.trapOutputs
  rw [List.foldl_flatMap]
  simp only [List.foldl_map]
  rfl

theorem clearGroups_forOutputs (s v : State) :
    (List.range 16).foldl (fun v g => forOutputs paRelease (s.groupOutputs g) v) v =
      forOutputs paRelease ((List.range 16).flatMap s.groupOutputs) v := by
  unfold forOutputs
  rw [List.foldl_flatMap]

end Sys2Proof.Machine
end

section
/-! O17: ALL-OFF as a whole (R38, R39, R98). -/

namespace Sys2Proof.Machine

/-! ### The three parts of an ALL-OFF -/

section
variable {s t : State} (h : s.stoppedTo t)
include h

theorem State.stoppedTo.prof : t.prof = s.prof := by rw [h.frame]; rfl

theorem State.stoppedTo.km : t.km = s.km := by rw [h.frame]

theorem State.stoppedTo.dt : t.dt = s.dt := by rw [h.frame]

theorem State.stoppedTo.isReady : t.isReady = s.isReady := by rw [h.frame]; rfl

theorem State.stoppedTo.restStart : t.restStart = s.restStart := by rw [h.frame]; rfl

theorem State.stoppedTo.slot (c : Nat) : t.slot c = s.slot c := by
  unfold State.slot
  rw [h.km]

theorem State.stoppedTo.mergedTouch (d k : Nat) : t.mergedTouch d k = s.mergedTouch d k := by
  unfold State.mergedTouch
  rw [h.km]

theorem State.stoppedTo.hasPizz (d k : Nat) : t.hasPizz d k = s.hasPizz d k := by
  unfold State.hasPizz
  rw [h.km]

theorem State.stoppedTo.sound (k : s.KeyboardSound) : t.KeyboardSound :=
  k.congr h.km (by rw [h.frame]) h.prof

end

/-- R38: what the walk over every key leaves. -/
structure State.walkedTo (s t : State) : Prop where
  reach : ReachWalk s t
  sound : t.KeyboardSound
  up : ∀ d k, d < 8 → k < 64 → t.mergedTouch d k = .up
  restarts : s.isReady = true → (∃ d k, d < 8 ∧ k < 64 ∧ s.mergedTouch d k ≠ .up) → t.ch.rest = s.restStart
  rests : ¬ (s.isReady = true ∧ ∃ d k, d < 8 ∧ k < 64 ∧ s.mergedTouch d k ≠ .up) → t.ch.rest = s.ch.rest
  releases : s.releasesTo t
  demand : ∀ b v : State, v.DemandAlike s → s.prof = b.prof → s.km.stopOn = b.km.stopOn →
    (∀ d k, s.mergedTouch d k = b.mergedTouch d k ∧ s.hasPizz d k = b.hasPizz d k) →
    (allKeys.foldl (fallKey b) v).DemandAlike t

theorem State.KeyboardSound.walkedTo {s : State} (h : s.KeyboardSound) : s.walkedTo (allKeys.foldl Machine.walkKey s) := by
  have low : ∀ x ∈ allKeys, x.1 < 8 ∧ x.2 < 64 := fun x m => mem_allKeys.1 m
  obtain ⟨restarts, rests⟩ := walk_rest allKeys low s
  exact
    { reach := walk_reach allKeys s
      sound := h.walk allKeys low
      up := fun d k ld lk => by rw [walk_mergedTouch allKeys low lk, if_pos (mem_allKeys.2 ⟨ld, lk⟩)]
      restarts := fun ready ⟨d, k, ld, lk, moved⟩ => restarts ⟨ready, (d, k), mem_allKeys.2 ⟨ld, lk⟩, moved⟩
      rests := fun none => rests fun ⟨ready, x, m, moved⟩ => none ⟨ready, x.1, x.2, (low x m).1, (low x m).2, moved⟩
      releases := walk_releasesTo allKeys s
      demand := fun b v alike prof stops same =>
        alike.walk allKeys allKeys_nodup low h prof stops fun x _ => same x.1 x.2 }

/-- R39, R58: what the end of the tuning hold leaves. -/
structure State.untunedTo (s t : State) : Prop where
  frame : t = { s with dt := { t.dt with tuning := none, clocks := s.dt.clocks }, pa := t.pa, cc := t.cc }
  releases : s.releasesTo t
  demand : ∀ v : State, v.DemandAlike s →
    (application false (tuneDeltas s.prof (s.dt.tuning.map (·.output)) none) v).DemandAlike t

theorem endHold_ended (s : State) : s.untunedTo (endHold s) := ⟨endHold_falls s, endHold_releasesTo s, fun _ h => h.endHold⟩

/-- R38, R39: ALL-OFF is EE's stop, the walk over every key, and the end of the tuning hold. -/
theorem State.KeyboardSound.allOff_parts {s : State} (h : s.KeyboardSound) (fit : s.keysFit) :
    ∃ e w, s.stoppedTo e ∧ e.walkedTo w ∧ w.untunedTo (Machine.allOff s) := by
  have stopped := eeAllOff_stopped s
  have fit' : (eeAllOff s).keysFit := fun d => by
    rw [stopped.prof]
    exact fit d
  refine ⟨eeAllOff s, _, stopped, (stopped.sound h).walkedTo, ?_⟩
  have walk := allOffDivisions_eq (List.range 8) (fun d m => List.mem_range.1 m) (stopped.sound h) fit'
  unfold Machine.allOff
  rw [walk]
  exact endHold_ended _

theorem State.QueuesSound.forOutputs (l : List Nat) : ∀ {s : State}, s.QueuesSound →
    (forOutputs Machine.paRelease l s).QueuesSound := by
  induction l with
  | nil => exact fun h => h
  | cons o rest ih => exact fun h => ih (h.paRelease o)

/-! ### What they leave together -/

section
variable {s e w u : State} (stopped : s.stoppedTo e) (walk : e.walkedTo w) (ended : w.untunedTo u)
include stopped walk ended

/-- What an ALL-OFF reaches. -/
theorem State.untunedTo.whole : u = { s with
    km := { s.km with slots := w.km.slots, merged := w.km.merged, pizzicato := w.km.pizzicato }
    pa := u.pa, cc := u.cc, ee := e.ee
    dt := { u.dt with tuning := none, clocks := s.dt.clocks }
    ch := { s.ch with rest := w.ch.rest } } := by
  rw [ended.frame, walk.reach.1, stopped.frame]

/-- R38, R39: what PA and DT are asked by an ALL-OFF. -/
theorem State.untunedTo.wholeDemand :
    (application false (tuneDeltas s.prof (s.dt.tuning.map (·.output)) none)
      (allKeys.foldl (fallKey s) (s.trapOutputs.foldl (fun v x => paRelease x.2 v) s))).DemandAlike u := by
  have cleared : (s.trapOutputs.foldl (fun v x => paRelease x.2 v) s).DemandAlike e := by
    have alike := stopped.alike
    rw [clearGroups_forOutputs] at alike
    have reach := forOutputs_paRelease_reach ((List.range 16).flatMap s.groupOutputs) s
    rw [← clearGroups_eq, clearGroups_forOutputs]
    unfold ReachGrant at reach
    exact ⟨alike, by rw [reach, stopped.dt]⟩
  have walked := walk.demand s _ cleared stopped.prof (by rw [stopped.km])
    fun d k => ⟨stopped.mergedTouch d k, stopped.hasPizz d k⟩
  have tuning : w.dt.tuning = s.dt.tuning := by rw [walk.reach.1, stopped.dt]
  have done := ended.demand _ walked
  rw [tuning, walk.reach.prof, stopped.prof] at done
  exact done

/-- R88, R98: in READY every output of a TRAP window is quiet after an ALL-OFF, and OFF if it was energized but for a
strike. -/
theorem State.untunedTo.traps (prof : s.ProfileSound) (ready : s.isReady = true) (queues : s.QueuesSound) {o : Nat}
    (trap : s.outputIs .trap o) :
    (u.out o).quiet ∧ ((s.out o = .holding ∨ ∃ m, s.out o = .pulling m) → u.out o = .off) := by
  obtain ⟨more, asked⟩ := walk.releases.trans ended.releases
  have alike := stopped.alike
  rw [clearGroups_forOutputs] at alike
  obtain ⟨quiet, off⟩ := queues.releases ((List.range 16).flatMap s.groupOutputs) ready o (prof.trap_listed trap)
  have onward := (PaRequest.forOutputs paRelease_request more _ _ alike).1.trans asked
  have stands : u.out o = (forOutputs paRelease ((List.range 16).flatMap s.groupOutputs) s).out o := by
    rw [onward.out]
    refine (queues.forOutputs _).quiet_stands more ?_ o quiet
    rw [alike.symm.ready, stopped.isReady]
    exact ready
  rw [stands]
  exact ⟨quiet, off⟩

end

theorem State.DemandAlike.untuned_eq {s t : State} (h : s.DemandAlike t) (tuning : t.dt.tuning = none) :
    t.pa = s.pa ∧ t.cc = s.cc ∧ t.dt = { s.dt with tuning := none } := by
  have dt := h.dt
  rw [tuning] at dt
  exact ⟨h.alike.pa, h.alike.cc, dt⟩

/-- Settles O17: an ALL-OFF is EE's stop, one application of its fall for each key that is down, and the end of the tuning
hold; every one of these asks PA for RELEASEs alone. -/
theorem alloffClearsKeysAndEffects : Obligations.AlloffClearsKeysAndEffects := by
  intro t a s serves prof sound
  have fit : (s.hearing t a).keysFit := prof.keyCount_le
  have heard : (s.hearing t a).KeyboardSound := sound.congr rfl (Nat.le_max_left _ _) rfl
  obtain ⟨e, w, stopped, walk, ended⟩ := heard.allOff_parts fit
  have whole := State.untunedTo.whole stopped walk ended
  have demand := State.untunedTo.wholeDemand stopped walk ended
  have taken : frame t a (accepted allOff) s = .next (allOff (s.hearing t a)) := by
    have run := frame_run (f := accepted allOff) (t := t) (a := a) serves.1
    rw [accepted_run (f := allOff) (s := s.hearing t a) serves.2] at run
    refine run ?_
    rw [whole]
    exact (stopped.runners 0).trans (if_neg (by omega))
  generalize allOff (s.hearing t a) = u at *
  have keyboard : u.KeyboardSound :=
    walk.sound.congr (by rw [ended.frame]) (by rw [ended.frame]) (by rw [ended.frame]; rfl)
  have up : ∀ d k, d < 8 → k < 64 → u.mergedTouch d k = .up := fun d k ld lk => by
    rw [ended.frame]
    exact walk.up d k ld lk
  have ready : (s.hearing t a).isReady = true ↔ s.ch.state = .ready := by simp [State.isReady, State.hearing, State.at]
  have slot : ∀ c, (u.slot c).station = (s.slot c).station := fun c => by
    have still : u.slot c = w.slot c := by
      unfold State.slot
      rw [ended.frame]
    rw [still, walk.reach.2 c, stopped.slot c]
    rfl
  have ee : u.ee = e.ee := by rw [whole]
  refine ⟨u, taken, fun d k ld lk => ⟨up d k ld lk, ?slots⟩, ?list, by rw [whole], slot, by rw [whole]; rfl,
    by rw [whole]; rfl, fun g => ?groups, fun r => ?runners, fun x low => ?triggers,
    fun isReady arbiter o trap => ?traps,
    ⟨s.trapOutputs, prof.trapOutputs_ascending, fun g o => prof.mem_trapOutputs, ?demand⟩, ?rest, ?frame⟩
  case slots =>
    have high := up d k ld lk
    rw [keyboard.merged d k ld lk] at high
    exact State.highest_eq_up.1 high
  case list =>
    refine List.eq_nil_iff_forall_not_mem.2 fun x m => ?_
    obtain ⟨ld, lk, second, -⟩ := keyboard.entries x m
    rw [up _ _ ld lk] at second
    cases second
  case groups =>
    unfold State.group
    rw [ee]
    exact stopped.groups g
  case runners =>
    unfold State.runner
    rw [ee]
    exact stopped.runners r
  case triggers =>
    unfold State.trigger
    rw [ee]
    exact stopped.triggers x low
  case traps =>
    exact State.untunedTo.traps stopped walk ended prof (ready.2 isReady) ⟨arbiter.queues.waiting, arbiter.queues.once⟩ trap
  case demand =>
    have tuning : u.dt.tuning = none := by rw [whole]
    have falls : fallKey (s.hearing t a) = fallKey s := rfl
    have outputs : (s.hearing t a).trapOutputs = s.trapOutputs := rfl
    unfold allKeys at demand
    rw [falls, outputs] at demand
    dsimp only
    generalize s.trapOutputs.foldl (fun v x => paRelease x.2 v) (s.hearing t a) = cleared at demand ⊢
    exact State.DemandAlike.untuned_eq demand tuning
  case rest =>
    have rest : u.ch.rest = w.ch.rest := by rw [whole]
    rw [rest]
    constructor
    · rintro ⟨isReady, d, k, ld, lk, moved⟩
      refine (walk.restarts ?_ ⟨d, k, ld, lk, ?_⟩).trans stopped.restStart
      · rw [stopped.isReady, ready]
        exact isReady
      · rw [stopped.mergedTouch]
        exact moved
    · intro none
      have still : e.ch.rest = s.ch.rest := by rw [stopped.frame]; rfl
      refine (walk.rests ?_).trans still
      rintro ⟨isReady, d, k, ld, lk, moved⟩
      rw [stopped.isReady, ready] at isReady
      rw [stopped.mergedTouch] at moved
      exact none ⟨isReady, d, k, ld, lk, moved⟩
  case frame =>
    rw [whole]
    rfl

end Sys2Proof.Machine
end

section
/-! What EE does leaves runner 0 idle where it was (R86, R104), effects standing on runners 1 to 7, and a PRESENCE that waits
to be sent (R160). -/

namespace Sys2Proof.Machine

/-- LI goes on to be MUTE or not, and no PRESENCE that waits is taken away. -/
def Li.keeps (l m : Li) : Prop :=
  m.mute = l.mute ∧ ∀ q ∈ l.queue, (∃ st fault tag, q.frame = .presence st fault tag) → q ∈ m.queue

theorem Li.keeps.refl (l : Li) : l.keeps l := ⟨rfl, fun _ m _ => m⟩

theorem Li.keeps.trans {a b c : Li} (h : a.keeps b) (k : b.keeps c) : a.keeps c :=
  ⟨k.1.trans h.1, fun q m own => k.2 q (h.2 q m own) own⟩

/-- R160: a frame that is no PRESENCE leaves a waiting PRESENCE. -/
theorem handOver_keeps {f : Frame} (other : ∀ st fault tag, f ≠ .presence st fault tag) (s : State) :
    s.li.keeps (handOver f s).li := by
  have apart : ∀ q : Queued, (∃ st fault tag, q.frame = .presence st fault tag) → f.sameSlot q.frame = false := by
    rintro ⟨g, age⟩ ⟨st, fault, tag, rfl⟩
    cases f with
    | presence st' fault' tag' => exact absurd rfl (other st' fault' tag')
    | report _ | beat _ | mark _ _ => rfl
  unfold handOver
  split
  · exact .refl _
  · split
    · refine ⟨rfl, fun q m own => List.mem_map.2 ⟨q, m, ?_⟩⟩
      rw [apart q own]
      rfl
    · split
      · exact ⟨rfl, fun q m _ => List.mem_append_left _ m⟩
      · split <;> exact .refl _

/-- Runner 0 stays idle where it is, and LI keeps a waiting PRESENCE. -/
def State.spares (s t : State) : Prop := (s.runner 0 = none → t.runner 0 = none) ∧ s.li.keeps t.li

theorem State.spares.refl (s : State) : s.spares s := ⟨id, .refl _⟩

theorem State.spares.trans {a b c : State} (h : a.spares b) (k : b.spares c) : a.spares c :=
  ⟨fun i => k.1 (h.1 i), h.2.trans k.2⟩

theorem State.spares.of_ee {s t : State} (ee : t.ee = s.ee) (li : s.li.keeps t.li) : s.spares t := by
  refine ⟨fun i => ?_, li⟩
  unfold State.runner at i ⊢
  rw [ee]
  exact i

theorem ReachPa.li {s t : State} (h : ReachPa s t) : t.li = s.li := by rw [h]

theorem ReachPa.spares {s t : State} (h : ReachPa s t) : s.spares t :=
  .of_ee (by rw [h]) (by rw [h.li]; exact .refl _)

theorem handOver_spares {f : Frame} (other : ∀ st fault tag, f ≠ .presence st fault tag) (s : State) :
    s.spares (handOver f s) := .of_ee (by rw [handOver_reach f s]) (handOver_keeps other s)

theorem setRunner_spares {r : Nat} (h : r ≠ 0) (v : Option Context) (s : State) : s.spares (s.setRunner r v) := by
  refine ⟨fun i => ?_, .refl _⟩
  rw [State.runner_setRunner, if_neg h.symm]
  exact i

theorem forOutputs_spares {f : Nat → State → State} (h : ∀ o s, ReachPa s (f o s)) (l : List Nat) (s : State) :
    s.spares (forOutputs f l s) := (forOutputs_reach h l s).spares

/-! ### Passes -/

theorem driveLine_spares (l : Nat) (v : Bool) (s : State) : s.spares (driveLine l v s) := by
  refine ⟨fun i => ?_, by rw [driveLine_reach l v s]; exact .refl _⟩
  unfold driveLine offerLine
  dsimp only
  split
  · split
    · have same : (s.setLine l { s.line l with driven := v }).runner 0 = none := i
      rw [same]
      exact same
    · exact i
  · exact i

theorem tallied_spares (r i : Nat) (c : Context) {s t : State} (h : s.spares t) : s.spares (tallied r i c t).2.2 := by
  unfold tallied
  dsimp only
  split
  · exact h
  · exact h.trans (reportFault_reach _ _ _ _).pa.spares

theorem takeStep_spares (r : Nat) (c : Context) (s : State) : s.spares (takeStep r c s).2.2 := by
  unfold takeStep
  dsimp only
  split
  · exact .refl s
  · exact .refl s
  · exact tallied_spares _ _ _ (paStrike_reach _ _ _).spares
  · split
    · exact tallied_spares _ _ _ (paHold_reach _ _).spares
    · split
      · exact tallied_spares _ _ _ (paHold_reach _ _).spares
      · exact tallied_spares _ _ _ (.refl s)
  · exact tallied_spares _ _ _ (paRelease_reach _ _).spares
  · exact tallied_spares _ _ _ (.refl s)
  · exact tallied_spares _ _ _ (handOver_spares (fun _ _ _ => by simp) _)
  · exact .refl s
  · split
    · exact tallied_spares _ _ _ (.refl s)
    · exact .refl s
  · exact tallied_spares _ _ _ (driveLine_spares _ _ _)
  · exact tallied_spares _ _ _ (.refl s)
  · exact .refl s

theorem takeSteps_spares (r n : Nat) (c : Context) (s : State) : s.spares (takeSteps r n c s).2.2 := by
  induction n generalizing c s with
  | zero => exact .refl s
  | succ n ih =>
    have h := takeStep_spares r c s
    unfold takeSteps
    split
    · next e => rw [e] at h; exact h.trans (ih _ _)
    · exact h

theorem runPass_spares (r : Nat) (c : Context) (s : State) : s.spares (runPass r c s).2.2 := takeSteps_spares r 17 c s

/-! ### Holders -/

theorem clearGroup_spares (g : Nat) (s : State) : s.spares (clearGroup g s) := by
  obtain ⟨-, frame, others⟩ := clearGroup_alike g s
  refine ⟨fun i => ?_, by rw [frame]; exact .refl _⟩
  rw [others 0 (by omega)]
  exact i

theorem resumeHolder_spares (g : Nat) (c : Context) (rest : List Context) (s : State) :
    s.spares (resumeHolder g c rest s).2 :=
  State.spares.trans (b := s.setGroup g { s.group g with holder := c.script.effect, stack := rest }) ⟨id, .refl _⟩
    (forOutputs_spares paHold_reach c.held _)

theorem nextWork_spares (g : Nat) (s : State) {x : Context × State} (h : nextWork g s = some x) : s.spares x.2 := by
  unfold nextWork at h
  dsimp only at h
  split at h
  · cases h; exact ⟨id, .refl _⟩
  · split at h
    · cases h; exact ⟨id, .refl _⟩
    · cases h; exact resumeHolder_spares _ _ _ _
  · cases h; exact resumeHolder_spares _ _ _ _
  · obtain ⟨y, -, rfl⟩ := Option.map_eq_some_iff.1 h
    exact ⟨id, .refl _⟩

theorem endHolder_spares {r : Nat} (low : r ≠ 0) (c : Context) (s : State) : s.spares (endHolder r c s).2 := by
  have freed : s.spares ((forOutputs paRelease c.held s).setRunner r none) :=
    (forOutputs_spares paRelease_reach c.held s).trans (setRunner_spares low _ _)
  unfold endHolder
  dsimp only
  split
  · next h => exact freed.trans (nextWork_spares _ _ h)
  · exact freed

theorem runOn_spares {r : Nat} (low : r ≠ 0) (n : Nat) (c : Context) (s : State) : s.spares (runOn n r c s) := by
  induction n generalizing c s with
  | zero => exact setRunner_spares low _ s
  | succ n ih =>
    have pass := (setRunner_spares low (some c) s).trans (runPass_spares r c (s.setRunner r (some c)))
    unfold runOn
    split
    · next c' s' e =>
      rw [e] at pass
      have ends := pass.trans (endHolder_spares low c' s')
      split
      · next e2 => rw [e2] at ends; exact ends
      · next c'' s'' e2 =>
        rw [e2] at ends
        split
        · exact ends.trans (ih _ _)
        · exact ends.trans (setRunner_spares low _ _)
    · next e =>
      rw [e] at pass
      exact pass.trans (setRunner_spares low _ _)

theorem runEffect_spares {r : Nat} (low : r ≠ 0) (c : Context) (s : State) : s.spares (runEffect r c s) := by
  unfold runEffect
  split
  · exact runOn_spares low _ _ _
  · exact setRunner_spares low _ s

theorem holderEnds_spares {r : Nat} (low : r ≠ 0) (c : Context) (s : State) : s.spares (holderEnds r c s) := by
  have ends := endHolder_spares low c s
  unfold holderEnds
  split
  · next e => rw [e] at ends; exact ends
  · next e => rw [e] at ends; exact ends.trans (runEffect_spares low _ _)

theorem startEffect_spares (e : Nat) {r : Nat} (low : r ≠ 0) (s : State) : s.spares (startEffect e r s) :=
  State.spares.trans (b := (becomeHolder e s).2) ⟨id, .refl _⟩ (runEffect_spares low _ _)

/-! ### Triggers -/

theorem makePending_spares (e : Nat) (s : State) : s.spares (makePending e s) := by
  unfold makePending
  dsimp only
  split
  · exact ⟨id, .refl _⟩
  · split <;> exact ⟨id, .refl _⟩

theorem preempt_spares (e : Nat) {r : Nat} (low : r ≠ 0) (c : Context) (s : State) : s.spares (preempt e r c s) := by
  unfold preempt
  dsimp only
  split
  · exact ⟨id, .refl _⟩
  · refine State.spares.trans
      (b := s.setGroup (s.groupOf e) { s.group (s.groupOf e) with
        stack := c.saved s.now :: (s.group (s.groupOf e)).stack }) ⟨id, .refl _⟩ ?_
    exact (clearGroup_spares _ _).trans (startEffect_spares _ low _)

theorem effectRunners_ne {r : Nat} (h : r ∈ effectRunners) : r ≠ 0 := by
  have := effectRunners_bounds.1 h
  omega

theorem State.freeRunner_ne {s : State} {r : Nat} (h : s.freeRunner = some r) : r ≠ 0 :=
  effectRunners_ne (List.mem_of_find?_eq_some h)

theorem State.runnerOf_ne {s : State} {e r : Nat} (h : s.runnerOf e = some r) : r ≠ 0 :=
  effectRunners_ne (List.mem_of_find?_eq_some h)

theorem triggerInReady_spares (e : Nat) (s : State) : s.spares (triggerInReady e s) := by
  unfold triggerInReady
  dsimp only
  split
  · exact ⟨id, .refl _⟩
  · split
    · split
      · next found => exact startEffect_spares _ (State.freeRunner_ne found) _
      · exact makePending_spares _ _
    · split
      · exact ⟨id, .refl _⟩
      · next found =>
        have low := State.runnerOf_ne found
        split
        · exact ⟨id, .refl _⟩
        · split
          · split
            · exact (clearGroup_spares _ _).trans (startEffect_spares _ low _)
            · exact ⟨id, .refl _⟩
          · split
            · exact preempt_spares _ low _ _
            · exact makePending_spares _ _

theorem restartRest_spares (s : State) : s.spares (restartRest s) := by
  unfold restartRest
  split <;> exact ⟨id, .refl _⟩

theorem trigger_spares (e : Nat) (s : State) : s.spares (trigger e s) := by
  unfold trigger
  split
  · exact (restartRest_spares s).trans (triggerInReady_spares _ _)
  · exact ⟨id, .refl _⟩

theorem levelRelease_spares (e : Nat) (s : State) : s.spares (levelRelease e s) := by
  unfold levelRelease
  dsimp only
  split
  · split
    · exact ⟨id, .refl _⟩
    · next found =>
      have low := State.runnerOf_ne found
      split
      · exact ⟨id, .refl _⟩
      · split
        · split
          · exact runEffect_spares low _ _
          · exact holderEnds_spares low _ _
        · exact ⟨id, .refl _⟩
  · split <;> exact ⟨id, .refl _⟩

theorem countMoved_spares (e b : Nat) (up : Bool) (s : State) : s.spares (countMoved e b up s) := by
  unfold countMoved
  split
  · split
    · exact trigger_spares _ _
    · exact ⟨id, .refl _⟩
  · dsimp only
    split
    · exact trigger_spares _ _
    · split
      · exact levelRelease_spares _ _
      · exact ⟨id, .refl _⟩
  · exact ⟨id, .refl _⟩

theorem studDelta_spares (e : Nat) (up : Bool) (s : State) : s.spares (studDelta e up s) :=
  State.spares.trans (b := s.setTrigger e { s.trigger e with stud := up }) ⟨id, .refl _⟩ (countMoved_spares _ _ _ _)

end Sys2Proof.Machine
end

section
/-! What an application and all else of RE, DT, TSU and EE reaches in a frame of the keyboard, said once: the tuning hold,
the clocks, the shutters and the chamber state stand, and a tremulant group moves by its start, its stop, or its on-count
alone. -/

namespace Sys2Proof.Machine

/-- R118, R119: a tremulant group that started at `now`, stopped, or moved its on-count alone. -/
def Trem.movesTo (x : TremGroup) (now : Nat) (v w : Trem) : Prop :=
  w = { v with onCount := w.onCount } ∨ w = x.begun now w.onCount ∨ w = { (default : Trem) with onCount := w.onCount }

theorem Trem.movesTo.refl (x : TremGroup) (now : Nat) (v : Trem) : v.movesTo x now v := .inl rfl

theorem Trem.movesTo.trans {x : TremGroup} {now : Nat} {a b c : Trem} (h : a.movesTo x now b) (k : b.movesTo x now c) :
    a.movesTo x now c := by
  rcases k with k | k
  · rcases h with h | h | h
    · exact .inl (by rw [k, h])
    · exact .inr (.inl (by rw [k, h]; rfl))
    · exact .inr (.inr (by rw [k, h]))
  · exact .inr k

/-- What a change of the keyboard reaches short of a wake. -/
structure ReachRe (s t : State) : Prop where
  frame : t = { s with
    km := t.km, dt := { t.dt with tuning := s.dt.tuning, clocks := s.dt.clocks }, pa := t.pa, cc := t.cc
    pf := s.pf.withRecord t.pf, li := t.li, ll := t.ll, ee := t.ee, tsu := { s.tsu with trems := t.tsu.trems }
    ch := { s.ch with rest := t.ch.rest }, choices := t.choices }
  trems : ∀ g x, s.tremGroup g = some x → (s.trem g).movesTo x s.now (t.trem g)
  spares : s.spares t

theorem ReachRe.refl (s : State) : ReachRe s s := ⟨rfl, fun _ _ _ => .refl _ _ _, .refl s⟩

section
variable {s t : State} (h : ReachRe s t)
include h

theorem ReachRe.now : t.now = s.now := by rw [h.frame]

theorem ReachRe.profile : t.profile = s.profile := by rw [h.frame]

theorem ReachRe.prof : t.prof = s.prof := by unfold State.prof; rw [h.profile]

theorem ReachRe.tremGroup (g : Nat) : t.tremGroup g = s.tremGroup g := by unfold State.tremGroup; rw [h.prof]

theorem ReachRe.isReady : t.isReady = s.isReady := by rw [h.frame]; rfl

theorem ReachRe.chamber : t.ch.state = s.ch.state := by rw [h.frame]

theorem ReachRe.restStart : t.restStart = s.restStart := by
  unfold State.restStart
  rw [h.prof, h.now]

end

theorem ReachRe.trans {a b c : State} (h : ReachRe a b) (k : ReachRe b c) : ReachRe a c where
  frame := by rw [k.frame, h.frame]
  trems g x found := (h.trems g x found).trans (by rw [← h.now]; exact k.trems g x (by rw [h.tremGroup]; exact found))
  spares := h.spares.trans k.spares

theorem ReachPa.re {s t : State} (h : ReachPa s t) : ReachRe s t where
  frame := by
    unfold ReachPa at h
    rw [h]
  trems g x _ := by
    have same : t.trem g = s.trem g := by
      unfold State.trem
      rw [h]
    rw [same]
    exact .refl _ _ _
  spares := h.spares

theorem ReachTrig.re {s t : State} (h : ReachTrig s t) (k : s.spares t) : ReachRe s t where
  frame := by
    unfold ReachTrig at h
    rw [h]
  trems g x _ := by
    have same : t.trem g = s.trem g := by
      unfold State.trem
      rw [h]
    rw [same]
    exact .refl _ _ _
  spares := k

theorem handOver_re {f : Frame} (other : ∀ st fault tag, f ≠ .presence st fault tag) (s : State) :
    ReachRe s (handOver f s) := (handOver_reach f s).ee.trig.re (handOver_spares other s)

/-- A write of one tremulant group. -/
theorem setTrem_re {g : Nat} {v : Trem} {s : State} (h : ∀ x, s.tremGroup g = some x → (s.trem g).movesTo x s.now v) :
    ReachRe s (s.setTrem g v) where
  frame := rfl
  trems g' x found := by
    rw [State.trem_setTrem]
    split
    · next e => subst e; exact h x found
    · exact .refl _ _ _
  spares := ⟨id, .refl _⟩

theorem State.setTrem_setTrem (g : Nat) (v w : Trem) (s : State) : (s.setTrem g v).setTrem g w = s.setTrem g w := by
  unfold State.setTrem
  dsimp only
  rw [Table.set_set]

/-- R119: a group starts from its on-count alone. -/
theorem startGroup_eq (g : Nat) (s : State) :
    startGroup g s = match s.tremGroup g with
      | none => s.setTrem g { s.trem g with running := true, locked := false, loss := none }
      | some x =>
        let v := paHold x.output (s.setTrem g (x.begun s.now (s.trem g).onCount))
        if x.mode = .lead then handOver (.beat x.tag) v else v := by
  unfold startGroup phase0At
  have same : (s.setTrem g { s.trem g with running := true, locked := false, loss := none }).tremGroup g = s.tremGroup g := rfl
  rw [same]
  cases s.tremGroup g with
  | none => rfl
  | some x =>
    dsimp only
    rw [State.setTrem_setTrem, State.trem_setTrem_self]
    rfl

theorem startGroup_re (g : Nat) (s : State) : ReachRe s (startGroup g s) := by
  rw [startGroup_eq]
  split
  · next none => exact setTrem_re fun x found => by rw [none] at found; cases found
  · next x found =>
    have begun : ReachRe s (s.setTrem g (x.begun s.now (s.trem g).onCount)) := by
      refine setTrem_re fun y found' => .inr (.inl ?_)
      obtain rfl : x = y := Option.some.inj (found.symm.trans found')
      rfl
    dsimp only
    split
    · exact (begun.trans (paHold_reach _ _).re).trans (handOver_re (fun _ _ _ => by simp) _)
    · exact begun.trans (paHold_reach _ _).re

theorem stopGroup_re (g : Nat) (s : State) : ReachRe s (stopGroup g s) := by
  have stopped : ReachRe s (s.setTrem g (stoppedTrem (s.trem g))) := setTrem_re fun _ _ => .inr (.inr rfl)
  unfold stopGroup
  dsimp only
  split
  · exact stopped
  · exact stopped.trans (paRelease_reach _ _).re

theorem groupDelta_re (g : Nat) (up : Bool) (s : State) : ReachRe s (groupDelta g up s) := by
  have counted : ∀ n, ReachRe s (s.setTrem g { s.trem g with onCount := n }) := fun n => setTrem_re fun _ _ => .inl rfl
  unfold groupDelta
  dsimp only
  split
  · split
    · exact (counted _).trans (startGroup_re _ _)
    · exact counted _
  · split
    · exact (counted _).trans (stopGroup_re _ _)
    · exact counted _

/-- DT's own counts. -/
theorem countDelta_re (s : State) (pipe single reiterate : Table Nat) (sets : Table (List Nat)) :
    ReachRe s { s with dt := { s.dt with pipe := pipe, single := single, reiterate := reiterate, sets := sets } } :=
  ⟨rfl, fun _ _ _ => .refl _ _ _, ⟨id, .refl _⟩⟩

theorem takeDelta_re (ready w : Bool) (x : State × AppLog) (d : Delta) : ReachRe x.1 (takeDelta ready w x d).1 := by
  obtain ⟨s, log⟩ := x
  unfold takeDelta
  dsimp only
  split
  · next o up =>
    have counted := countDelta_re s (s.dt.pipe.set o (moved up (s.dt.pipe.get o))) s.dt.single s.dt.reiterate s.dt.sets
    split
    · exact counted.trans (paOpen_reach _ _).re
    · split
      · exact counted.trans (paRelease_reach _ _).re
      · exact counted
  · exact countDelta_re s _ _ _ _
  · exact countDelta_re s _ _ _ _
  · split
    · exact .refl s
    · exact ⟨rfl, fun _ _ _ => .refl _ _ _, ⟨id, .refl _⟩⟩
  · exact groupDelta_re _ _ _

theorem takeDeltas_re (ready w : Bool) (l : List Delta) (x : State × AppLog) :
    ReachRe x.1 (l.foldl (takeDelta ready w) x).1 := by
  induction l generalizing x with
  | nil => exact .refl _
  | cons d rest ih => exact (takeDelta_re ready w x d).trans (ih _)

theorem actOnEffects_re (l : List (Nat × Nat × Bool)) (s : State) : ReachRe s (actOnEffects l s) :=
  foldl_reach ReachRe .refl (fun _ _ _ => .trans) _ (fun s _ => (countMoved_reach _ _ _ s).re (countMoved_spares _ _ _ s)) l s

theorem closeApplication_re (ready : Bool) (log : AppLog) (s : State) : ReachRe s (closeApplication ready log s) := by
  unfold closeApplication
  dsimp only
  generalize (if ready then log.bars else []) = bars
  split
  · exact eitherOrder_reach ReachRe (fun _ _ _ => .trans) (fun _ _ => ⟨rfl, fun _ _ _ => .refl _ _ _, ⟨id, .refl _⟩⟩)
      (f := forOutputs strikeBar bars) (fun s => (forOutputs_reach strikeBar_reach _ s).re) (actOnEffects_re _) s
  · exact (forOutputs_reach strikeBar_reach _ s).re.trans (actOnEffects_re _ _)

/-- What an application reaches. -/
theorem application_re (w : Bool) (l : List Delta) (s : State) : ReachRe s (application w l s) := by
  unfold application
  exact (takeDeltas_re _ _ l (s, _)).trans (closeApplication_re _ _ _)

theorem restartRest_re (s : State) : ReachRe s (restartRest s) := (restartRest_reach s).re (restartRest_spares s)

theorem studDeltas_re (k : Nat) (old new : Touch) (s : State) : ReachRe s (studDeltas k old new s) := by
  unfold studDeltas
  split
  · exact foldl_reach ReachRe .refl (fun _ _ _ => .trans) _ (fun s e => (studDelta_reach e true s).re (studDelta_spares _ _ _)) _ s
  · split
    · exact foldl_reach ReachRe .refl (fun _ _ _ => .trans) _ (fun s e => (studDelta_reach e false s).re (studDelta_spares _ _ _)) _ s
    · exact .refl s

theorem withKm_re (s : State) (km : Km) : ReachRe s { s with km := km } := ⟨rfl, fun _ _ _ => .refl _ _ _, ⟨id, .refl _⟩⟩

end Sys2Proof.Machine
end

section
/-! What an application reaches outside READY, where no effect is in play (R43, R65, R85, R99): counts alone. -/

namespace Sys2Proof.Machine

/-- Writing the default into the empty table leaves it. -/
theorem Table.set_empty {α : Type} [Inhabited α] [DecidableEq α] (k : Nat) {v : α} (h : v = default) :
    (Table.empty : Table α).set k v = .empty := by
  unfold Table.set
  rw [if_pos h]
  rfl

/-- Outside READY, with no effect in play. -/
structure State.hushed (s : State) : Prop where
  outside : s.isReady = false
  groups : s.ee.groups = .empty

/-- What is reached there: DT's counts, the trigger counts and the on-counts of groups that do not run. -/
structure ReachHush (s t : State) : Prop where
  frame : t = { s with
    km := t.km, dt := { t.dt with tuning := s.dt.tuning, clocks := s.dt.clocks }
    ee := { s.ee with triggers := t.ee.triggers }, tsu := { s.tsu with trems := t.tsu.trems } }
  trems : ∀ g, (s.trem g).running = false → t.trem g = { s.trem g with onCount := (t.trem g).onCount }

theorem ReachHush.refl (s : State) : ReachHush s s := ⟨rfl, fun _ _ => rfl⟩

theorem ReachHush.trans {a b c : State} (h : ReachHush a b) (k : ReachHush b c) : ReachHush a c where
  frame := by rw [k.frame, h.frame]
  trems g idle := by
    have first := h.trems g idle
    have second := k.trems g (by rw [first]; exact idle)
    rw [second, first]

theorem ReachHush.ch {s t : State} (h : ReachHush s t) : t.ch = s.ch := by rw [h.frame]

theorem ReachHush.runner {s t : State} (h : ReachHush s t) (r : Nat) : t.runner r = s.runner r := by
  unfold State.runner
  rw [h.frame]

theorem State.hushed.reach {s t : State} (h : s.hushed) (k : ReachHush s t) : t.hushed := by
  refine ⟨?_, by rw [k.frame]; exact h.groups⟩
  unfold State.isReady
  rw [k.ch]
  exact h.outside

/-- A fold of operations, each of which keeps to this. -/
theorem foldl_hush {β : Type} (f : State → β → State) (one : ∀ s x, s.hushed → ReachHush s (f s x)) (l : List β) :
    ∀ {s : State}, s.hushed → ReachHush s (l.foldl f s) := by
  induction l with
  | nil => exact fun {s} _ => .refl s
  | cons x rest ih => exact fun {s} h => (one s x h).trans (ih (h.reach (one s x h)))

theorem withKm_hush (s : State) (km : Km) : ReachHush s { s with km := km } := ⟨rfl, fun _ _ => rfl⟩

theorem countDelta_hush (s : State) (pipe single reiterate : Table Nat) (sets : Table (List Nat)) :
    ReachHush s { s with dt := { s.dt with pipe := pipe, single := single, reiterate := reiterate, sets := sets } } :=
  ⟨rfl, fun _ _ => rfl⟩

theorem setTrigger_hush (e : Nat) (v : Trigger) (s : State) : ReachHush s (s.setTrigger e v) := ⟨rfl, fun _ _ => rfl⟩

theorem restartRest_hush {s : State} (h : s.hushed) : restartRest s = s := by
  rw [restartRest_eq, h.outside]
  rfl

/-- R118, R119: outside READY a group may stop, but none starts. -/
theorem groupDelta_hush {s : State} (h : s.hushed) (g : Nat) (up : Bool) : ReachHush s (groupDelta g up s) := by
  have write : ∀ v : Trem, ((s.trem g).running = false → v = { s.trem g with onCount := v.onCount }) →
      ReachHush s (s.setTrem g v) := fun v held => by
    refine ⟨rfl, fun g' idle => ?_⟩
    rw [State.trem_setTrem]
    split
    · next e => subst e; exact held idle
    · rfl
  have outside := h.outside
  unfold groupDelta
  dsimp only
  split
  · rw [if_neg (by intro ⟨_, _, ready⟩; rw [show State.isReady (s.setTrem g _) = s.isReady from rfl, outside] at ready; cases ready)]
    exact write _ fun _ => rfl
  · split
    · next stops =>
      unfold stopGroup
      dsimp only
      rw [State.setTrem_setTrem, State.trem_setTrem_self]
      have stopped : ∀ v : Trem, ReachHush s (s.setTrem g v) := fun v => write v fun idle => by
        rw [idle] at stops
        exact absurd stops.2 (by decide)
      split
      · exact stopped _
      · rw [paRelease_notReady (by exact outside)]
        exact stopped _
    · exact write _ fun _ => rfl

theorem takeDelta_hush {s : State} (h : s.hushed) (w : Bool) (log : AppLog) (d : Delta) :
    ReachHush s (takeDelta false w (s, log) d).1 := by
  unfold takeDelta
  dsimp only
  split
  · rw [if_neg (by simp), if_neg (by simp)]
    exact countDelta_hush s _ _ _ _
  · exact countDelta_hush s _ _ _ _
  · exact countDelta_hush s _ _ _ _
  · split
    · exact .refl s
    · exact setTrigger_hush _ _ s
  · exact groupDelta_hush h _ _

theorem takeDeltas_hush (w : Bool) (l : List Delta) : ∀ {s : State} (log : AppLog), s.hushed →
    ReachHush s (l.foldl (takeDelta false w) (s, log)).1 := by
  induction l with
  | nil => exact fun {s} _ _ => .refl s
  | cons d rest ih =>
    intro s log h
    have one := takeDelta_hush h w log d
    exact one.trans (ih (takeDelta false w (s, log) d).2 (h.reach one))

/-- R85: outside READY a trigger starts nothing. -/
theorem trigger_hush {s : State} (h : s.hushed) (e : Nat) : trigger e s = s := by
  unfold trigger
  rw [h.outside]
  rfl

/-- R96: with no effect in play a LEVEL release finds nothing. -/
theorem levelRelease_hush {s : State} (h : s.hushed) (e : Nat) : levelRelease e s = s := by
  have idle : ∀ g, s.group g = default := fun g => by
    unfold State.group
    rw [h.groups]
    rfl
  have write : ∀ (g : Nat) (v : Group), v = default → s.setGroup g v = s := fun g v e => by
    have same : s.ee.groups.set g v = s.ee.groups := by rw [h.groups, Table.set_empty g e]
    unfold State.setGroup
    rw [same]
  unfold levelRelease
  dsimp only
  rw [idle]
  rw [if_neg (by simp [show (default : Group).holder = none from rfl]),
    if_neg (by simp [show (default : Group).pending = none from rfl])]
  exact write _ _ rfl

theorem countMoved_hush {s : State} (h : s.hushed) (e b : Nat) (up : Bool) : countMoved e b up s = s := by
  unfold countMoved
  rw [trigger_hush h, levelRelease_hush h]
  split
  · exact ite_self _
  · simp
  · rfl

theorem studDelta_hush {s : State} (h : s.hushed) (e : Nat) (up : Bool) : ReachHush s (studDelta e up s) := by
  have counted := setTrigger_hush e { s.trigger e with stud := up } s
  unfold studDelta
  dsimp only
  rw [countMoved_hush (h.reach counted)]
  exact counted

theorem studDeltas_hush {s : State} (h : s.hushed) (k : Nat) (old new : Touch) : ReachHush s (studDeltas k old new s) := by
  unfold studDeltas
  split
  · exact foldl_hush _ (fun _ _ hs => studDelta_hush hs _ _) _ h
  · split
    · exact foldl_hush _ (fun _ _ hs => studDelta_hush hs _ _) _ h
    · exact .refl s

/-- R43, R65, R85: outside READY an application moves counts alone. -/
theorem application_hush {s : State} (h : s.hushed) (w : Bool) (l : List Delta) : ReachHush s (application w l s) := by
  have counted := takeDeltas_hush w l { bars := [], effects := [] } h
  unfold application
  dsimp only
  rw [h.outside]
  generalize l.foldl (takeDelta false w) (s, { bars := [], effects := [] }) = x at counted ⊢
  have acted : actOnEffects x.2.effects x.1 = x.1 := by
    have still := h.reach counted
    unfold actOnEffects
    generalize x.2.effects = effects
    induction effects with
    | nil => rfl
    | cons y rest ih => rw [List.foldl_cons, countMoved_hush still, ih]
  unfold closeApplication
  dsimp only
  rw [if_neg (by simp)]
  show ReachHush s (actOnEffects x.2.effects x.1)
  rw [acted]
  exact counted

/-- R99: where the chamber is not READY no effect is in play. -/
theorem State.QuietOutsideReady.hushed {s : State} (h : s.QuietOutsideReady) (outside : s.ch.state ≠ .ready) : s.hushed :=
  ⟨by simpa [State.isReady] using outside, (h.effects outside).1⟩

end Sys2Proof.Machine
end

section
/-! A playing frame (R21, R166): its sender is heard, finds or takes a slot, and its changes follow one after the other. -/

namespace Sys2Proof.Machine

/-! ### The sender -/

/-- R21: the state in which a frame of station `a` is applied to slot `c`. -/
def State.seated (s : State) (a : Station) (c : Nat) : State :=
  { s with km := { s.km with
      slots := if s.slotOf a = some c then s.km.slots else s.km.slots.set c { station := some a, touch := .empty } } }

/-- Station `a` holds slot `c`, or takes it as the lowest free one. -/
def State.seats (s : State) (a : Station) (c : Nat) : Prop := s.slotOf a = some c ∨ s.slotOf a = none ∧ s.freeSlot = some c

theorem State.seats.withSlot_eq {s : State} {a : Station} {c : Nat} (h : s.seats a c) (detail : Nat)
    (apply : Nat → State → State) : withSlot a detail apply s = apply c (s.seated a c) := by
  unfold withSlot State.seated
  rcases h with bound | ⟨unbound, alone⟩
  · rw [bound, if_pos rfl]
  · rw [unbound, if_neg (by simp)]
    simp only [alone]
    rfl

theorem State.seated_slot (s : State) (a : Station) (c c' : Nat) : (s.seated a c).slot c' =
    if s.slotOf a = some c then s.slot c' else if c' = c then { station := some a, touch := .empty } else s.slot c' := by
  unfold State.seated State.slot
  dsimp only
  split
  · rfl
  · exact Table.get_set _ _ _ _

/-- R21: the sender's slot is then `c`. -/
theorem State.seats.slotOf_seated {s : State} {a : Station} {c : Nat} (h : s.seats a c) : (s.seated a c).slotOf a = some c := by
  unfold State.slotOf
  rw [List.find?_range_eq_some]
  rcases h with bound | ⟨unbound, alone⟩
  · have found := bound
    unfold State.slotOf at found
    rw [List.find?_range_eq_some] at found
    simp only [State.seated_slot, if_pos bound]
    exact found
  · have low : c ∈ List.range 4 := List.mem_of_find?_eq_some alone
    have others : ∀ j, j < 4 → (s.slot j).station ≠ some a := fun j l e => by
      have := List.find?_eq_none.1 unbound j (List.mem_range.2 l)
      simp [e] at this
    have free : ¬ s.slotOf a = some c := by rw [unbound]; simp
    simp only [State.seated_slot, if_neg free]
    refine ⟨by simp, low, fun j lt => ?_⟩
    have := List.mem_range.1 low
    rw [if_neg (by omega)]
    simpa using others j (by omega)

/-- The bindings say which slot is a station's. -/
theorem State.slotOf_congr {s t : State} (h : ∀ c, (t.slot c).station = (s.slot c).station) (a : Station) :
    t.slotOf a = s.slotOf a := by
  unfold State.slotOf
  simp only [h]

theorem State.seated_of_bound {s : State} {a : Station} {c : Nat} (h : s.slotOf a = some c) : s.seated a c = s := by
  unfold State.seated
  rw [if_pos h]

/-! ### Hearing -/

/-- R166, R168: a station that has just been heard is heard again at that moment without a change. -/
theorem State.hearing_again {s v : State} {t : Nat} {a : Station} (now : v.now = (s.hearing t a).now)
    (pt : v.pt = (s.hearing t a).pt) : v.hearing t a = v := by
  have clock : max v.now t = v.now := by
    rw [now]
    show max (max s.now t) t = max s.now t
    omega
  have entry : v.peer a = (s.hearing t a).peer a := by
    unfold State.peer
    rw [pt]
  have own : (s.hearing t a).peer a =
      { state := .heard, announced := (s.peer a).announced, silence := some (max s.now t + 600000)
        crossed := if (s.at t).silenceOver a then some { moment := max s.now t, presence := false }
          else (s.peer a).crossed } := Table.get_set_self _ _ _
  have late : (v.at t).silenceOver a = false := by
    rw [Bool.eq_false_iff, Ne, silenceOver_iff]
    rintro ⟨-, due, runs, past⟩
    have same : ((v.at t).peer a).silence = some (max s.now t + 600000) := by
      rw [show (v.at t).peer a = v.peer a from rfl, entry, own]
    have moment : (v.at t).now = max s.now t := clock.trans now
    rw [same] at runs
    rw [moment] at past
    cases runs
    omega
  have again : v.pt.set a.val (v.peer a) = v.pt := by
    rw [entry, own, pt]
    exact Table.set_set _ _ _ _
  have kept : ({ state := .heard, announced := (v.peer a).announced, silence := some (max v.now t + 600000)
                 crossed := if (v.at t).silenceOver a then some { moment := max v.now t, presence := false }
                   else (v.peer a).crossed } : Peer) = v.peer a := by
    rw [late, clock, now, entry, own]
    rfl
  unfold State.hearing
  rw [kept, again]
  show { v with now := max v.now t, pt := v.pt } = v
  rw [clock]

/-! ### Frames -/

/-- R105: runner 0 waits, or is idle. -/
def State.waits (s : State) : Prop := ∀ c, s.runner 0 = some c → c.waiting ≠ .running

/-- A playing frame of a station that has or finds a slot. -/
theorem playing_eq {t : Nat} {a : Station} {c detail : Nat} {apply : Nat → State → State} {s : State} (h : s.serves)
    (seats : s.seats a c) :
    frame t a (accepted (withSlot a detail apply)) s = .next (runChamber (apply c ((s.hearing t a).seated a c))) := by
  have seats' : (s.hearing t a).seats a c := seats
  rw [frame_eq h.1, accepted_run (show (s.hearing t a).profile.isSome = true from h.2), seats'.withSlot_eq]

theorem State.waits.runChamber_eq {s : State} (h : s.waits) : runChamber s = s := runChamber_waits h

/-- R14, R24, R29: a frame of several changes is a frame of the first of them and then one of the others, taken at the same
moment, if runner 0 waits in between. -/
theorem playing_append {β : Type} {t : Nat} {a : Station} {c detail : Nat} {g : Nat → State → β → State} {s : State}
    (h : s.serves) (seats : s.seats a c) (reach : ∀ c s x, ReachKm s (g c s x))
    (stations : ∀ c s x c', ((g c s x).slot c').station = (s.slot c').station) (first rest : List β)
    (waits : (first.foldl (g c) ((s.hearing t a).seated a c)).waits)
    (chamber : (first.foldl (g c) ((s.hearing t a).seated a c)).ch.state ≠ .profileFault) :
    ∃ v, frame t a (accepted (withSlot a detail fun c s => first.foldl (g c) s)) s = .next v ∧
      frame t a (accepted (withSlot a detail fun c s => rest.foldl (g c) s)) v =
        frame t a (accepted (withSlot a detail fun c s => (first ++ rest).foldl (g c) s)) s := by
  have seats' : (s.hearing t a).seats a c := seats
  have reached : ReachKm ((s.hearing t a).seated a c) (first.foldl (g c) ((s.hearing t a).seated a c)) :=
    foldl_reach ReachKm .refl (fun _ _ _ => .trans) _ (reach c) first _
  have bound : ∀ c', ((first.foldl (g c) ((s.hearing t a).seated a c)).slot c').station =
      (((s.hearing t a).seated a c).slot c').station := fun c' =>
    foldl_reach (fun s t => (t.slot c').station = (s.slot c').station) (fun _ => rfl) (fun _ _ _ h k => k.trans h) _
      (fun s x => stations c s x c') first _
  refine ⟨_, (playing_eq h seats).trans (by rw [waits.runChamber_eq]), ?_⟩
  rw [playing_eq h seats, List.foldl_append]
  generalize first.foldl (g c) ((s.hearing t a).seated a c) = v at *
  have slot : v.slotOf a = some c := (State.slotOf_congr bound a).trans seats'.slotOf_seated
  have serves : v.serves := by
    refine ⟨⟨⟨?_, waits⟩, chamber⟩, ?_⟩
    · rw [reached.pf]
      exact h.1.1.1
    · rw [reached.profile]
      exact h.2
  have heard : v.hearing t a = v := State.hearing_again reached.now reached.pt
  rw [playing_eq serves (.inl slot), heard, State.seated_of_bound slot]

/-! ### Runner 0 after a frame -/

theorem chamberEnded_ready (sc : Script) {s : State} (h : s.ch.state = .ready) : chamberEnded sc s = s := by
  unfold chamberEnded
  rw [h]
  cases sc <;> rfl

/-- R105: in READY a pass of runner 0 leaves the chamber state. -/
theorem runChamber_ready {s : State} (h : s.ch.state = .ready) : ReachEe s (runChamber s) := by
  unfold runChamber
  split
  · exact .refl s
  · next c _ =>
    split
    · have pass := runPass_reach 0 c s
      have write : ∀ (v : Option Context) (u : State), ReachEe s u → ReachEe s (u.setRunner 0 v) := fun _ _ reach => reach.trans rfl
      split
      · next c' s' e =>
        rw [e] at pass
        have still : (s'.setRunner 0 none).ch.state = .ready := by
          rw [(write none s' pass)]
          exact h
        rw [chamberEnded_ready _ still]
        exact write _ _ pass
      · next e =>
        rw [e] at pass
        exact write _ _ pass
    · exact .refl s

end Sys2Proof.Machine
end

section
/-! O15: STOPS (R29), one stop after the other. -/

namespace Sys2Proof.Machine

/-! ### One change -/

/-- R17, R29: a change that moves a stop is one application, and restarts the rest timer. -/
theorem stopChange_moved {s : State} {x : Fin 1024 × Bool} (h : s.prof.hasStop x.1.val = true ∧ s.km.stopOn.get x.1.val ≠ x.2) :
    stopChange s x = restartRest (application false (stopDeltas s.prof s.mergedTouch s.hasPizz x.1.val x.2)
      { s with km := { s.km with stopOn := s.km.stopOn.set x.1.val x.2 } }) := if_pos h

theorem stopChange_still {s : State} {x : Fin 1024 × Bool}
    (h : ¬ (s.prof.hasStop x.1.val = true ∧ s.km.stopOn.get x.1.val ≠ x.2)) : stopChange s x = s := if_neg h

theorem restartRest_km (s : State) : (restartRest s).km = s.km := by
  rw [restartRest_eq]
  split <;> rfl

theorem stopChange_km (s : State) (x : Fin 1024 × Bool) :
    (stopChange s x).km = { s.km with stopOn := (stopChange s x).km.stopOn } := by
  by_cases moved : s.prof.hasStop x.1.val = true ∧ s.km.stopOn.get x.1.val ≠ x.2
  · rw [stopChange_moved moved, restartRest_km, application_km]
  · rw [stopChange_still moved]

theorem stopChange_stopOn (s : State) (x : Fin 1024 × Bool) (n : Nat) :
    (stopChange s x).km.stopOn.get n = if s.prof.hasStop n = true ∧ x.1.val = n then x.2 else s.km.stopOn.get n := by
  by_cases moved : s.prof.hasStop x.1.val = true ∧ s.km.stopOn.get x.1.val ≠ x.2
  · rw [stopChange_moved moved, restartRest_km, application_km]
    show (s.km.stopOn.set x.1.val x.2).get n = _
    rw [Table.get_set]
    refine if_congr ⟨?_, ?_⟩ rfl rfl
    · rintro rfl
      exact ⟨moved.1, rfl⟩
    · exact fun h => h.2.symm
  · rw [stopChange_still moved]
    split
    · next h =>
      obtain ⟨has, rfl⟩ := h
      by_contra differs
      exact moved ⟨has, differs⟩
    · rfl

theorem stopChange_re (s : State) (x : Fin 1024 × Bool) : ReachRe s (stopChange s x) := by
  by_cases moved : s.prof.hasStop x.1.val = true ∧ s.km.stopOn.get x.1.val ≠ x.2
  · rw [stopChange_moved moved]
    exact ((withKm_re s _).trans (application_re _ _ _)).trans (restartRest_re _)
  · rw [stopChange_still moved]
    exact .refl s

theorem stopChange_hush (s : State) (x : Fin 1024 × Bool) (h : s.hushed) : ReachHush s (stopChange s x) := by
  by_cases moved : s.prof.hasStop x.1.val = true ∧ s.km.stopOn.get x.1.val ≠ x.2
  · have keyed := withKm_hush s { s.km with stopOn := s.km.stopOn.set x.1.val x.2 }
    have taken := application_hush (h.reach keyed) false (stopDeltas s.prof s.mergedTouch s.hasPizz x.1.val x.2)
    rw [stopChange_moved moved, restartRest_hush ((h.reach keyed).reach taken)]
    exact keyed.trans taken
  · rw [stopChange_still moved]
    exact .refl s

theorem stopChange_station (s : State) (x : Fin 1024 × Bool) (c : Nat) :
    ((stopChange s x).slot c).station = (s.slot c).station := by
  unfold State.slot
  rw [stopChange_km]

/-! ### All of a frame's changes -/

theorem stopChanges_re (l : List (Fin 1024 × Bool)) (s : State) : ReachRe s (l.foldl stopChange s) :=
  foldl_reach ReachRe .refl (fun _ _ _ => .trans) _ stopChange_re l s

theorem stopChanges_hush (l : List (Fin 1024 × Bool)) {s : State} (h : s.hushed) : ReachHush s (l.foldl stopChange s) :=
  foldl_hush stopChange stopChange_hush l h

theorem stopChanges_km (l : List (Fin 1024 × Bool)) : ∀ s : State,
    (l.foldl stopChange s).km = { s.km with stopOn := (l.foldl stopChange s).km.stopOn } := by
  induction l with
  | nil => exact fun _ => rfl
  | cons x rest ih =>
    intro s
    rw [List.foldl_cons, ih, stopChange_km]

/-- R29: each stop of the stop table has the state of its last change. -/
theorem stopChanges_stopOn (l : List (Fin 1024 × Bool)) (n : Nat) : ∀ s : State,
    (l.foldl stopChange s).km.stopOn.get n =
      if s.prof.hasStop n then (lastChange l n).getD (s.km.stopOn.get n) else s.km.stopOn.get n := by
  induction l with
  | nil => intro s; simp [lastChange]
  | cons x rest ih =>
    intro s
    rw [List.foldl_cons, ih, (stopChange_re s x).prof, stopChange_stopOn, lastChange_cons]
    by_cases has : s.prof.hasStop n = true
    · rw [if_pos has, if_pos has]
      cases lastChange rest n with
      | some v => rfl
      | none => by_cases e : x.1.val = n <;> simp [e, has]
    · rw [if_neg has, if_neg has, if_neg fun h => has h.1]

/-- R29, R144: in READY the changes that move no stop leave the state, and any other restarts the rest timer. -/
theorem stopChanges_rest (l : List (Fin 1024 × Bool)) : ∀ {s : State}, s.isReady = true →
    l.foldl stopChange s = s ∨ (l.foldl stopChange s).ch.rest = s.restStart := by
  induction l with
  | nil => exact fun _ => .inl rfl
  | cons x rest ih =>
    intro s ready
    have reach := stopChange_re s x
    rw [List.foldl_cons]
    rcases ih (s := stopChange s x) (by rw [reach.isReady]; exact ready) with still | restarted
    · rw [still]
      by_cases moved : s.prof.hasStop x.1.val = true ∧ s.km.stopOn.get x.1.val ≠ x.2
      · refine .inr ?_
        rw [stopChange_moved moved, restartRest_rest, (application_re _ _ _).isReady, (application_re _ _ _).restStart]
        exact if_pos ready
      · exact .inl (stopChange_still moved)
    · exact .inr (restarted.trans reach.restStart)

/-- Changes that name the state that their stops have leave everything. -/
theorem stopChanges_still (l : List (Fin 1024 × Bool)) {s : State}
    (h : ∀ x ∈ l, s.prof.hasStop x.1.val = true → x.2 = s.km.stopOn.get x.1.val) : l.foldl stopChange s = s := by
  induction l with
  | nil => rfl
  | cons x rest ih =>
    rw [List.foldl_cons, stopChange_still fun moved => moved.2 (h x List.mem_cons_self moved.1).symm]
    exact ih fun y m => h y (List.mem_cons_of_mem _ m)

/-! ### A stop of one TREM entry -/

/-- Lists that the members of one kind give, where one member alone is of it. -/
theorem flatten_alone {α β : Type} {own : α → Prop} [DecidablePred own] {l : List α} {e : α} (f : α → List β)
    (alone : l.filter (fun x => decide (own x)) = [e]) : (l.map fun x => if own x then f x else []).flatten = f e := by
  have kept : ∀ l : List α, (l.map fun x => if own x then f x else []).flatten =
      ((l.filter fun x => decide (own x)).map f).flatten := by
    intro l
    induction l with
    | nil => rfl
    | cons x rest ih => by_cases h : own x <;> simp [h, ih]
  rw [kept, alone]
  simp

/-- R17: the deltas of a stop of one TREM entry alone. -/
theorem stopDeltas_trem {p : Profile} {touch : Nat → Nat → Touch} {pizz : Nat → Nat → Bool} {n : Nat} {up : Bool}
    {e : StopEntry} {g : Nat} (alone : p.entries.filter (fun e => decide (e.stop = n)) = [e]) (kind : e.kind = .trem g) :
    stopDeltas p touch pizz n up = [.group g up] := by
  unfold stopDeltas
  rw [flatten_alone _ alone, kind]

/-- R118: an application of one on-count. -/
theorem application_group (w : Bool) (g : Nat) (up : Bool) (s : State) : application w [.group g up] s = groupDelta g up s := by
  unfold application closeApplication
  dsimp only [List.foldl_cons, List.foldl_nil, takeDelta]
  rw [if_neg (by simp)]
  simp [actOnEffects, forOutputs]

end Sys2Proof.Machine
end

section
/-! O15: what a STOPS frame leaves, and the stop of one tremulant group. -/

namespace Sys2Proof.Machine

/-! ### Requests and the rest timer -/

/-- The rest timer is `r`. -/
def State.withRest (s : State) (r : Option Nat) : State := { s with ch := { s.ch with rest := r } }

theorem PaRequest.withRest {f : State → State} (h : PaRequest f) (reach : ∀ s, ReachPa s (f s)) (r : Option Nat) (s : State) :
    f (s.withRest r) = (f s).withRest r := by
  obtain ⟨alike, recorded⟩ := h s (s.withRest r) ⟨rfl, rfl, rfl, rfl, rfl⟩
  have left := reach (s.withRest r)
  have right := reach s
  unfold ReachPa at left right
  rw [left, alike.pa, alike.cc, recorded rfl]
  unfold State.withRest
  rw [right]

theorem restartRest_withRest (s : State) : restartRest s = s.withRest (restartRest s).ch.rest := by
  rw [restartRest_eq]
  split <;> rfl

/-! ### A BEAT handed over -/

/-- R160: a BEAT takes the place of a waiting one of its tag, which it equals. -/
theorem replaceIn_beat (tag : Fin 16) (l : List Queued) : replaceIn (.beat tag) l = l := by
  unfold replaceIn
  refine (List.map_congr_left fun q _ => ?_).trans (List.map_id l)
  obtain ⟨f, age⟩ := q
  cases f with
  | beat b =>
    by_cases e : tag = b <;> simp [Frame.sameSlot, e]
  | presence _ _ _ | report _ | mark _ _ => simp [Frame.sameSlot]

theorem Frame.sameSlot_beat {tag : Fin 16} {f : Frame} : Frame.sameSlot (.beat tag) f = true ↔ f = .beat tag := by
  cases f with
  | beat b =>
    simp only [Frame.sameSlot, beq_iff_eq, Frame.beat.injEq]
    exact eq_comm
  | presence _ _ _ | report _ | mark _ _ => simp [Frame.sameSlot]

/-- R160: a BEAT handed over moves LI's queue alone. -/
theorem handOver_beat (tag : Fin 16) (s : State) : handOver (.beat tag) s =
    { s with li := { s.li with queue :=
      if s.li.mute = false ∧ (∀ q ∈ s.li.queue, q.frame ≠ .beat tag) ∧ s.li.queue.length < 8 then
        s.li.queue ++ [{ frame := .beat tag, age := s.now }]
      else s.li.queue } } := by
  have waiting : s.li.queue.any (fun q => Frame.sameSlot (.beat tag) q.frame) = true ↔
      ¬ ∀ q ∈ s.li.queue, q.frame ≠ .beat tag := by
    simp [Frame.sameSlot_beat]
  unfold handOver
  rw [replaceIn_beat]
  by_cases mute : s.li.mute = true
  · rw [if_pos mute, if_neg fun h => by rw [mute] at h; cases h.1]
  · rw [if_neg mute]
    by_cases waits : s.li.queue.any (fun q => Frame.sameSlot (.beat tag) q.frame) = true
    · rw [if_pos waits, if_neg fun h => waiting.1 waits h.2.1]
    · rw [if_neg waits]
      have none := not_not.1 (mt waiting.2 waits)
      by_cases room : s.li.queue.length < 8
      · rw [if_pos room, if_pos ⟨by simpa using mute, none, room⟩]
      · rw [if_neg room, if_neg fun h => room h.2.2]

theorem handOver_beat_after (tag : Fin 16) (s : State) :
    (handOver (.beat tag) s).li = { s.li with queue := (handOver (.beat tag) s).li.queue } ∧
      s.li.afterBeat tag s.now (handOver (.beat tag) s).li.queue := by
  rw [handOver_beat]
  refine ⟨rfl, fun mute => if_neg fun h => ?_, fun speaks none => ?_, fun before after age waits _ => if_neg fun h => ?_⟩
  · rw [mute] at h
    cases h.1
  · exact if_congr ⟨fun h => h.2.2, fun room => ⟨speaks, none, room⟩⟩ rfl rfl
  · refine h.2.1 { frame := .beat tag, age := age } ?_ rfl
    rw [waits]
    simp

/-! ### A STOPS frame -/

/-- What a frame reaches, runner 0's pass included. -/
theorem ReachRe.then_ee {s t u : State} (h : ReachRe s t) (k : ReachEe t u) : u = { s with
    km := t.km, dt := { t.dt with tuning := s.dt.tuning, clocks := s.dt.clocks }, pa := u.pa, cc := u.cc
    pf := s.pf.withRecord u.pf, li := u.li, ll := u.ll, ee := u.ee, tsu := { s.tsu with trems := t.tsu.trems }
    ch := { s.ch with rest := t.ch.rest }, choices := t.choices } := by
  rw [k, h.frame]

/-- In a chamber of sound scripts runner 0 is idle in READY. -/
theorem State.ChamberSound.idle_ready {s : State} (h : s.ChamberSound) (ready : s.ch.state = .ready) : s.runner 0 = none := by
  cases e : s.runner 0 with
  | none => rfl
  | some c =>
    have script := (h.scripted c e).2
    rw [ready] at script
    unfold Script.chamberState at script
    cases k : c.script <;> rw [k] at script <;> cases script

section
variable {s : State} {t : Nat} {a : Station} {c : Nat} {l : List (Fin 1024 × Bool)}

/-- Outside READY a STOPS frame leaves CH and the runners. -/
theorem stopFrame_hush (quiet : s.QuietOutsideReady) (outside : s.ch.state ≠ .ready) :
    ReachHush ((s.hearing t a).seated a c) (l.foldl stopChange ((s.hearing t a).seated a c)) := by
  have hushed := quiet.hushed outside
  exact stopChanges_hush l ⟨hushed.outside, hushed.groups⟩

/-- Runner 0 waits after the changes of a STOPS frame. -/
theorem stopFrame_waits (serves : s.serves) (quiet : s.QuietOutsideReady) (sound : s.ch.state = .ready → s.ChamberSound) :
    (l.foldl stopChange ((s.hearing t a).seated a c)).waits := by
  intro x found
  by_cases ready : s.ch.state = .ready
  · have idle := (stopChanges_re l ((s.hearing t a).seated a c)).spares.1 ((sound ready).idle_ready ready)
    rw [idle] at found
    cases found
  · rw [(stopFrame_hush quiet ready).runner 0] at found
    exact serves.1.1.2 x found

/-- Runner 0's pass after the changes of a STOPS frame. -/
theorem stopFrame_pass (serves : s.serves) (quiet : s.QuietOutsideReady) :
    ReachEe (l.foldl stopChange ((s.hearing t a).seated a c)) (runChamber (l.foldl stopChange ((s.hearing t a).seated a c))) := by
  by_cases ready : s.ch.state = .ready
  · exact runChamber_ready ((stopChanges_re l ((s.hearing t a).seated a c)).chamber.trans ready)
  · rw [(stopFrame_waits serves quiet fun h => absurd h ready).runChamber_eq]
    exact .refl _

end

/-- R118, R119: a change of the on-count of a profile's group, taken in a state whose group is `v`. -/
theorem groupDelta_cases {g : Nat} {x : TremGroup} {s : State} (group : s.tremGroup g = some x) :
    (let starts := (s.trem g).onCount = 0 ∧ (s.trem g).running = false ∧ s.isReady = true
     (starts → groupDelta g true s =
        (let v := paHold x.output (s.setTrem g (x.begun s.now 1))
         if x.mode = .lead then handOver (.beat x.tag) v else v)) ∧
     (¬ starts → groupDelta g true s = s.setTrem g { s.trem g with onCount := (s.trem g).onCount + 1 })) ∧
    (let stops := (s.trem g).onCount ≤ 1 ∧ (s.trem g).running = true
     (stops → groupDelta g false s =
        paRelease x.output (s.setTrem g { (default : Trem) with onCount := (s.trem g).onCount - 1 })) ∧
     (¬ stops → groupDelta g false s = s.setTrem g { s.trem g with onCount := (s.trem g).onCount - 1 })) := by
  have same : ∀ v : Trem, (s.setTrem g v).tremGroup g = some x := fun _ => group
  refine ⟨⟨fun starts => ?_, fun stays => ?_⟩, fun stops => ?_, fun stays => ?_⟩
  · unfold groupDelta
    dsimp only
    rw [if_pos rfl]
    refine (if_pos starts).trans ?_
    rw [startGroup_eq, same]
    dsimp only
    rw [State.setTrem_setTrem, State.trem_setTrem_self, starts.1]
    rfl
  · unfold groupDelta
    dsimp only
    rw [if_pos rfl]
    exact if_neg stays
  · unfold groupDelta
    dsimp only
    rw [if_neg (by decide), if_pos stops]
    unfold stopGroup
    dsimp only
    rw [State.setTrem_setTrem, State.trem_setTrem_self, same]
    rfl
  · unfold groupDelta
    dsimp only
    rw [if_neg (by decide)]
    exact if_neg stays

end Sys2Proof.Machine
end

section
/-! O15 settled. -/

namespace Sys2Proof.Machine

/-- R119: a group that starts, or stops, as `Trem.movesTo` gives it. -/
theorem Trem.movesTo.starts {x : TremGroup} {now : Nat} {v w : Trem} (h : v.movesTo x now w) (was : v.running = false)
    (is : w.running = true) : w = x.begun now w.onCount := by
  rcases h with h | h | h
  · rw [h] at is
    exact absurd (was.symm.trans is) (by decide)
  · exact h
  · rw [h] at is
    cases is

theorem Trem.movesTo.stops {x : TremGroup} {now : Nat} {v w : Trem} (h : v.movesTo x now w) (was : v.running = true)
    (is : w.running = false) : w = { (default : Trem) with onCount := w.onCount } := by
  rcases h with h | h | h
  · rw [h] at is
    exact absurd (was.symm.trans is) (by decide)
  · rw [h] at is
    cases is
  · exact h

section
variable {s : State} {t : Nat} {a : Station} {c : Nat} {n : Fin 1024} {up : Bool}

/-- R17, R29: one change that moves a stop, taken by RE as one application of its deltas. -/
theorem stopFrame_single (has : s.prof.hasStop n.val = true) (moves : s.km.stopOn.get n.val ≠ up) :
    let w := [(n, up)].foldl stopChange ((s.hearing t a).seated a c)
    w = restartRest (application false (stopDeltas s.prof s.mergedTouch s.hasPizz n.val up)
      { s.hearing t a with km := w.km }) := by
  have moved : stopChange ((s.hearing t a).seated a c) (n, up) = _ := stopChange_moved (x := (n, up)) ⟨has, moves⟩
  have km := congrArg State.km moved
  rw [restartRest_km, application_km] at km
  dsimp only [List.foldl_cons, List.foldl_nil]
  rw [km]
  exact moved

/-- R17: the same, with the rest timer apart. -/
theorem restartRest_application {w v : State} {deltas : List Delta} {r : Km}
    (h : w = restartRest (application false deltas { v with km := r })) :
    w = { application false deltas { v with km := r } with ch := { v.ch with rest := w.ch.rest } } := by
  have frame := (application_re false deltas { v with km := r }).frame
  rw [h, restartRest_withRest]
  generalize application false deltas { v with km := r } = x at frame ⊢
  generalize (restartRest x).ch.rest = rest
  show x.withRest rest = { x with ch := { v.ch with rest := rest } }
  rw [frame]
  rfl

end

/-- R118 to R121: the stop of one TREM entry alone, with the rest timer and KM apart. -/
theorem stopFrame_trem {s w : State} {now : Nat} {g : Nat} {x : TremGroup} {up : Bool} {v : Trem} {km : Km}
    (h : w = restartRest (groupDelta g up { s with km := km })) (group : s.tremGroup g = some x) (clock : s.now = now)
    (trem : s.trem g = v) :
    let drawn : State := { s with km := km, ch := { s.ch with rest := w.ch.rest } }
    let starts := v.onCount = 0 ∧ v.running = false ∧ s.ch.state = .ready
    let stops := v.onCount ≤ 1 ∧ v.running = true
    (up = true → starts →
      w = { paHold x.output (drawn.setTrem g (x.begun now 1)) with li := w.li } ∧ (x.mode ≠ .lead → w.li = s.li) ∧
      (x.mode = .lead → w.li = { s.li with queue := w.li.queue } ∧ s.li.afterBeat x.tag now w.li.queue)) ∧
    (up = true → ¬ starts → w = drawn.setTrem g { v with onCount := v.onCount + 1 }) ∧
    (up = false → stops →
      w = paRelease x.output (drawn.setTrem g { (default : Trem) with onCount := v.onCount - 1 })) ∧
    (up = false → ¬ stops → w = drawn.setTrem g { v with onCount := v.onCount - 1 }) := by
  subst clock trem
  rw [restartRest_withRest] at h
  generalize (restartRest (groupDelta g up { s with km := km })).ch.rest = rest at h
  have written : w.ch.rest = rest := by rw [h]; rfl
  rw [written]
  have ready : State.isReady { s with km := km } = true ↔ s.ch.state = .ready := by simp [State.isReady]
  obtain ⟨⟨starts, counts⟩, stops, falls⟩ := groupDelta_cases (s := { s with km := km }) group
  refine ⟨fun isUp begins => ?_, fun isUp stays => ?_, fun isDown ends => ?_, fun isDown stays => ?_⟩
  · subst isUp
    rw [starts ⟨begins.1, begins.2.1, ready.2 begins.2.2⟩] at h
    have held := (paHold_request x.output).withRest (paHold_reach x.output) rest
      (State.setTrem g (x.begun s.now 1) { s with km := km })
    have li : (paHold x.output (State.setTrem g (x.begun s.now 1) { s with km := km })).li = s.li := by
      rw [paHold_reach x.output (State.setTrem g (x.begun s.now 1) { s with km := km })]
      rfl
    have now : (paHold x.output (State.setTrem g (x.begun s.now 1) { s with km := km })).now = s.now := by
      rw [paHold_reach x.output (State.setTrem g (x.begun s.now 1) { s with km := km })]
      rfl
    have drawn : State.withRest (State.setTrem g (x.begun s.now 1) { s with km := km }) rest =
        State.setTrem g (x.begun s.now 1) { s with km := km, ch := { s.ch with rest := rest } } := rfl
    rw [drawn] at held
    rw [held]
    generalize paHold x.output (State.setTrem g (x.begun s.now 1) { s with km := km }) = p at *
    dsimp only at h
    by_cases lead : x.mode = .lead
    · rw [if_pos lead] at h
      obtain ⟨own, after⟩ := handOver_beat_after x.tag p
      rw [li, now] at after
      rw [li] at own
      have same : w.li = (handOver (.beat x.tag) p).li := by rw [h]; rfl
      refine ⟨?_, fun other => absurd lead other, fun _ => by rw [same]; exact ⟨own, after⟩⟩
      rw [h, handOver_beat]
      rfl
    · rw [if_neg lead] at h
      refine ⟨by rw [h], fun _ => by rw [h]; exact li, fun is => absurd is lead⟩
  · subst isUp
    rw [counts fun begins => stays ⟨begins.1, begins.2.1, ready.1 begins.2.2⟩] at h
    exact h
  · subst isDown
    rw [stops ends, ← (paRelease_request x.output).withRest (paRelease_reach x.output)] at h
    exact h
  · subst isDown
    rw [falls stays] at h
    exact h

/-- Settles O15: the changes of a STOPS frame are taken one after the other, each that moves a stop as one application;
in READY runner 0's pass after them leaves CH, and elsewhere there is none. -/
theorem stopsSetTheNamedStops : Obligations.StopsSetTheNamedStops := by
  intro t a changes c s serves quiet seats
  have run : exec (.stops t a changes) s =
      .next (runChamber (changes.foldl stopChange ((s.hearing t a).seated a c))) := playing_eq serves seats
  have pass := stopFrame_pass (t := t) (a := a) (c := c) (l := changes) serves quiet
  have reach := stopChanges_re changes ((s.hearing t a).seated a c)
  have whole := reach.then_ee pass
  have waits := stopFrame_waits (t := t) (a := a) (c := c) (l := changes) serves quiet
  have hush := stopFrame_hush (t := t) (a := a) (c := c) (l := changes) quiet
  have km := stopChanges_km changes ((s.hearing t a).seated a c)
  have stops := stopChanges_stopOn changes (s := (s.hearing t a).seated a c)
  have rests := stopChanges_rest changes (s := (s.hearing t a).seated a c)
  have still := stopChanges_still changes (s := (s.hearing t a).seated a c)
  have single : ∀ n up, changes = [(n, up)] → s.prof.hasStop n.val = true → s.km.stopOn.get n.val ≠ up →
      changes.foldl stopChange ((s.hearing t a).seated a c) =
        restartRest (application false (stopDeltas s.prof s.mergedTouch s.hasPizz n.val up)
          { s.hearing t a with km := (changes.foldl stopChange ((s.hearing t a).seated a c)).km }) := by
    rintro n up rfl has moves
    exact stopFrame_single has moves
  have alone : ∀ n up e g, changes = [(n, up)] → s.prof.entries.filter (fun e => decide (e.stop = n.val)) = [e] →
      e.kind = .trem g → s.km.stopOn.get n.val ≠ up →
      changes.foldl stopChange ((s.hearing t a).seated a c) =
        restartRest (groupDelta g up
          { s.hearing t a with km := (changes.foldl stopChange ((s.hearing t a).seated a c)).km }) := by
    intro n up e g one entry kind moves
    have member : e ∈ s.prof.entries.filter (fun e => decide (e.stop = n.val)) := by rw [entry]; simp
    obtain ⟨listed, own⟩ := List.mem_filter.1 member
    have has : s.prof.hasStop n.val = true := List.any_eq_true.2 ⟨e, listed, by simpa using own⟩
    have taken := single n up one has moves
    rw [stopDeltas_trem entry kind, application_group] at taken
    exact taken
  generalize hb : (s.hearing t a).seated a c = b at *
  generalize hw : changes.foldl stopChange b = w at *
  generalize hu : runChamber w = u at *
  have kmOf : u.km = w.km := by rw [whole]
  have restOf : u.ch.rest = w.ch.rest := by rw [whole]
  refine ⟨u, run, fun n => ?stopOn, fun ready ⟨n, moved⟩ => ?restarts, fun rest => ?rests, fun g x _ group => ?groups,
    fun sound => ⟨fun n up one has moves => ?single, fun first rest split => ?sequence⟩,
    fun n up e g x one entry kind group moves => ?trem, ?frame⟩
  case stopOn =>
    rw [kmOf, stops n]
    subst hb
    rfl
  case restarts =>
    rw [restOf]
    subst hb
    rcases rests (show s.isReady = true by simpa [State.isReady] using ready) with none | restarted
    · rw [kmOf, none] at moved
      exact absurd rfl moved
    · exact restarted
  case rests =>
    rw [restOf]
    by_cases ready : s.ch.state = .ready
    · have none := rest.resolve_left fun outside => outside ready
      subst hb
      rw [still none]
      rfl
    · rw [(hush ready).ch, ← hb]
      rfl
  case groups =>
    have trem : u.trem g = w.trem g := by
      unfold State.trem
      rw [whole]
    subst hb
    have moves := reach.trems g x group
    rw [trem]
    exact ⟨moves.starts, moves.stops⟩
  case single =>
    have same : u = w := hu.symm.trans (waits fun _ => sound).runChamber_eq
    rw [kmOf, same]
    exact restartRest_application (single n up one has moves)
  case sequence =>
    subst hb hw hu
    have waits' := stopFrame_waits (t := t) (a := a) (c := c) (l := first) serves quiet fun _ => sound
    obtain ⟨v, before, after⟩ := playing_append (g := fun _ => stopChange) (detail := stopsDetail) serves seats
      (fun _ => stopChange_reach) (fun _ => stopChange_station) first rest waits' (by
        rw [(stopChanges_re first _).chamber]
        exact serves.1.2)
    exact ⟨v, before, after.trans (split ▸ run)⟩
  case trem =>
    have taken := alone n up e g one entry kind moves
    have idle : w.runner 0 = s.runner 0 := by
      have reachTsu := groupDelta_reach g up { s.hearing t a with km := w.km }
      have same : ∀ v : State, (restartRest v).runner 0 = v.runner 0 := fun v => by
        rw [restartRest_withRest]
        rfl
      rw [taken, same]
      unfold State.runner
      rw [reachTsu]
      rfl
    have same : u = w := hu.symm.trans (runChamber_waits (by rw [idle]; exact serves.1.1.2))
    rw [same]
    exact stopFrame_trem (s := s.hearing t a) taken group rfl rfl
  case frame =>
    rw [whole, km, ← hb]
    rfl

end Sys2Proof.Machine
end

section
/-! What a change of a key reaches short of a wake: no tremulant group and no shutter moves, and CH's rest timer alone. -/

namespace Sys2Proof.Machine

/-! ### No key moves a tremulant group -/

/-- The delta is not of a tremulant group. -/
def Delta.ofKeys : Delta → Prop
  | .group _ _ => False
  | .count _ _ _ _ | .effect _ _ => True

theorem StopEntry.keyDelta_ofKeys (p : Profile) (e : StopEntry) (k : Nat) (up : Bool) : ∀ x ∈ e.keyDelta p k up, x.ofKeys := by
  intro x m
  unfold StopEntry.keyDelta at m
  cases kind : e.kind with
  | voice wn offset mode top bottom c =>
    simp only [kind] at m
    split at m
    · cases m
    · split at m
      · cases m
      · rw [List.mem_singleton.1 m]
        trivial
  | trap effect c =>
    simp only [kind] at m
    rw [List.mem_singleton.1 m]
    trivial
  | trem g =>
    simp only [kind] at m
    cases m

theorem mergedDeltas_ofKeys (p : Profile) (on : Table Bool) (d k : Nat) (old new : Touch) (before after : Bool) :
    ∀ x ∈ mergedDeltas p on d k old new before after, x.ofKeys := by
  intro x m
  obtain ⟨l, ml, mx⟩ := List.mem_flatten.1 m
  obtain ⟨e, -, rfl⟩ := List.mem_map.1 ml
  split at mx
  · cases was : e.holds old before <;> cases is : e.holds new after <;> rw [was, is] at mx
    · cases mx
    · exact e.keyDelta_ofKeys p k true x mx
    · exact e.keyDelta_ofKeys p k false x mx
    · cases mx
  · cases mx

theorem ReachPa.tsu_eq {s t : State} (h : ReachPa s t) : t.tsu = s.tsu := by rw [h]

theorem ReachTrig.tsu_eq {s t : State} (h : ReachTrig s t) : t.tsu = s.tsu := by rw [h]

theorem takeDelta_tsu (ready w : Bool) (x : State × AppLog) {d : Delta} (h : d.ofKeys) :
    (takeDelta ready w x d).1.tsu = x.1.tsu := by
  obtain ⟨s, log⟩ := x
  match d with
  | .count .pipe _ o up =>
    unfold takeDelta
    dsimp only
    split
    · exact (paOpen_reach _ _).tsu_eq
    · split
      · exact (paRelease_reach _ _).tsu_eq
      · rfl
  | .count .single _ _ _ | .count .reiterate _ _ _ => rfl
  | .effect _ _ =>
    unfold takeDelta
    dsimp only
    split <;> rfl

/-- R14: an application of the deltas of keys leaves TSU. -/
theorem application_tsu {w : Bool} {l : List Delta} (h : ∀ d ∈ l, d.ofKeys) (s : State) : (application w l s).tsu = s.tsu := by
  have deltas : ∀ (l : List Delta) (x : State × AppLog), (∀ d ∈ l, d.ofKeys) →
      (l.foldl (takeDelta s.isReady w) x).1.tsu = x.1.tsu := by
    intro l
    induction l with
    | nil => exact fun _ _ => rfl
    | cons d rest ih =>
      intro x own
      exact (ih _ fun y m => own y (List.mem_cons_of_mem _ m)).trans (takeDelta_tsu _ _ _ (own d List.mem_cons_self))
  have trans : ∀ a b c : State, b.tsu = a.tsu → c.tsu = b.tsu → c.tsu = a.tsu := fun _ _ _ h k => k.trans h
  have acts : ∀ (l : List (Nat × Nat × Bool)) (s : State), (actOnEffects l s).tsu = s.tsu :=
    foldl_reach (fun s t => t.tsu = s.tsu) (fun _ => rfl) trans _ fun s _ => (countMoved_reach _ _ _ s).tsu_eq
  have strikes : ∀ (l : List Nat) (s : State), (forOutputs strikeBar l s).tsu = s.tsu := fun l s =>
    (forOutputs_reach strikeBar_reach l s).tsu_eq
  unfold application closeApplication
  refine Eq.trans ?_ (deltas l (s, { bars := [], effects := [] }) h)
  dsimp only
  generalize l.foldl (takeDelta s.isReady w) (s, { bars := [], effects := [] }) = x
  generalize (if s.isReady = true then x.2.bars else []) = bars
  split
  · exact eitherOrder_reach (fun s t => t.tsu = s.tsu) trans (fun _ _ => rfl) (f := forOutputs strikeBar bars)
      (strikes bars) (acts _) x.1
  · exact (acts _ _).trans (strikes _ _)

theorem studDeltas_tsu (k : Nat) (old new : Touch) (s : State) : (studDeltas k old new s).tsu = s.tsu := by
  have along : ∀ (up : Bool) (l : List Nat) (s : State), (l.foldl (fun s e => studDelta e up s) s).tsu = s.tsu := fun up =>
    foldl_reach (fun s t => t.tsu = s.tsu) (fun _ => rfl) (fun _ _ _ h k => k.trans h) _
      fun s e => (studDelta_reach e up s).tsu_eq
  unfold studDeltas
  split
  · exact along _ _ s
  · split
    · exact along _ _ s
    · rfl

/-! ### What a key reaches -/

/-- What a change of keys reaches short of a wake. -/
structure ReachKey (s t : State) : Prop where
  re : ReachRe s t
  tsu : t.tsu = s.tsu
  outside : s.hushed → ReachHush s t
  rest : s.isReady = true → t.ch.rest = s.ch.rest ∨ t.ch.rest = s.restStart

theorem ReachKey.refl (s : State) : ReachKey s s := ⟨.refl s, rfl, fun _ => .refl s, fun _ => .inl rfl⟩

theorem ReachKey.trans {a b c : State} (h : ReachKey a b) (k : ReachKey b c) : ReachKey a c where
  re := h.re.trans k.re
  tsu := k.tsu.trans h.tsu
  outside hushed := (h.outside hushed).trans (k.outside (hushed.reach (h.outside hushed)))
  rest ready := by
    have ready' : b.isReady = true := by rw [h.re.isReady]; exact ready
    rcases k.rest ready' with still | restarted
    · rw [still]
      exact h.rest ready
    · exact .inr (restarted.trans h.re.restStart)

theorem withKm_key (s : State) (km : Km) : ReachKey s { s with km := km } :=
  ⟨withKm_re s km, rfl, fun _ => withKm_hush s km, fun _ => .inl rfl⟩

/-- What a key's application and its stud deltas reach, with the rest timer as an effect that they start may leave it. -/
structure ReachTaken (s t : State) : Prop where
  re : ReachRe s t
  tsu : t.tsu = s.tsu
  outside : s.hushed → ReachHush s t

theorem ReachTaken.trans {a b c : State} (h : ReachTaken a b) (k : ReachTaken b c) : ReachTaken a c where
  re := h.re.trans k.re
  tsu := k.tsu.trans h.tsu
  outside hushed := (h.outside hushed).trans (k.outside (hushed.reach (h.outside hushed)))

theorem ReachKey.taken {s t : State} (h : ReachKey s t) : ReachTaken s t := ⟨h.re, h.tsu, h.outside⟩

theorem application_taken {w : Bool} {l : List Delta} (h : ∀ d ∈ l, d.ofKeys) (s : State) :
    ReachTaken s (application w l s) :=
  ⟨application_re w l s, application_tsu h s, fun hushed => application_hush hushed w l⟩

theorem studDeltas_taken (k : Nat) (old new : Touch) (s : State) : ReachTaken s (studDeltas k old new s) :=
  ⟨studDeltas_re k old new s, studDeltas_tsu k old new s, fun hushed => studDeltas_hush hushed k old new⟩

/-- A restart of the rest timer closes what was taken. -/
theorem ReachTaken.restarted {s t : State} (h : ReachTaken s t) : ReachKey s (restartRest t) where
  re := h.re.trans (restartRest_re t)
  tsu := (restartRest_reach t).tsu_eq.trans h.tsu
  outside hushed := by
    rw [restartRest_hush (hushed.reach (h.outside hushed))]
    exact h.outside hushed
  rest ready := .inr (by rw [restartRest_rest, h.re.isReady, if_pos ready, h.re.restStart])

theorem pizzDeltas_ofKeys (p : Profile) (on : Table Bool) (d k : Nat) : ∀ x ∈ pizzDeltas p on d k, x.ofKeys := by
  intro x m
  have falls := pizzDeltas_falls p on d k x m
  cases x with
  | group _ _ => exact falls
  | count _ _ _ _ | effect _ _ => trivial

theorem State.evicted_taken (s : State) : ReachTaken s s.evicted := by
  unfold State.evicted
  split
  · split
    · exact application_taken (pizzDeltas_ofKeys _ _ _ _) s
    · exact (ReachKey.refl s).taken
  · exact (ReachKey.refl s).taken

theorem State.roomed_taken (s : State) (new : Touch) : ReachTaken s (s.roomed new) := by
  unfold State.roomed
  split
  · exact s.evicted_taken
  · exact (ReachKey.refl s).taken

theorem State.studded_taken (s : State) (allOff : Bool) (d k : Nat) (old new : Touch) :
    ReachTaken s (s.studded allOff d k old new) := by
  have merging : ReachTaken s (s.merging allOff d k old new) :=
    ((s.roomed_taken new).trans (withKm_key _ _).taken).trans (application_taken (mergedDeltas_ofKeys _ _ _ _ _ _ _ _) _)
  unfold State.studded
  split
  · exact merging.trans (studDeltas_taken _ _ _ _)
  · exact merging

/-- R27, R28: a merged change before it offers PLAY. -/
def State.handed (s : State) (d k : Nat) (old new : Touch) : State := restartRest (s.studded false d k old new)

theorem State.handed_key (s : State) (d k : Nat) (old new : Touch) : ReachKey s (s.handed d k old new) :=
  (s.studded_taken false d k old new).restarted

/-- R27, R144: in READY a merged change restarts the rest timer. -/
theorem State.handed_rest {s : State} (ready : s.isReady = true) (d k : Nat) (old new : Touch) :
    (s.handed d k old new).ch.rest = s.restStart := by
  have taken := (s.studded_taken false d k old new).re
  unfold State.handed
  rw [restartRest_rest, taken.isReady, if_pos ready, taken.restStart]

/-! ### One change of a KEYS frame -/

/-- R137: the chamber may be woken by PLAY. -/
def State.admits (s : State) : Prop :=
  s.prof.params.wakeMask.play = true ∧ (s.ch.state = .dark ∨ s.ch.state = .settling ∨ s.ch.state = .resting)

theorem State.admits.offerWake {s : State} (h : s.admits) : offerWake .play s = admitWake s := if_pos h

theorem offerWake_refused {s : State} (h : ¬ s.admits) : offerWake .play s = s := if_neg h

/-- The key of a change, with its touch set in the slot. -/
def State.touched (s : State) (c d : Nat) (x : Fin 64 × BitVec 2) : State := s.setSlotTouch c d x.1.val (touchOfCode x.2)

/-- The change moves the key's merged touch. -/
def State.movesKey (s : State) (c d : Nat) (x : Fin 64 × BitVec 2) : Prop :=
  x.1.val < s.prof.keyCount d ∧ s.slotTouch c d x.1.val ≠ touchOfCode x.2 ∧
    s.mergedTouch d x.1.val ≠ (s.touched c d x).highest d x.1.val

/-- The change raises the key's merged touch. -/
def State.raisesKey (s : State) (c d : Nat) (x : Fin 64 × BitVec 2) : Prop :=
  (s.mergedTouch d x.1.val).rank < ((s.touched c d x).highest d x.1.val).rank

/-- R23: a change that moves no merged touch changes the slot alone. -/
theorem keyChange_still {c d : Nat} {s : State} {x : Fin 64 × BitVec 2} (h : ¬ s.movesKey c d x) :
    ∃ slots, keyChange c d s x = { s with km := { s.km with slots := slots } } := by
  unfold State.movesKey State.touched at h
  unfold keyChange setTouch
  split
  · next key =>
    split
    · exact ⟨s.km.slots, rfl⟩
    · next differs =>
      have same : (s.setSlotTouch c d x.1.val (touchOfCode x.2)).mergedTouch d x.1.val =
          (s.setSlotTouch c d x.1.val (touchOfCode x.2)).highest d x.1.val := by
        by_contra moved
        exact h ⟨key, differs, moved⟩
      rw [remerge_still same]
      exact ⟨_, rfl⟩
  · exact ⟨s.km.slots, rfl⟩

/-- R27: a change that moves a merged touch hands it on. -/
theorem keyChange_moved {c d : Nat} {s : State} {x : Fin 64 × BitVec 2} (h : s.movesKey c d x) :
    keyChange c d s x =
      (let old := s.mergedTouch d x.1.val
       let new := (s.touched c d x).highest d x.1.val
       let v := (s.touched c d x).handed d x.1.val old new
       if old.rank < new.rank then offerWake .play v else v) := by
  obtain ⟨key, differs, moved⟩ := h
  have merged : (s.setSlotTouch c d x.1.val (touchOfCode x.2)).mergedTouch d x.1.val = s.mergedTouch d x.1.val := rfl
  unfold keyChange setTouch
  rw [if_pos key, if_neg differs, remerge_moved (by rw [merged]; exact moved), mergedChange_eq]
  rfl

theorem State.touched_key (s : State) (c d : Nat) (x : Fin 64 × BitVec 2) : ReachKey s (s.touched c d x) := withKm_key s _

/-- R27, R137: a change of a key either reaches no more than a key does, or a rise that wakes the chamber, which is then
DARK, SETTLING or RESTING. -/
theorem keyChange_cases (c d : Nat) (s : State) (x : Fin 64 × BitVec 2) :
    (¬ s.movesKey c d x ∧ ReachKey s (keyChange c d s x)) ∨
    (s.movesKey c d x ∧ ¬ (s.raisesKey c d x ∧ s.admits) ∧ ReachKey s (keyChange c d s x) ∧
      (s.isReady = true → (keyChange c d s x).ch.rest = s.restStart)) ∨
    (s.movesKey c d x ∧ s.raisesKey c d x ∧ s.admits ∧
      ∃ m : State, ReachKey s m ∧ m.admits ∧ keyChange c d s x = admitWake m) := by
  by_cases moves : s.movesKey c d x
  · have changed := keyChange_moved moves
    dsimp only at changed
    have handed := (s.touched_key c d x).trans
      ((s.touched c d x).handed_key d x.1.val (s.mergedTouch d x.1.val) ((s.touched c d x).highest d x.1.val))
    have restarts : s.isReady = true → ((s.touched c d x).handed d x.1.val (s.mergedTouch d x.1.val)
        ((s.touched c d x).highest d x.1.val)).ch.rest = s.restStart := fun ready =>
      State.handed_rest (s := s.touched c d x) ready _ _ _ _
    generalize (s.touched c d x).handed d x.1.val (s.mergedTouch d x.1.val) ((s.touched c d x).highest d x.1.val) = v at *
    have admits : v.admits ↔ s.admits := by
      unfold State.admits
      rw [handed.re.prof, handed.re.chamber]
    by_cases raises : s.raisesKey c d x
    · have offered := changed.trans (if_pos raises)
      by_cases wakes : s.admits
      · rw [(admits.2 wakes).offerWake] at offered
        exact .inr (.inr ⟨moves, raises, wakes, v, handed, admits.2 wakes, offered⟩)
      · rw [offerWake_refused fun h => wakes (admits.1 h)] at offered
        rw [offered]
        exact .inr (.inl ⟨moves, fun both => wakes both.2, handed, restarts⟩)
    · have stays := changed.trans (if_neg raises)
      rw [stays]
      exact .inr (.inl ⟨moves, fun both => raises both.1, handed, restarts⟩)
  · obtain ⟨slots, still⟩ := keyChange_still moves
    rw [still]
    exact .inl ⟨moves, withKm_key s _⟩

/-! ### The laws of CH, kept short of a wake -/

theorem ReachKey.chamberSound {s t : State} (h : ReachKey s t) (sound : s.ChamberSound) (quiet : s.QuietOutsideReady) :
    t.ChamberSound := by
  have runner : t.runner 0 = s.runner 0 := by
    by_cases ready : s.ch.state = .ready
    · have idle := sound.idle_ready ready
      rw [idle]
      exact h.re.spares.1 idle
    · exact (h.outside (quiet.hushed ready)).runner 0
  exact
    { scripted := fun c e => by rw [h.re.chamber]; exact sound.scripted c (runner ▸ e)
      idle := fun e => by rw [h.re.chamber]; exact sound.idle (runner ▸ e)
      profiled := by rw [h.re.profile, h.re.chamber]; exact sound.profiled }

theorem ReachKey.quiet {s t : State} (h : ReachKey s t) (quiet : s.QuietOutsideReady) : t.QuietOutsideReady := by
  have sync : t.ch.sync = s.ch.sync := by rw [h.re.frame]
  have outside : t.ch.state ≠ .ready → s.ch.state ≠ .ready ∧ ReachHush s t := fun o => by
    rw [h.re.chamber] at o
    exact ⟨o, h.outside (quiet.hushed o)⟩
  constructor
  · intro o
    obtain ⟨o', hush⟩ := outside o
    rw [hush.frame]
    exact quiet.arbiter o'
  · intro o
    obtain ⟨o', hush⟩ := outside o
    refine ⟨?_, fun r low high => (hush.runner r).trans ((quiet.effects o').2 r low high)⟩
    rw [hush.frame]
    exact (quiet.effects o').1
  · intro o
    obtain ⟨o', hush⟩ := outside o
    rw [hush.frame]
    exact quiet.clocks o'
  · intro o g low
    obtain ⟨o', -⟩ := outside o
    unfold State.trem
    rw [h.tsu]
    exact quiet.groups o' g low
  · intro o x low
    obtain ⟨o', -⟩ := outside o
    unfold State.shutter
    rw [h.tsu]
    exact quiet.shutters o' x low
  · intro o
    obtain ⟨o', hush⟩ := outside o
    rw [hush.ch]
    exact quiet.rest o'
  · rw [sync, h.re.chamber]
    exact quiet.sync

end Sys2Proof.Machine
end

section
/-! A pass of a chamber script (R104, R105, R106) outside READY, where PA ignores its requests (R43, R65). -/

namespace Sys2Proof.Machine

/-! ### How a step and a pass end -/

theorem tallied_script (r i : Nat) (c : Context) (s : State) : (tallied r i c s).2.1.script = c.script := by
  unfold tallied
  dsimp only
  split <;> rfl

theorem tallied_waits (r i : Nat) (c : Context) (s : State) : (tallied r i c s).1 ≠ .waits := by
  unfold tallied
  dsimp only
  split <;> simp

theorem Context.loop_script (c : Context) (target count : Nat) (reg : Register) (endless : Bool) :
    (c.loop target count reg endless).script = c.script := by
  have set : ∀ (c : Context) v, (c.setRegister v reg).script = c.script := fun c v => by cases reg <;> rfl
  unfold Context.loop
  dsimp only
  split
  · split <;> rfl
  · split
    · split
      · rfl
      · exact set _ _
    · split <;> exact set _ _

/-- A step leaves its context's script. -/
theorem takeStep_script (r : Nat) (c : Context) (s : State) : (takeStep r c s).2.1.script = c.script := by
  unfold takeStep
  dsimp only
  split
  · rfl
  · rfl
  · exact tallied_script _ _ _ _
  · split
    · exact tallied_script _ _ _ _
    · split <;> exact tallied_script _ _ _ _
  · exact tallied_script _ _ _ _
  · exact (tallied_script _ _ _ _).trans (c.loop_script _ _ _ _)
  · exact tallied_script _ _ _ _
  · rfl
  · split
    · exact tallied_script _ _ _ _
    · rfl
  · exact tallied_script _ _ _ _
  · exact tallied_script _ _ _ _
  · rfl

/-- A step that leaves the script waiting leaves it waiting for something. -/
theorem takeStep_waits (r : Nat) (c : Context) (s : State) (h : (takeStep r c s).1 = .waits) :
    (takeStep r c s).2.1.waiting ≠ .running := by
  have never : ∀ {i : Nat} {c' : Context} {t : State}, (tallied r i c' t).1 = .waits →
      (tallied r i c' t).2.1.waiting ≠ .running := fun {i c' t} h => absurd h (tallied_waits r i c' t)
  unfold takeStep at h ⊢
  dsimp only at h ⊢
  split at h
  · cases h
  · simp [beginsToWait]
  · exact never h
  · split at h
    · next own => rw [if_pos own]; exact never h
    · next other =>
      rw [if_neg other]
      split at h
      · next room => rw [if_pos room]; exact never h
      · next full => rw [if_neg full]; exact never h
  · exact never h
  · exact never h
  · exact never h
  · simp [beginsToWait]
  · split at h
    · next met => rw [if_pos met]; exact never h
    · next unmet =>
      rw [if_neg unmet]
      simp [beginsToWait]
  · exact never h
  · exact never h
  · cases h

theorem takeSteps_script (r n : Nat) (c : Context) (s : State) : (takeSteps r n c s).2.1.script = c.script := by
  induction n generalizing c s with
  | zero => rfl
  | succ n ih =>
    have one := takeStep_script r c s
    unfold takeSteps
    split
    · next e => rw [e] at one; exact (ih _ _).trans one
    · exact one

theorem takeSteps_waits (r n : Nat) (c : Context) (s : State) (h : (takeSteps r n c s).1 = .waits) :
    (takeSteps r n c s).2.1.waiting ≠ .running := by
  induction n generalizing c s with
  | zero => cases h
  | succ n ih =>
    have one := takeStep_waits r c s
    unfold takeSteps at h ⊢
    split at h
    · exact ih _ _ h
    · exact one h

/-- R106: the tally ends a pass within its steps. -/
theorem takeSteps_going (r n : Nat) (c : Context) (s : State) (h : (takeSteps r n c s).1 = .going) :
    n = 0 ∨ n + c.tally ≤ 15 := by
  induction n generalizing c s with
  | zero => exact .inl rfl
  | succ n ih =>
    right
    unfold takeSteps at h
    split at h
    · next e =>
      obtain ⟨tally, few⟩ := takeStep_going e
      rcases ih _ _ h with none | some <;> omega
    · next other => exact (other (takeStep r c s).2.1 (takeStep r c s).2.2 (Prod.ext h rfl)).elim

theorem runPass_script (r : Nat) (c : Context) (s : State) : (runPass r c s).2.1.script = c.script := takeSteps_script r 17 c s

theorem runPass_waits (r : Nat) (c : Context) (s : State) (h : (runPass r c s).1 = .waits) :
    (runPass r c s).2.1.waiting ≠ .running := takeSteps_waits r 17 c s h

/-- R105, R106: a pass ends with a script that waits or has ended. -/
theorem runPass_ends (r : Nat) (c : Context) (s : State) : (runPass r c s).1 ≠ .going := fun h => by
  have := takeSteps_going r 17 c s h
  omega

/-! ### What a pass reaches -/

/-- What a pass of runner 0 reaches outside READY: LI, LL, the record and runner 0. -/
structure ReachPass (s t : State) : Prop where
  frame : t = { s with
    pf := s.pf.withRecord t.pf, li := t.li, ll := t.ll, ee := { s.ee with runners := t.ee.runners } }
  runners : ∀ r, r ≠ 0 → t.runner r = s.runner r
  li : s.li.keeps t.li

theorem ReachPass.refl (s : State) : ReachPass s s := ⟨rfl, fun _ _ => rfl, .refl _⟩

theorem ReachPass.trans {a b c : State} (h : ReachPass a b) (k : ReachPass b c) : ReachPass a c where
  frame := by rw [k.frame, h.frame]
  runners r low := (k.runners r low).trans (h.runners r low)
  li := h.li.trans k.li

theorem setRunner_pass (v : Option Context) (s : State) : ReachPass s (s.setRunner 0 v) :=
  ⟨rfl, fun r low => by rw [State.runner_setRunner, if_neg low], .refl _⟩

theorem reportFault_pass (k : FaultKind) (a b : Nat) (s : State) : ReachPass s (reportFault k a b s) :=
  ⟨rfl, fun _ _ => rfl, .refl _⟩

theorem handOver_pass {f : Frame} (other : ∀ st fault tag, f ≠ .presence st fault tag) (s : State) :
    ReachPass s (handOver f s) := by
  have reach := handOver_reach f s
  have keeps := handOver_keeps other s
  generalize handOver f s = t at *
  unfold ReachLi at reach
  refine ⟨?_, fun r _ => ?_, keeps⟩
  · rw [reach]
  · unfold State.runner
    rw [reach]

/-- A line that is driven satisfies an AWAITLINE of runner 0. -/
theorem driveLine_pass (l : Nat) (v : Bool) (s : State) : ReachPass s (driveLine l v s) := by
  have driven : ReachPass s (s.setLine l { s.line l with driven := v }) := ⟨rfl, fun _ _ => rfl, .refl _⟩
  unfold driveLine
  split
  · dsimp only
    split
    · refine driven.trans ?_
      unfold offerLine
      split
      · split
        · exact setRunner_pass _ _
        · exact .refl _
      · exact .refl _
    · exact driven
  · exact .refl s

theorem tallied_pass (r i : Nat) (c : Context) {s t : State} (h : ReachPass s t) : ReachPass s (tallied r i c t).2.2 := by
  unfold tallied
  dsimp only
  split
  · exact h
  · exact h.trans (reportFault_pass _ _ _ _)

theorem takeStep_pass (r : Nat) (c : Context) {s : State} (outside : s.isReady = false) :
    ReachPass s (takeStep r c s).2.2 := by
  have ignored : ∀ f : State → State, ReachPass s (paEvent f s) := fun f => by
    rw [paEvent_notReady outside]
    exact .refl s
  unfold takeStep
  dsimp only
  split
  · exact .refl s
  · exact .refl s
  · exact tallied_pass _ _ _ (ignored _)
  · split
    · exact tallied_pass _ _ _ (ignored _)
    · split
      · exact tallied_pass _ _ _ (ignored _)
      · exact tallied_pass _ _ _ (.refl s)
  · exact tallied_pass _ _ _ (ignored _)
  · exact tallied_pass _ _ _ (.refl s)
  · exact tallied_pass _ _ _ (handOver_pass (fun _ _ _ => by simp) s)
  · exact .refl s
  · split
    · exact tallied_pass _ _ _ (.refl s)
    · exact .refl s
  · exact tallied_pass _ _ _ (driveLine_pass _ _ _)
  · exact tallied_pass _ _ _ (.refl s)
  · exact .refl s

theorem ReachPass.isReady {s t : State} (h : ReachPass s t) : t.isReady = s.isReady := by rw [h.frame]; rfl

theorem takeSteps_pass (r n : Nat) (c : Context) {s : State} (outside : s.isReady = false) :
    ReachPass s (takeSteps r n c s).2.2 := by
  induction n generalizing c s with
  | zero => exact .refl s
  | succ n ih =>
    have h := takeStep_pass r c outside
    unfold takeSteps
    split
    · next e =>
      rw [e] at h
      exact h.trans (ih _ (h.isReady.trans outside))
    · exact h

/-- Runner 0's pass outside READY. -/
theorem runPass_pass (r : Nat) (c : Context) {s : State} (outside : s.isReady = false) : ReachPass s (runPass r c s).2.2 :=
  takeSteps_pass r 17 c outside

/-- R105: a due pass of runner 0 that ends its script. -/
theorem runChamber_ended {c : Context} {s : State} (found : s.runner 0 = some c) (due : c.waiting = .running)
    (ended : (runPass 0 c s).1 = .ended) :
    runChamber s = chamberEnded (runPass 0 c s).2.1.script ((runPass 0 c s).2.2.setRunner 0 none) := by
  unfold runChamber
  rw [found]
  dsimp only
  rw [if_pos due]
  generalize runPass 0 c s = x at ended ⊢
  obtain ⟨_, c', s'⟩ := x
  cases ended
  rfl

/-- R105: a due pass of runner 0 that leaves its script waiting. -/
theorem runChamber_waiting {c : Context} {s : State} (found : s.runner 0 = some c) (due : c.waiting = .running)
    (waits : (runPass 0 c s).1 = .waits) :
    runChamber s = (runPass 0 c s).2.2.setRunner 0 (some (runPass 0 c s).2.1) := by
  unfold runChamber
  rw [found]
  dsimp only
  rw [if_pos due]
  generalize runPass 0 c s = x at waits ⊢
  obtain ⟨_, c', s'⟩ := x
  cases waits
  rfl

/-- R104, R105, R139: a chamber script that starts outside READY waits on runner 0, or has ended. -/
theorem startScript_pass (sc : Script) (entry : Option Nat) {s : State} (outside : s.isReady = false) :
    ∃ t, ReachPass s t ∧
      ((∃ c, t.runner 0 = some c ∧ c.waiting ≠ .running ∧ c.script = sc ∧ startScript sc entry s = t) ∨
        t.runner 0 = none ∧ startScript sc entry s = chamberEnded sc t) := by
  cases entry with
  | none => exact ⟨_, setRunner_pass none s, .inr ⟨State.runner_setRunner_self _ _ _, rfl⟩⟩
  | some e =>
    have found : (s.setRunner 0 (some (freshContext sc e))).runner 0 = some (freshContext sc e) :=
      State.runner_setRunner_self _ _ _
    have started := setRunner_pass (some (freshContext sc e)) s
    have pass := started.trans (runPass_pass 0 (freshContext sc e) (started.isReady.trans outside))
    have script := runPass_script 0 (freshContext sc e) (s.setRunner 0 (some (freshContext sc e)))
    show ∃ t, ReachPass s t ∧
      ((∃ c, t.runner 0 = some c ∧ c.waiting ≠ .running ∧ c.script = sc ∧
          runChamber (s.setRunner 0 (some (freshContext sc e))) = t) ∨
        t.runner 0 = none ∧ runChamber (s.setRunner 0 (some (freshContext sc e))) = chamberEnded sc t)
    cases ending : (runPass 0 (freshContext sc e) (s.setRunner 0 (some (freshContext sc e)))).1 with
    | going => exact absurd ending (runPass_ends _ _ _)
    | waits =>
      exact ⟨_, pass.trans (setRunner_pass _ _), .inl ⟨_, State.runner_setRunner_self _ _ _, runPass_waits _ _ _ ending,
        script, runChamber_waiting found rfl ending⟩⟩
    | ended =>
      refine ⟨_, pass.trans (setRunner_pass none _), .inr ⟨State.runner_setRunner_self _ _ _, ?_⟩⟩
      rw [runChamber_ended found rfl ending, script]
      rfl

end Sys2Proof.Machine
end

section
/-! An entry to READY (R49, R51, R119, R131, R143): what DT and TSU start and what PA is asked. -/

namespace Sys2Proof.Machine

/-! ### The groups of TSU -/

/-- R119: the groups of a list, entered one after the other. -/
theorem enterGroup_reach (s : State) (g : Nat) : ReachTsu s (enterGroup s g) := by
  unfold enterGroup
  split
  · exact startGroup_reach _ _
  · exact .refl s

section
variable {s t : State} (h : ReachTsu s t)
include h

theorem ReachTsu.now : t.now = s.now := by rw [h]

theorem ReachTsu.prof : t.prof = s.prof := by rw [h]; rfl

theorem ReachTsu.tremGroup (g : Nat) : t.tremGroup g = s.tremGroup g := by unfold State.tremGroup; rw [h.prof]

theorem ReachTsu.shutterSet (x : Nat) : t.shutterSet x = s.shutterSet x := by unfold State.shutterSet; rw [h.prof]

end

theorem ReachPa.trem {s t : State} (h : ReachPa s t) (g : Nat) : t.trem g = s.trem g := by
  unfold State.trem
  rw [h]

theorem ReachPa.shutter {s t : State} (h : ReachPa s t) (x : Nat) : t.shutter x = s.shutter x := by
  unfold State.shutter
  rw [h]

theorem ReachLi.trem {s t : State} (h : ReachLi s t) (g : Nat) : t.trem g = s.trem g := by
  unfold State.trem
  rw [h]

theorem ReachLi.shutter {s t : State} (h : ReachLi s t) (x : Nat) : t.shutter x = s.shutter x := by
  unfold State.shutter
  rw [h]

theorem startGroup_trem (g g' : Nat) (s : State) : (startGroup g s).trem g' =
    if g' = g then
      (match s.tremGroup g with
        | none => { s.trem g with running := true, locked := false, loss := none }
        | some x => x.begun s.now (s.trem g).onCount)
    else s.trem g' := by
  rw [startGroup_eq]
  cases s.tremGroup g with
  | none => exact State.trem_setTrem g _ g' s
  | some x =>
    have held : ∀ v, (paHold x.output (s.setTrem g v)).trem g' = if g' = g then v else s.trem g' := fun v =>
      ((paHold_reach _ _).trem g').trans (State.trem_setTrem g v g' s)
    dsimp only
    split
    · exact ((handOver_reach _ _).trem g').trans (held _)
    · exact held _

theorem startGroup_shutter (g x : Nat) (s : State) : (startGroup g s).shutter x = s.shutter x := by
  rw [startGroup_eq]
  cases s.tremGroup g with
  | none => rfl
  | some cfg =>
    dsimp only
    split
    · exact ((handOver_reach _ _).shutter x).trans ((paHold_reach _ _).shutter x)
    · exact (paHold_reach _ _).shutter x

theorem enterGroup_trem_ne {g g' : Nat} (other : g' ≠ g) (s : State) : (enterGroup s g).trem g' = s.trem g' := by
  unfold enterGroup
  split
  · rw [startGroup_trem, if_neg other]
  · rfl

theorem enterGroups_trem_ne {g : Nat} (l : List Nat) : g ∉ l → ∀ s : State, (l.foldl enterGroup s).trem g = s.trem g := by
  induction l with
  | nil => exact fun _ _ => rfl
  | cons y rest ih =>
    intro out s
    rw [List.foldl_cons, ih (List.not_mem_of_not_mem_cons out), enterGroup_trem_ne (List.ne_of_not_mem_cons out)]

/-- R119, R120: a group of the profile that stands starts if its on-count is above 0. -/
theorem enterGroup_trem {g : Nat} {x : TremGroup} {s : State} (group : s.tremGroup g = some x)
    (stands : (s.trem g).running = false) :
    (enterGroup s g).trem g = if 0 < (s.trem g).onCount then x.begun s.now (s.trem g).onCount else s.trem g := by
  unfold enterGroup
  by_cases called : 0 < (s.trem g).onCount
  · rw [if_pos ⟨called, stands⟩, if_pos called, startGroup_trem, if_pos rfl, group]
  · rw [if_neg fun h => called h.1, if_neg called]

/-- R119: the output that a group's start asks for. -/
def State.groupHold (s : State) (g : Nat) : Option Nat :=
  (s.tremGroup g).bind fun x => if 0 < (s.trem g).onCount then some x.output else none

theorem PaAlike_setTrem (g : Nat) (v : Trem) (s : State) : s.PaAlike (s.setTrem g v) := ⟨rfl, rfl, rfl, rfl, rfl⟩

theorem handOver_alike (f : Frame) (s : State) : s.PaAlike (handOver f s) := by
  have reach := handOver_reach f s
  exact ⟨by rw [reach], by rw [reach], by rw [reach], by rw [reach], by rw [reach]; rfl⟩

theorem enterGroup_alike {g : Nat} {s : State} (stands : (s.trem g).running = false) :
    (forOutputs paHold (s.groupHold g).toList s).PaAlike (enterGroup s g) := by
  unfold enterGroup State.groupHold
  by_cases called : 0 < (s.trem g).onCount
  · rw [if_pos ⟨called, stands⟩, startGroup_eq]
    cases s.tremGroup g with
    | none => exact PaAlike_setTrem _ _ s
    | some x =>
      have held : (paHold x.output s).PaAlike (paHold x.output (s.setTrem g (x.begun s.now (s.trem g).onCount))) :=
        (paHold_request x.output _ _ (PaAlike_setTrem _ _ s)).1
      simp only [Option.bind_some, if_pos called]
      split
      · exact held.trans (handOver_alike _ _)
      · exact held
  · rw [if_neg fun h => called h.1]
    cases s.tremGroup g with
    | none => exact .refl s
    | some x =>
      simp only [Option.bind_some, if_neg called]
      exact .refl s

theorem forOutputs_append (f : Nat → State → State) (l m : List Nat) (s : State) :
    forOutputs f (l ++ m) s = forOutputs f m (forOutputs f l s) := by
  unfold forOutputs
  exact List.foldl_append

/-- R119: what an entry of the groups leaves. -/
structure State.groupsEntered (s t : State) (l : List Nat) : Prop where
  reach : ReachTsu s t
  trems : ∀ g x, g ∈ l → s.tremGroup g = some x →
    t.trem g = if 0 < (s.trem g).onCount then x.begun s.now (s.trem g).onCount else s.trem g
  shutters : ∀ x, t.shutter x = s.shutter x
  keeps : s.li.keeps t.li
  alike : ∀ v : State, v.PaAlike s → (forOutputs paHold (l.filterMap s.groupHold) v).PaAlike t

theorem startGroup_keeps (g : Nat) (s : State) : s.li.keeps (startGroup g s).li := (startGroup_re g s).spares.2

theorem enterGroups_entered (l : List Nat) (nodup : l.Nodup) : ∀ {s : State},
    (∀ g ∈ l, (s.trem g).running = false) → s.groupsEntered (l.foldl enterGroup s) l := by
  induction l with
  | nil =>
    exact fun {s} _ => ⟨.refl s, fun _ _ m => (List.not_mem_nil m).elim, fun _ => rfl, .refl _, fun _ h => h⟩
  | cons g rest ih =>
    intro s stands
    obtain ⟨apart, nodup'⟩ := List.nodup_cons.1 nodup
    have one := enterGroup_reach s g
    have others : ∀ g' ∈ rest, (enterGroup s g).trem g' = s.trem g' := fun g' m =>
      enterGroup_trem_ne (ne_of_mem_of_not_mem m apart) s
    have later := ih nodup' (s := enterGroup s g) fun g' m => by
      rw [others g' m]
      exact stands g' (List.mem_cons_of_mem _ m)
    have own := stands g List.mem_cons_self
    refine ⟨one.trans later.reach, fun g' x m group => ?_, fun x => (later.shutters x).trans ?_,
      Li.keeps.trans ?_ later.keeps, fun v h => ?_⟩
    · rcases List.mem_cons.1 m with rfl | m
      · rw [List.foldl_cons, enterGroups_trem_ne rest apart, enterGroup_trem group own]
      · rw [List.foldl_cons, later.trems g' x m (by rw [one.tremGroup]; exact group), others g' m, one.now]
    · unfold enterGroup
      split
      · exact startGroup_shutter g x s
      · rfl
    · unfold enterGroup
      split
      · exact startGroup_keeps g s
      · exact .refl _
    · have holds : ∀ l : List Nat, (∀ g' ∈ l, g' ∈ rest) → l.filterMap (enterGroup s g).groupHold = l.filterMap s.groupHold := by
        intro l sub
        refine List.filterMap_congr fun g' m => ?_
        unfold State.groupHold
        rw [one.tremGroup, others g' (sub g' m)]
      have first := (PaRequest.forOutputs paHold_request (s.groupHold g).toList v s h).1.trans (enterGroup_alike own)
      have onward := later.alike _ first
      rw [holds rest fun _ m => m] at onward
      rw [List.filterMap_cons]
      cases e : s.groupHold g with
      | none => rw [e] at onward; exact onward
      | some o => rw [e] at onward; exact onward

/-! ### The shutter sets -/

/-- R131: the output that a set's first step asks for. -/
def State.setHold (s : State) (x : Nat) : Option Nat :=
  (s.shutterSet x).bind fun cfg => if 0 < (s.shutter x).target then some cfg.first else none

/-- R129: a set at stage 0 takes a step if its target is above 0. -/
theorem shutterStep_zero {x : Nat} {s : State} (zero : (s.shutter x).stage = 0) :
    shutterStep x s = match s.shutterSet x with
      | none => s
      | some cfg =>
        if 0 < (s.shutter x).target then
          paHold cfg.first (s.setShutter x { s.shutter x with stage := 1, stepTimer := s.after (ms cfg.interval) })
        else s := by
  unfold shutterStep
  cases s.shutterSet x with
  | none => rfl
  | some cfg =>
    dsimp only
    rw [zero]
    by_cases called : 0 < (s.shutter x).target
    · rw [if_pos called, if_pos called]
      rfl
    · rw [if_neg called, if_neg called, if_neg (Nat.not_lt_zero _)]

theorem shutterStep_shutter_ne {x x' : Nat} (other : x' ≠ x) (s : State) : (shutterStep x s).shutter x' = s.shutter x' := by
  unfold shutterStep
  split
  · rfl
  · dsimp only
    split
    · exact ((paHold_reach _ _).shutter x').trans ((State.shutter_setShutter x _ x' s).trans (if_neg other))
    · split
      · exact ((paRelease_reach _ _).shutter x').trans ((State.shutter_setShutter x _ x' s).trans (if_neg other))
      · rfl

theorem shutterSteps_shutter_ne {x : Nat} (l : List Nat) : x ∉ l → ∀ s : State,
    (l.foldl (fun s x => shutterStep x s) s).shutter x = s.shutter x := by
  induction l with
  | nil => exact fun _ _ => rfl
  | cons y rest ih =>
    intro out s
    rw [List.foldl_cons, ih (List.not_mem_of_not_mem_cons out), shutterStep_shutter_ne (List.ne_of_not_mem_cons out)]

theorem shutterStep_trem (x g : Nat) (s : State) : (shutterStep x s).trem g = s.trem g := by
  unfold shutterStep
  split
  · rfl
  · dsimp only
    split
    · exact (paHold_reach _ _).trem g
    · split
      · exact (paRelease_reach _ _).trem g
      · rfl

theorem shutterStep_li (x : Nat) (s : State) : (shutterStep x s).li = s.li := by
  unfold shutterStep
  split
  · rfl
  · dsimp only
    split
    · exact (paHold_reach _ _).li
    · split
      · exact (paRelease_reach _ _).li
      · rfl

theorem shutterStep_shutter {x : Nat} {cfg : ShutterSet} {s : State} (set : s.shutterSet x = some cfg)
    (zero : (s.shutter x).stage = 0) : (shutterStep x s).shutter x = (s.shutter x).stepped cfg s.now := by
  rw [shutterStep_zero zero, set]
  unfold Shutter.stepped
  dsimp only
  rw [zero]
  by_cases called : 0 < (s.shutter x).target
  · rw [if_pos called, if_neg (by omega)]
    refine ((paHold_reach _ _).shutter x).trans ((State.shutter_setShutter_self x _ s).trans ?_)
    simp only [if_pos called]
    rfl
  · rw [if_neg called, if_pos (by omega)]

theorem shutterStep_alike {x : Nat} {s : State} (zero : (s.shutter x).stage = 0) :
    (forOutputs paHold (s.setHold x).toList s).PaAlike (shutterStep x s) := by
  rw [shutterStep_zero zero]
  unfold State.setHold
  cases s.shutterSet x with
  | none => exact .refl s
  | some cfg =>
    by_cases called : 0 < (s.shutter x).target
    · simp only [Option.bind_some, if_pos called]
      exact (paHold_request cfg.first s (s.setShutter x { s.shutter x with stage := 1, stepTimer := s.after (ms cfg.interval) })
        ⟨rfl, rfl, rfl, rfl, rfl⟩).1
    · simp only [Option.bind_some, if_neg called]
      exact .refl s

/-- R131: what the first steps of the shutter sets leave. -/
structure State.setsEntered (s t : State) (l : List Nat) : Prop where
  reach : ReachTsu s t
  trems : ∀ g, t.trem g = s.trem g
  shutters : ∀ x cfg, x ∈ l → s.shutterSet x = some cfg → t.shutter x = (s.shutter x).stepped cfg s.now
  li : t.li = s.li
  alike : ∀ v : State, v.PaAlike s → (forOutputs paHold (l.filterMap s.setHold) v).PaAlike t

theorem shutterSteps_entered (l : List Nat) (nodup : l.Nodup) : ∀ {s : State}, (∀ x ∈ l, (s.shutter x).stage = 0) →
    s.setsEntered (l.foldl (fun s x => shutterStep x s) s) l := by
  induction l with
  | nil => exact fun {s} _ => ⟨.refl s, fun _ => rfl, fun _ _ m => (List.not_mem_nil m).elim, rfl, fun _ h => h⟩
  | cons x rest ih =>
    intro s zero
    obtain ⟨apart, nodup'⟩ := List.nodup_cons.1 nodup
    have one := shutterStep_reach x s
    have others : ∀ x' ∈ rest, (shutterStep x s).shutter x' = s.shutter x' := fun x' m =>
      shutterStep_shutter_ne (ne_of_mem_of_not_mem m apart) s
    have later := ih nodup' (s := shutterStep x s) fun x' m => by
      rw [others x' m]
      exact zero x' (List.mem_cons_of_mem _ m)
    have own := zero x List.mem_cons_self
    refine ⟨one.trans later.reach, fun g => (later.trems g).trans (shutterStep_trem x g s), fun x' cfg m set => ?_,
      later.li.trans (shutterStep_li x s), fun v h => ?_⟩
    · rcases List.mem_cons.1 m with rfl | m
      · rw [List.foldl_cons, shutterSteps_shutter_ne rest apart, shutterStep_shutter set own]
      · rw [List.foldl_cons, later.shutters x' cfg m (by rw [one.shutterSet]; exact set), others x' m, one.now]
    · have holds : rest.filterMap (shutterStep x s).setHold = rest.filterMap s.setHold := by
        refine List.filterMap_congr fun x' m => ?_
        unfold State.setHold
        rw [one.shutterSet, others x' m]
      have first := (PaRequest.forOutputs paHold_request (s.setHold x).toList v s h).1.trans (shutterStep_alike own)
      have onward := later.alike _ first
      rw [holds] at onward
      rw [List.filterMap_cons]
      cases e : s.setHold x with
      | none => rw [e] at onward; exact onward
      | some o => rw [e] at onward; exact onward

/-! ### TSU as a whole -/

/-- TSU as an exit from READY leaves it: no group runs, and every set is at stage 0. -/
structure State.stilled (s : State) : Prop where
  groups : ∀ g, g < 4 → (s.trem g).running = false
  sets : ∀ x, x < 2 → (s.shutter x).stage = 0

/-- R119, R131: what TSU's entry leaves. -/
structure State.tsuEntered (s t : State) : Prop where
  reach : ReachTsu s t
  trems : ∀ g x, g < 4 → s.tremGroup g = some x →
    t.trem g = if 0 < (s.trem g).onCount then x.begun s.now (s.trem g).onCount else s.trem g
  shutters : ∀ x cfg, x < 2 → s.shutterSet x = some cfg → t.shutter x = (s.shutter x).stepped cfg s.now
  keeps : s.li.keeps t.li
  alike : ∀ v : State, v.PaAlike s → (forOutputs paHold s.firstHolds v).PaAlike t

theorem State.firstHolds_eq (s : State) :
    s.firstHolds = (List.range 4).filterMap s.groupHold ++ (List.range 2).filterMap s.setHold := rfl

theorem State.stilled.tsuEnter {s : State} (h : s.stilled) : s.tsuEntered (tsuEnter s) := by
  have groups := enterGroups_entered (List.range 4) List.nodup_range (s := s) fun g m => h.groups g (List.mem_range.1 m)
  have sets := shutterSteps_entered (List.range 2) List.nodup_range (s := (List.range 4).foldl enterGroup s) fun x m => by
    rw [groups.shutters]
    exact h.sets x (List.mem_range.1 m)
  refine ⟨groups.reach.trans sets.reach, fun g x low group => ?_, fun x cfg low set => ?_, ?_, fun v alike => ?_⟩
  · exact (sets.trems g).trans (groups.trems g x (List.mem_range.2 low) group)
  · refine (sets.shutters x cfg (List.mem_range.2 low) (by rw [groups.reach.shutterSet]; exact set)).trans ?_
    rw [groups.shutters, groups.reach.now]
  · have li := groups.keeps
    rw [← sets.li] at li
    exact li
  · have holds : (List.range 2).filterMap ((List.range 4).foldl enterGroup s).setHold = (List.range 2).filterMap s.setHold := by
      refine List.filterMap_congr fun x _ => ?_
      unfold State.setHold
      rw [groups.reach.shutterSet, groups.shutters]
    have onward := sets.alike _ (groups.alike v alike)
    rw [holds] at onward
    rw [s.firstHolds_eq, forOutputs_append]
    exact onward

end Sys2Proof.Machine
end

section
/-! An entry to READY, continued: DT's clocks and calls, and both in either order (log 3). -/

namespace Sys2Proof.Machine

/-! ### DT -/

/-- R49: the clocks of the first `n` windows start, and no other. -/
theorem startClocks_get (n : Nat) : ∀ s : State,
    let t := (List.range n).foldl (fun s i =>
      match s.prof.windows[i]? with
      | some w =>
        if w.kind = .bar then
          { s with dt := { s.dt with clocks := s.dt.clocks.set i (s.after (ms w.reiteration)) } }
        else s
      | none => s) s
    t = { s with dt := { s.dt with clocks := t.dt.clocks } } ∧
      ∀ i, t.dt.clocks.get i =
        if i < n then
          match s.prof.windows[i]? with
          | some w => if w.kind = .bar then s.after (ms w.reiteration) else s.dt.clocks.get i
          | none => s.dt.clocks.get i
        else s.dt.clocks.get i := by
  induction n with
  | zero => exact fun s => ⟨rfl, fun i => by rw [if_neg (Nat.not_lt_zero i)]; rfl⟩
  | succ n ih =>
    intro s
    obtain ⟨frame, clocks⟩ := ih s
    rw [List.range_succ, List.foldl_append]
    generalize (List.range n).foldl _ s = t at frame clocks
    have prof : t.prof = s.prof := by rw [frame]; rfl
    have now : t.now = s.now := by rw [frame]
    have after : ∀ d, t.after d = s.after d := fun d => by unfold State.after; rw [now]
    rw [List.foldl_cons, List.foldl_nil, prof]
    have own := clocks n
    rw [if_neg (Nat.lt_irrefl n)] at own
    have stays : ∀ i, i ≠ n → (if i < n + 1 then
        match s.prof.windows[i]? with
        | some w => if w.kind = .bar then s.after (ms w.reiteration) else s.dt.clocks.get i
        | none => s.dt.clocks.get i
      else s.dt.clocks.get i) = t.dt.clocks.get i := fun i other => by
        rw [clocks i]
        exact if_congr (by omega) rfl rfl
    cases window : s.prof.windows[n]? with
    | none =>
      refine ⟨frame, fun i => ?_⟩
      by_cases here : i = n
      · subst here
        dsimp only
        rw [own, if_pos (Nat.lt_succ_self i), window]
      · exact (stays i here).symm
    | some w =>
      dsimp only
      by_cases bar : w.kind = .bar
      · rw [if_pos bar]
        refine ⟨by rw [frame], fun i => ?_⟩
        show (t.dt.clocks.set n (t.after (ms w.reiteration))).get i = _
        rw [Table.get_set, after]
        by_cases here : i = n
        · subst here
          rw [if_pos rfl, if_pos (Nat.lt_succ_self i), window]
          exact (if_pos bar).symm
        · rw [if_neg here]
          exact (stays i here).symm
      · rw [if_neg bar]
        refine ⟨frame, fun i => ?_⟩
        by_cases here : i = n
        · subst here
          rw [own, if_pos (Nat.lt_succ_self i), window]
          exact (if_neg bar).symm
        · exact (stays i here).symm

/-- R49, R51: what DT's entry leaves. -/
structure State.dtEntered (s t : State) : Prop where
  frame : t = { s with dt := { s.dt with clocks := t.dt.clocks }, pa := t.pa, cc := t.cc, pf := s.pf.withRecord t.pf }
  clocks : ∀ i w, s.prof.windows[i]? = some w →
    t.dt.clocks.get i = if w.kind = .bar then some (s.now + w.reiteration * 1000) else s.dt.clocks.get i
  alike : ∀ v : State, v.PaAlike s → (forOutputs paOpen s.calledPipes v).PaAlike t

theorem dtEnter_entered (s : State) : s.dtEntered (dtEnter s) := by
  obtain ⟨frame, clocks⟩ := startClocks_get s.prof.windows.length s
  change startClocks s = { s with dt := { s.dt with clocks := (startClocks s).dt.clocks } } at frame
  change ∀ i, (startClocks s).dt.clocks.get i = _ at clocks
  have requests := forOutputs_reach paOpen_reach s.calledPipes (startClocks s)
  unfold dtEnter
  generalize startClocks s = t at *
  have alike : s.PaAlike t := by rw [frame]; exact ⟨rfl, rfl, rfl, rfl, rfl⟩
  refine ⟨?_, fun i w window => ?_, fun v h => (PaRequest.forOutputs paOpen_request _ v t (h.trans alike)).1⟩
  · unfold ReachPa at requests
    rw [requests, frame]
  · have low : i < s.prof.windows.length := (List.getElem?_eq_some_iff.1 window).1
    have same : (forOutputs paOpen s.calledPipes t).dt = t.dt := by rw [requests]
    rw [same, clocks i, if_pos low, window]
    rfl

/-! ### Both, in either order -/

theorem State.calledPipes_congr {s t : State} (prof : t.prof = s.prof) (pipe : t.dt.pipe = s.dt.pipe) :
    t.calledPipes = s.calledPipes := by
  unfold State.calledPipes
  rw [prof, pipe]

theorem State.firstHolds_congr {s t : State} (prof : t.prof = s.prof) (tsu : t.tsu = s.tsu) :
    t.firstHolds = s.firstHolds := by
  unfold State.firstHolds State.tremGroup State.shutterSet State.trem State.shutter
  rw [prof, tsu]

/-- R119, R131, R143: what the notices of an entry leave, the chamber being READY. -/
structure State.noticed (s t : State) : Prop where
  frame : t = { s with
    dt := { s.dt with clocks := t.dt.clocks }, pa := t.pa, cc := t.cc, pf := s.pf.withRecord t.pf, li := t.li
    tsu := t.tsu, choices := t.choices }
  clocks : ∀ i w, s.prof.windows[i]? = some w →
    t.dt.clocks.get i = if w.kind = .bar then some (s.now + w.reiteration * 1000) else s.dt.clocks.get i
  trems : ∀ g x, g < 4 → s.tremGroup g = some x →
    t.trem g = if 0 < (s.trem g).onCount then x.begun s.now (s.trem g).onCount else s.trem g
  shutters : ∀ x cfg, x < 2 → s.shutterSet x = some cfg → t.shutter x = (s.shutter x).stepped cfg s.now
  keeps : s.li.keeps t.li
  requests : ∀ v : State, v.PaAlike s →
    (forOutputs paHold s.firstHolds (forOutputs paOpen s.calledPipes v)).PaAlike t ∨
      (forOutputs paOpen s.calledPipes (forOutputs paHold s.firstHolds v)).PaAlike t

theorem State.dtEntered.prof {s t : State} (h : s.dtEntered t) : t.prof = s.prof := by rw [h.frame]; rfl

theorem State.dtEntered.tsu {s t : State} (h : s.dtEntered t) : t.tsu = s.tsu := by rw [h.frame]

theorem State.dtEntered.stilled {s t : State} (h : s.dtEntered t) (k : s.stilled) : t.stilled := by
  constructor
  · intro g low
    unfold State.trem
    rw [h.tsu]
    exact k.groups g low
  · intro x low
    unfold State.shutter
    rw [h.tsu]
    exact k.sets x low

/-- DT first. -/
theorem State.dtEntered.then_tsu {s a b : State} (h : s.dtEntered a) (k : a.tsuEntered b) : s.noticed b := by
  have tsu := h.tsu
  have trem : ∀ g, a.trem g = s.trem g := fun g => by unfold State.trem; rw [tsu]
  have shutter : ∀ x, a.shutter x = s.shutter x := fun x => by unfold State.shutter; rw [tsu]
  have now : a.now = s.now := by rw [h.frame]
  have li : a.li = s.li := by rw [h.frame]
  refine ⟨?_, fun i w window => ?_, fun g x low group => ?_, fun x cfg low set => ?_, ?_, fun v alike => .inl ?_⟩
  · rw [k.reach, h.frame]
  · have same : b.dt = a.dt := by rw [k.reach]
    rw [same]
    exact h.clocks i w window
  · have own := k.trems g x low (by unfold State.tremGroup; rw [h.prof]; exact group)
    rw [trem, now] at own
    exact own
  · have own := k.shutters x cfg low (by unfold State.shutterSet; rw [h.prof]; exact set)
    rw [shutter, now] at own
    exact own
  · rw [← li]
    exact k.keeps
  · have onward := k.alike _ (h.alike v alike)
    rw [State.firstHolds_congr h.prof tsu] at onward
    exact onward

/-- TSU first. -/
theorem State.tsuEntered.then_dt {s a b : State} (h : s.tsuEntered a) (k : a.dtEntered b) : s.noticed b := by
  have dt : a.dt = s.dt := by rw [h.reach]
  have trem : ∀ g, b.trem g = a.trem g := fun g => by unfold State.trem; rw [k.tsu]
  have shutter : ∀ x, b.shutter x = a.shutter x := fun x => by unfold State.shutter; rw [k.tsu]
  have li : b.li = a.li := by rw [k.frame]
  refine ⟨?_, fun i w window => ?_, fun g x low group => (trem g).trans (h.trems g x low group),
    fun x cfg low set => (shutter x).trans (h.shutters x cfg low set), ?_, fun v alike => .inr ?_⟩
  · rw [k.frame, h.reach]
  · rw [k.clocks i w (by rw [h.reach.prof]; exact window), h.reach.now, dt]
  · rw [li]
    exact h.keeps
  · have onward := k.alike _ (h.alike v alike)
    rw [State.calledPipes_congr h.reach.prof (by rw [dt])] at onward
    exact onward

/-- A free order taken leaves everything else. -/
theorem State.noticed.of_choice {s t : State} (n : Nat) (h : State.noticed { s with choices := n } t) : s.noticed t :=
  ⟨h.frame, h.clocks, h.trems, h.shutters, h.keeps, fun v alike => h.requests v (alike.trans ⟨rfl, rfl, rfl, rfl, rfl⟩)⟩

/-- R143: DT's and TSU's notices. -/
def entryNotices (s : State) : State :=
  if s.calledPipes ≠ [] ∧ s.tsuAsks = true then eitherOrder dtEnter tsuEnter s else tsuEnter (dtEnter s)

theorem State.stilled.entryNotices {s : State} (h : s.stilled) : s.noticed (entryNotices s) := by
  have dtFirst : ∀ s : State, s.stilled → s.noticed (Machine.tsuEnter (dtEnter s)) := fun s h =>
    (dtEnter_entered s).then_tsu ((dtEnter_entered s).stilled h).tsuEnter
  have tsuFirst : ∀ s : State, s.stilled → s.noticed (dtEnter (Machine.tsuEnter s)) := fun s h =>
    h.tsuEnter.then_dt (dtEnter_entered _)
  have counted : State.stilled { s with choices := s.choices + 1 } := ⟨h.groups, h.sets⟩
  unfold Machine.entryNotices
  split
  · unfold eitherOrder
    dsimp only
    split
    · exact (dtFirst _ counted).of_choice
    · exact (tsuFirst _ counted).of_choice
  · exact dtFirst s h

/-! ### The entry as a whole -/

theorem readyNotices_eq (s : State) : readyNotices s = driveLamps true (restartRest (entryNotices (s.withChamber .ready))) := rfl

theorem driveLamps_idle (v : Bool) {s : State} (idle : s.runner 0 = none) : (driveLamps v s).runner 0 = none :=
  foldl_reach (fun s t => s.runner 0 = none → t.runner 0 = none) (fun _ h => h) (fun _ _ _ h k i => k (h i))
    (fun s l => if s.prof.lineFunction l = .readyLamp then driveLine l v s else s)
    (fun s l i => by
      split
      · exact (driveLine_spares l v s).1 i
      · exact i) (List.range 12) s idle

/-- R143: an entry to READY of a chamber whose TSU stands as an exit left it. -/
structure State.enteredReady (s t : State) : Prop where
  frame : t = { s with
    dt := { s.dt with clocks := t.dt.clocks }, pa := t.pa, cc := t.cc, pf := s.pf.withRecord t.pf, li := t.li, ll := t.ll
    ee := t.ee, tsu := t.tsu, ch := { s.ch with state := .ready, rest := s.restStart }, choices := t.choices }
  clocks : ∀ i w, s.prof.windows[i]? = some w →
    t.dt.clocks.get i = if w.kind = .bar then some (s.now + w.reiteration * 1000) else s.dt.clocks.get i
  trems : ∀ g x, g < 4 → s.tremGroup g = some x →
    t.trem g = if 0 < (s.trem g).onCount then x.begun s.now (s.trem g).onCount else s.trem g
  shutters : ∀ x cfg, x < 2 → s.shutterSet x = some cfg → t.shutter x = (s.shutter x).stepped cfg s.now
  idle : s.runner 0 = none → t.runner 0 = none
  requests : ∀ v : State, v.PaAlike (s.withChamber .ready) →
    (forOutputs paHold s.firstHolds (forOutputs paOpen s.calledPipes v)).PaAlike t ∨
      (forOutputs paOpen s.calledPipes (forOutputs paHold s.firstHolds v)).PaAlike t

theorem State.stilled.readyNotices {s : State} (h : s.stilled) :
    s.enteredReady (Machine.readyNotices s) ∧ s.li.keeps (Machine.readyNotices s).li := by
  have still : (s.withChamber .ready).stilled := ⟨h.groups, h.sets⟩
  have noticed := still.entryNotices
  rw [readyNotices_eq]
  generalize Machine.entryNotices (s.withChamber .ready) = a at noticed
  have ready : a.isReady = true := by rw [noticed.frame]; rfl
  have start : a.restStart = s.restStart := by rw [noticed.frame]; rfl
  have restarted : restartRest a = { a with ch := { a.ch with rest := s.restStart } } := by
    rw [restartRest_eq, if_pos ready, start]
  have lit := driveLamps_reach true (restartRest a)
  have idle := driveLamps_idle true (s := restartRest a)
  have aRunner : (restartRest a).runner 0 = s.runner 0 := by
    rw [restarted]
    show a.runner 0 = s.runner 0
    unfold State.runner
    rw [noticed.frame]
    rfl
  rw [restarted] at lit idle aRunner ⊢
  generalize driveLamps true { a with ch := { a.ch with rest := s.restStart } } = u at *
  have tsu : u.tsu = a.tsu := by rw [lit]
  have frame : u = { s with
      dt := { s.dt with clocks := u.dt.clocks }, pa := u.pa, cc := u.cc, pf := s.pf.withRecord u.pf, li := u.li, ll := u.ll
      ee := u.ee, tsu := u.tsu, ch := { s.ch with state := .ready, rest := s.restStart }, choices := u.choices } := by
    rw [lit, noticed.frame]
    rfl
  have alike : a.PaAlike u := ⟨by rw [lit], by rw [lit], by rw [lit], by rw [lit], by rw [lit]; rfl⟩
  refine ⟨⟨frame, fun i w window => ?_, fun g x low group => ?_, fun x cfg low set => ?_, fun i => idle (aRunner.trans i),
    fun v h => ?_⟩, ?_⟩
  · have dt : u.dt = a.dt := by rw [lit]
    rw [dt]
    exact noticed.clocks i w window
  · have own := noticed.trems g x low group
    unfold State.trem at own ⊢
    rw [tsu]
    exact own
  · have own := noticed.shutters x cfg low set
    unfold State.shutter at own ⊢
    rw [tsu]
    exact own
  · exact (noticed.requests v h).imp (·.trans alike) (·.trans alike)
  · have li : u.li = a.li := by rw [lit]
    rw [li]
    exact noticed.keeps

end Sys2Proof.Machine
end

section
/-! An admitted wake (R137 to R143, R150). -/

namespace Sys2Proof.Machine

/-! ### The PRESENCE -/

/-- A PRESENCE that carries the chamber state `st` and the tag waits to be sent. -/
def Li.tells (l : Li) (st : ChamberState) (tag : BitVec 16) : Prop := ∃ q ∈ l.queue, ∃ fault, q.frame = .presence st fault tag

theorem Li.tells.keeps {l m : Li} {st : ChamberState} {tag : BitVec 16} (h : l.tells st tag) (k : l.keeps m) : m.tells st tag := by
  obtain ⟨q, waits, fault, own⟩ := h
  exact ⟨q, k.2 q waits ⟨st, fault, tag, own⟩, fault, own⟩

theorem handOver_mute (f : Frame) (s : State) : (handOver f s).li.mute = s.li.mute := by
  unfold handOver
  split
  · rfl
  · split
    · rfl
    · split
      · rfl
      · cases f <;> rfl

/-- R150, R160: a PRESENCE that is handed over waits if the station is not MUTE and one waited already, or there was
room. -/
theorem handPresence_tells {s : State} (speaks : s.li.mute = false)
    (room : s.li.queue.length < 8 ∨ ∃ st tag, s.li.tells st tag) : (handPresence s).li.tells s.ch.state s.pf.tag := by
  unfold handPresence handOver
  rw [if_neg (by rw [speaks]; decide)]
  by_cases waits : s.li.queue.any (fun q => Frame.sameSlot (.presence s.ch.state s.faultPresent s.pf.tag) q.frame) = true
  · rw [if_pos waits]
    obtain ⟨q, m, same⟩ := List.any_eq_true.1 waits
    exact ⟨{ q with frame := .presence s.ch.state s.faultPresent s.pf.tag },
      List.mem_map.2 ⟨q, m, if_pos same⟩, s.faultPresent, rfl⟩
  · rw [if_neg waits]
    have short : s.li.queue.length < 8 := room.resolve_right fun ⟨st, tag, q, m, fault, own⟩ =>
      waits (List.any_eq_true.2 ⟨q, m, by rw [own]; rfl⟩)
    rw [if_pos short]
    exact ⟨_, List.mem_append_right _ List.mem_cons_self, s.faultPresent, rfl⟩

/-! ### On the way -/

/-- `x` is `v` on the way of a wake, in chamber state `st` with this origin; only LI, LL, the record and runner 0 have
moved besides, and the PRESENCE waits. -/
structure State.cameTo (v : State) (st : ChamberState) (o : Origin) (x : State) : Prop where
  frame : x = { v with
    ch := { v.ch with state := st, origin := o }, pf := v.pf.withRecord x.pf, li := x.li, ll := x.ll
    ee := { v.ee with runners := x.ee.runners } }
  runners : ∀ r, r ≠ 0 → x.runner r = v.runner r
  mute : x.li.mute = v.li.mute
  tells : v.li.mute = false → v.li.queue.length < 8 → x.li.tells st v.pf.tag

section
variable {v x : State} {st : ChamberState} {o : Origin} (h : v.cameTo st o x)
include h

theorem State.cameTo.prof : x.prof = v.prof := by rw [h.frame]; rfl

theorem State.cameTo.now : x.now = v.now := by rw [h.frame]

theorem State.cameTo.ch : x.ch = { v.ch with state := st, origin := o } := by rw [h.frame]

theorem State.cameTo.tsu : x.tsu = v.tsu := by rw [h.frame]

theorem State.cameTo.dt : x.dt = v.dt := by rw [h.frame]

theorem State.cameTo.tag : x.pf.tag = v.pf.tag := by rw [h.frame]

theorem State.cameTo.station : x.pf.station = v.pf.station := by rw [h.frame]

theorem State.cameTo.restStart : x.restStart = v.restStart := by
  unfold State.restStart
  rw [h.prof, h.now]

theorem State.cameTo.stilled (quiet : v.stilled) : x.stilled := by
  constructor
  · intro g low
    unfold State.trem
    rw [h.tsu]
    exact quiet.groups g low
  · intro s low
    unfold State.shutter
    rw [h.tsu]
    exact quiet.sets s low

/-- A pass of runner 0 on the way. -/
theorem State.cameTo.pass {y : State} (k : ReachPass x y) : v.cameTo st o y where
  frame := by rw [k.frame, h.frame]
  runners r low := (k.runners r low).trans (h.runners r low)
  mute := k.li.1.trans h.mute
  tells speaks room := (h.tells speaks room).keeps k.li

/-- The next chamber state on the way, and its PRESENCE. -/
theorem State.cameTo.onward (st' : ChamberState) : v.cameTo st' o (handPresence (x.withChamber st')) := by
  have reach := handPresence_reach (x.withChamber st')
  have mute : (handPresence (x.withChamber st')).li.mute = x.li.mute := handOver_mute _ _
  have tells := handPresence_tells (s := x.withChamber st')
  have tag : (x.withChamber st').pf.tag = v.pf.tag := h.tag
  rw [tag] at tells
  generalize handPresence (x.withChamber st') = y at *
  have frame : y = { v with
      ch := { v.ch with state := st', origin := o }, pf := v.pf.withRecord y.pf, li := y.li, ll := y.ll
      ee := { v.ee with runners := y.ee.runners } } := by
    unfold ReachLi at reach
    rw [reach]
    unfold State.withChamber
    rw [h.frame]
  have ee : y.ee = x.ee := by rw [reach]; rfl
  refine ⟨frame, fun r low => ?_, mute.trans h.mute, fun speaks room => ?_⟩
  · have same : y.runner r = x.runner r := by unfold State.runner; rw [ee]
    exact same.trans (h.runners r low)
  · exact tells (h.mute.trans speaks) (.inr ⟨st, v.pf.tag, h.tells speaks room⟩)

end

/-- R135: outside READY a change of the chamber state is the state and its PRESENCE. -/
theorem moveTo_outside (st : ChamberState) {s : State} (outside : s.isReady = false) :
    moveTo st s = handPresence (s.withChamber st) := by
  unfold moveTo
  dsimp only
  rw [outside]
  rfl

/-- R138: the first step of an admitted wake. -/
theorem winding_cameTo {v : State} (o : Origin) (outside : v.isReady = false) :
    v.cameTo .winding o (moveTo .winding { v.setRunner 0 none with ch := { v.ch with origin := o } }) := by
  have runner := setRunner_pass none v
  rw [moveTo_outside .winding (by exact outside)]
  have reach := handPresence_reach (State.withChamber .winding { v.setRunner 0 none with ch := { v.ch with origin := o } })
  have mute : (handPresence (State.withChamber .winding { v.setRunner 0 none with ch := { v.ch with origin := o } })).li.mute =
    v.li.mute := handOver_mute _ _
  have tells := handPresence_tells (s := State.withChamber .winding { v.setRunner 0 none with ch := { v.ch with origin := o } })
  generalize handPresence (State.withChamber .winding { v.setRunner 0 none with ch := { v.ch with origin := o } }) = y at *
  refine ⟨?_, fun r low => ?_, mute, fun speaks room => tells speaks (.inl room)⟩
  · unfold ReachLi at reach
    rw [reach]
    rfl
  · have same : y.runner r = (v.setRunner 0 none).runner r := by
      unfold State.runner
      rw [reach]
      rfl
    exact same.trans (runner.runners r low)

/-- R137, R138, R139: an admitted wake is WINDING while its script holds runner 0, or the script has ended. -/
theorem admitWake_cases {v : State} (outside : v.isReady = false) :
    ∃ x, v.cameTo .winding (if v.ch.state = .dark then .dark else .other) x ∧
      ((∃ c, x.runner 0 = some c ∧ c.waiting ≠ .running ∧ c.script = .wake ∧ admitWake v = x) ∨
        x.runner 0 = none ∧ admitWake v = chamberEnded .wake x) := by
  have first := winding_cameTo (v := v) (if v.ch.state = .dark then .dark else .other) outside
  have away : (moveTo .winding { v.setRunner 0 none with
      ch := { v.ch with origin := if v.ch.state = .dark then .dark else .other } }).isReady = false := by
    unfold State.isReady
    rw [first.ch]
    rfl
  obtain ⟨x, pass, ends⟩ := startScript_pass .wake
    (moveTo .winding { v.setRunner 0 none with
      ch := { v.ch with origin := if v.ch.state = .dark then .dark else .other } }).prof.wakeEntry away
  exact ⟨x, first.pass pass, ends⟩

/-! ### The end of the way -/

/-- What a wake leaves on an entry to READY. -/
structure State.wokeReady (v : State) (o : Origin) (u : State) : Prop where
  frame : u = { v with
    dt := { v.dt with clocks := u.dt.clocks }, pa := u.pa, cc := u.cc, pf := v.pf.withRecord u.pf, li := u.li, ll := u.ll
    ee := u.ee, tsu := u.tsu, ch := { v.ch with state := .ready, origin := o, rest := v.restStart }, choices := u.choices }
  idle : u.runner 0 = none
  begun : v.QuietOutsideReady → v.ch.state ≠ .ready → v.readyBegun u
  tells : v.li.mute = false → v.li.queue.length < 8 → u.li.tells .ready v.pf.tag
  requests : ∀ b : State, b.PaAlike (v.withChamber .ready) →
    (forOutputs paHold v.firstHolds (forOutputs paOpen v.calledPipes b)).PaAlike u ∨
      (forOutputs paOpen v.calledPipes (forOutputs paHold v.firstHolds b)).PaAlike u

/-- R49, R119, R131: with TSU and DT as an exit left them an entry to READY has begun. -/
theorem State.enteredReady.begun {x t : State} (h : x.enteredReady t)
    (clocks : ∀ i, x.dt.clocks.get i = none)
    (trems : ∀ g, g < 4 → x.trem g = { (default : Trem) with onCount := (x.trem g).onCount })
    (sets : ∀ y, y < 2 → (x.shutter y).stage = 0 ∧ (x.shutter y).stepTimer = none) : x.readyBegun t where
  rest := by rw [h.frame]
  clocks i w window := by
    rw [h.clocks i w window, clocks i]
  groups g y low group := by
    rw [h.trems g y low group]
    split
    · rfl
    · exact trems g low
  shutters y cfg low set := by
    obtain ⟨stage, timer⟩ := sets y low
    have still : ({ x.shutter y with stage := 0, stepTimer := none } : Shutter) = x.shutter y := by
      rw [← stage, ← timer]
    rw [h.shutters y cfg low set, still]

/-- R140, R143: the entry to READY on the way of a wake. -/
theorem State.cameTo.enterReady {v x : State} {st : ChamberState} {o : Origin} (h : v.cameTo st o x)
    (idle : x.runner 0 = none) (stilled : v.stilled) : v.wokeReady o (enterReady x) := by
  obtain ⟨entered, keeps⟩ := (h.stilled stilled).readyNotices
  have enter : Machine.enterReady x = handPresence (Machine.readyNotices x) := rfl
  rw [enter]
  generalize Machine.readyNotices x = a at *
  have reach := handPresence_reach a
  have tells := handPresence_tells (s := a)
  generalize handPresence a = u at *
  have ee : u.ee = a.ee := by rw [reach]
  have tsu : u.tsu = a.tsu := by rw [reach]
  have dt : u.dt = a.dt := by rw [reach]
  have ch : u.ch = a.ch := by rw [reach]
  have alike : a.PaAlike u := ⟨by rw [reach], by rw [reach], by rw [reach], by rw [reach], by rw [reach]; rfl⟩
  have entered' : x.enteredReady u := by
    refine ⟨?_, fun i w window => by rw [dt]; exact entered.clocks i w window, fun g y low group => ?_,
      fun y cfg low set => ?_, fun i => ?_, fun b k => (entered.requests b k).imp (·.trans alike) (·.trans alike)⟩
    · unfold ReachLi at reach
      rw [reach, entered.frame]
    · have own := entered.trems g y low group
      unfold State.trem at own ⊢
      rw [tsu]
      exact own
    · have own := entered.shutters y cfg low set
      unfold State.shutter at own ⊢
      rw [tsu]
      exact own
    · have own := entered.idle i
      unfold State.runner at own ⊢
      rw [ee]
      exact own
  have trem : ∀ g, x.trem g = v.trem g := fun g => by unfold State.trem; rw [h.tsu]
  have shutter : ∀ y, x.shutter y = v.shutter y := fun y => by unfold State.shutter; rw [h.tsu]
  have group : ∀ g, x.tremGroup g = v.tremGroup g := fun g => by unfold State.tremGroup; rw [h.prof]
  have set : ∀ y, x.shutterSet y = v.shutterSet y := fun y => by unfold State.shutterSet; rw [h.prof]
  refine ⟨?_, entered'.idle idle, fun quiet outside => ?_, fun speaks room => ?_, fun b k => ?_⟩
  · rw [entered'.frame, h.restStart, h.frame]
  · have begun := entered'.begun (fun i => by rw [h.dt, quiet.clocks outside]; rfl)
      (fun g low => by rw [trem]; exact quiet.groups outside g low)
      (fun y low => by rw [shutter]; exact quiet.shutters outside y low)
    exact
      { rest := begun.rest.trans h.restStart
        clocks := fun i w window => by
          rw [← h.now]
          exact begun.clocks i w (by rw [h.prof]; exact window)
        groups := fun g y low found => by
          rw [← trem, ← h.now]
          exact begun.groups g y low (by rw [group]; exact found)
        shutters := fun y cfg low found => by
          rw [← shutter, ← h.now]
          exact begun.shutters y cfg low (by rw [set]; exact found) }
  · have state : a.ch.state = .ready := by rw [entered.frame]
    have tag : a.pf.tag = v.pf.tag := by rw [entered.frame]; exact h.tag
    rw [state, tag] at tells
    exact tells (by rw [keeps.1, h.mute]; exact speaks) (.inr ⟨st, v.pf.tag, (h.tells speaks room).keeps keeps⟩)
  · have holds : x.firstHolds = v.firstHolds := State.firstHolds_congr h.prof h.tsu
    have calls : x.calledPipes = v.calledPipes := State.calledPipes_congr h.prof (by rw [h.dt])
    have onward : (v.withChamber .ready).PaAlike (x.withChamber .ready) := by
      refine ⟨h.now, ?_, ?_, ?_, rfl⟩
      · show x.profile = v.profile
        rw [h.frame]
      · show x.pa = v.pa
        rw [h.frame]
      · show x.cc = v.cc
        rw [h.frame]
    have requests := entered'.requests b (k.trans onward)
    rw [holds, calls] at requests
    exact requests

end Sys2Proof.Machine
end

section
/-! What an admitted wake leaves (R137 to R143): the chamber on its way, and the laws of CH. -/

namespace Sys2Proof.Machine

/-! ### The gathering condition -/

theorem State.mem_missing {s : State} {b : Station} : b ∈ s.missing ↔ s.lacks b := by
  unfold State.missing State.lacks State.syncMember State.gathered
  simp only [List.mem_filter, List.mem_finRange, true_and, Bool.and_eq_true, bne_iff_ne, ne_eq, Bool.not_eq_true',
    Bool.and_eq_false_iff, beq_eq_false_iff_ne, Bool.or_eq_false_iff, and_assoc]
  tauto

theorem State.lacks_congr {s t : State} (prof : t.prof = s.prof) (station : t.pf.station = s.pf.station) (pt : t.pt = s.pt)
    (b : Station) : t.lacks b ↔ s.lacks b := by
  unfold State.lacks State.peer
  rw [prof, station, pt]

/-! ### A chamber that is still on its way -/

section
variable {v x : State} {st : ChamberState} {o : Origin} (h : v.cameTo st o x)
include h

theorem State.cameTo.profile : x.profile = v.profile := by rw [h.frame]

theorem State.cameTo.pt : x.pt = v.pt := by rw [h.frame]

theorem State.cameTo.house : v.keepsTheHouse x := by
  refine ⟨?_, ?_, ?_, ?_, ?_⟩ <;> rw [h.frame]

theorem State.cameTo.announces : v.announces x := by
  intro speaks room
  obtain ⟨q, waits, fault, own⟩ := h.tells speaks room
  exact ⟨q, waits, fault, by rw [h.ch]; exact own⟩

/-- R65, R99, R119, R131: on the way nothing runs. -/
theorem State.cameTo.quiet (quiet : v.QuietOutsideReady) (outside : v.ch.state ≠ .ready) {u : State}
    (same : u = { x with ch := { x.ch with sync := u.ch.sync } }) (sync : u.ch.sync.isSome = true ↔ st = .gathering) :
    u.QuietOutsideReady := by
  have state : u.ch.state = st := by rw [same, h.ch]
  refine ⟨fun _ => ?_, fun _ => ⟨?_, fun r low high => ?_⟩, fun _ => ?_, fun _ g low => ?_, fun _ y low => ?_, fun _ => ?_,
    by rw [state]; exact sync⟩
  · rw [same, h.frame]
    exact quiet.arbiter outside
  · rw [same, h.frame]
    exact (quiet.effects outside).1
  · have runner : u.runner r = x.runner r := by rw [same]; rfl
    rw [runner, h.runners r (by omega)]
    exact (quiet.effects outside).2 r low high
  · rw [same, h.frame]
    exact quiet.clocks outside
  · have trem : u.trem g = v.trem g := by rw [same, h.frame]; rfl
    rw [trem]
    exact quiet.groups outside g low
  · have shutter : u.shutter y = v.shutter y := by rw [same, h.frame]; rfl
    rw [shutter]
    exact quiet.shutters outside y low
  · rw [same, h.frame]
    exact quiet.rest outside

end

theorem State.QuietOutsideReady.stilled {s : State} (h : s.QuietOutsideReady) (outside : s.ch.state ≠ .ready) : s.stilled where
  groups g low := by rw [h.groups outside g low]; rfl
  sets x low := (h.shutters outside x low).1

theorem State.admits.outside {s : State} (h : s.admits) : s.ch.state ≠ .ready ∧ s.ch.state ≠ .gathering ∧
    s.ch.state ≠ .loading ∧ s.ch.state ≠ .profileFault ∧ s.isReady = false := by
  obtain ⟨-, dark | settling | resting⟩ := h
  · simp [State.isReady, dark]
  · simp [State.isReady, settling]
  · simp [State.isReady, resting]

/-! ### The outcomes -/

theorem State.ChamberSound.profile_ne {v : State} (sound : v.ChamberSound) (admits : v.admits) : v.profile ≠ none := fun none => by
  obtain ⟨-, -, loading, fault, -⟩ := admits.outside
  rcases sound.profiled.1 none with h | h
  · exact loading h
  · exact fault h

theorem State.QuietOutsideReady.sync_none {v : State} (quiet : v.QuietOutsideReady) (admits : v.admits) : v.ch.sync = none := by
  obtain ⟨-, gathering, -⟩ := admits.outside
  by_contra some
  exact gathering (quiet.sync.1 (Option.isSome_iff_ne_none.2 some))

/-- R51: the PIPE outputs that an entry to READY opens. -/
theorem State.ProfileSound.mem_calledPipes {s : State} (h : s.ProfileSound) {n : Nat} :
    n ∈ s.calledPipes ↔ (s.prof.windowOf n).map (·.kind) = some .pipe ∧ 0 < s.dt.pipe.get n := by
  unfold State.calledPipes
  rw [List.mem_filter, Profile.mem_outputsOf, decide_eq_true_eq]
  refine and_congr_left fun _ => ⟨?_, fun pipe => ?_⟩
  · rintro ⟨w, m, kind, holds⟩
    have window : s.prof.windowOf n = some w := by
      unfold State.prof at m ⊢
      cases p : s.profile with
      | none => rw [p] at m; cases m
      | some q =>
        rw [p] at m
        exact (h q p).windowOf m holds
    rw [window]
    simpa using kind
  · obtain ⟨w, found, kind⟩ := Option.map_eq_some_iff.1 pipe
    have holds := List.find?_some found
    exact ⟨w, List.mem_of_find?_eq_some found, by simpa using kind, holds⟩

/-- What a wake leaves: the chamber on its way, and the laws of CH. -/
structure State.wokenSound (v : State) (o : Origin) (u : State) : Prop where
  woken : v.wokenTo u o
  chamber : u.ChamberSound
  quiet : u.QuietOutsideReady

section
variable {v x : State} {o : Origin} (quiet : v.QuietOutsideReady) (sound : v.ChamberSound) (admits : v.admits)
include quiet sound admits

/-- R139: the WAKE script holds runner 0. -/
theorem State.cameTo.winding (h : v.cameTo .winding o x) {c : Context} (found : x.runner 0 = some c)
    (waits : c.waiting ≠ .running) (script : c.script = .wake) : v.wokenSound o x := by
  have state : x.ch.state = .winding := by rw [h.ch]
  have outside := admits.outside.1
  have sync : x.ch.sync = none := by rw [h.ch]; exact quiet.sync_none admits
  have noReady : x.ch.state ≠ .ready := by rw [state]; decide
  have noGathering : x.ch.state ≠ .gathering := by rw [state]; decide
  refine ⟨⟨⟨by rw [h.ch], .inl state, fun _ => noGathering, ⟨fun _ => by rw [found]; simp, fun _ => state⟩,
    fun _ => ⟨fun r => absurd r noReady, fun g => absurd g noGathering⟩, fun r => absurd r noReady, h.announces⟩,
    h.house, fun r => absurd r noReady⟩, ⟨fun c' e => ?_, fun e => ?_, ?_⟩, ?_⟩
  · rw [found] at e
    cases e
    exact ⟨waits, by rw [script, state]; rfl⟩
  · rw [found] at e
    cases e
  · rw [h.profile, state]
    exact ⟨fun none => absurd none (sound.profile_ne admits), fun either => by
      rcases either with e | e <;> cases e⟩
  · exact h.quiet quiet outside (u := x) rfl (by rw [sync]; simp)

/-- R141: the chamber waits for the members of its sync set. -/
theorem State.cameTo.gathers {u : State} (h : v.cameTo .gathering .dark x) (idle : x.runner 0 = none)
    (lacks : ∃ b, v.lacks b)
    (waits : u = { x with ch := { x.ch with sync := some (v.now + v.prof.params.syncTimeout * 1000000) } }) :
    v.wokenSound .dark u := by
  have state : u.ch.state = .gathering := by rw [waits, h.ch]
  have noReady : u.ch.state ≠ .ready := by rw [state]; decide
  have noWinding : u.ch.state ≠ .winding := by rw [state]; decide
  have sync : u.ch.sync = some (v.now + v.prof.params.syncTimeout * 1000000) := by rw [waits]
  have runner : u.runner 0 = none := by rw [waits]; exact idle
  have house : v.keepsTheHouse u := by
    obtain ⟨km, pt, profile, dt, pf⟩ := h.house
    refine ⟨?_, ?_, ?_, ?_, ?_⟩ <;> rw [waits]
    · exact km
    · exact pt
    · exact profile
    · exact dt
    · exact pf
  have announces : v.announces u := by
    intro speaks room
    obtain ⟨q, m, fault, own⟩ := h.announces speaks room
    refine ⟨q, by rw [waits]; exact m, fault, ?_⟩
    rw [state]
    rw [h.ch] at own
    exact own
  refine ⟨⟨⟨by rw [waits, h.ch], .inr (.inl state), fun other => (by cases other),
    ⟨fun w => absurd w noWinding, fun some => absurd runner some⟩,
    fun _ => ⟨fun r => absurd r noReady, fun _ => ⟨lacks, sync⟩⟩, fun r => absurd r noReady, announces⟩, house,
    fun r => absurd r noReady⟩, ⟨fun c e => ?_, fun _ => ⟨noWinding, ?_, ?_⟩, ?_⟩, ?_⟩
  · rw [runner] at e
    cases e
  · rw [state]; decide
  · rw [state]; decide
  · have profile : u.profile = v.profile := by rw [waits]; exact h.profile
    rw [profile, state]
    exact ⟨fun none => absurd none (sound.profile_ne admits), fun either => by
      rcases either with e | e <;> cases e⟩
  · exact h.quiet quiet admits.outside.1 (by rw [waits]) (by rw [sync]; simp)

/-- R143: the chamber is READY. -/
theorem State.wokeReady.woken {u : State} (h : v.wokeReady o u) (met : o = .dark → ∀ b, ¬ v.lacks b) : v.wokenSound o u := by
  have ch := congrArg State.ch h.frame
  have state : u.ch.state = .ready := by rw [ch]
  have noGathering : u.ch.state ≠ .gathering := by rw [state]; decide
  have noWinding : u.ch.state ≠ .winding := by rw [state]; decide
  have profile : u.profile = v.profile := by rw [h.frame]
  have outside := admits.outside.1
  have sync : u.ch.sync = none := by rw [ch]; exact quiet.sync_none admits
  have announces : v.announces u := by
    intro speaks room
    obtain ⟨q, m, fault, own⟩ := h.tells speaks room
    exact ⟨q, m, fault, by rw [state]; exact own⟩
  have house : v.keepsTheHouse u := by
    refine ⟨?_, ?_, profile, ?_, ?_⟩
    · rw [h.frame]
    · rw [h.frame]
    · exact congrArg State.dt h.frame
    · exact congrArg State.pf h.frame
  have asks : v.asksOnEntry u := by
    intro _ _ _ prof
    have calls : ∀ n, n ∈ v.calledPipes ↔ (v.prof.windowOf n).map (·.kind) = some .pipe ∧ 0 < v.dt.pipe.get n :=
      fun n => prof.mem_calledPipes
    have ascending : v.calledPipes.Pairwise (· < ·) := (prof.outputsOf_ascending _).filter _
    rcases h.requests (v.withChamber .ready) (.refl _) with asked | asked
    · exact ⟨_, ⟨v.calledPipes, ascending, calls, .inl rfl⟩, asked.pa, asked.cc⟩
    · exact ⟨_, ⟨v.calledPipes, ascending, calls, .inr rfl⟩, asked.pa, asked.cc⟩
  refine ⟨⟨⟨by rw [ch], .inr (.inr state), fun _ => noGathering,
    ⟨fun w => absurd w noWinding, fun some => absurd h.idle some⟩,
    fun dark => ⟨fun _ => met dark, fun g => absurd g noGathering⟩, fun _ q => h.begun q outside, announces⟩, house, asks⟩,
    ⟨fun c e => ?_, fun _ => ⟨noWinding, ?_, ?_⟩, ?_⟩, ?_⟩
  · rw [h.idle] at e
    cases e
  · rw [state]; decide
  · rw [state]; decide
  · rw [profile, state]
    exact ⟨fun none => absurd none (sound.profile_ne admits), fun either => by
      rcases either with e | e <;> cases e⟩
  · have none : ∀ {p : Prop}, u.ch.state ≠ .ready → p := fun out => absurd state out
    exact ⟨none, none, none, none, none, none, by rw [sync, state]; simp⟩

/-- R137 to R143: what an admitted wake leaves. -/
theorem admitWake_sound : v.wokenSound (if v.ch.state = .dark then .dark else .other) (admitWake v) := by
  obtain ⟨outside, -, -, -, away⟩ := admits.outside
  obtain ⟨x, came, ⟨c, found, waits, script, holds⟩ | ⟨idle, ended⟩⟩ := admitWake_cases away
  · rw [holds]
    exact came.winding quiet sound admits found waits script
  · rw [ended]
    have stilled := quiet.stilled outside
    have state : x.ch.state = .winding := by rw [came.ch]
    have origin : x.ch.origin = if v.ch.state = .dark then .dark else .other := by rw [came.ch]
    unfold chamberEnded
    dsimp only
    rw [if_pos state, origin]
    by_cases dark : v.ch.state = .dark
    · rw [if_pos dark] at came origin ⊢
      rw [if_pos rfl]
      have gathering := came.onward .gathering
      have notReady : x.isReady = false := by simp [State.isReady, state]
      unfold enterGathering
      rw [moveTo_outside .gathering notReady]
      have idle' : (handPresence (x.withChamber .gathering)).runner 0 = none := by
        have reach := handPresence_reach (x.withChamber .gathering)
        unfold State.runner
        rw [reach]
        exact idle
      generalize handPresence (x.withChamber .gathering) = g at *
      have lacks : ∀ b, b ∈ g.missing ↔ v.lacks b := fun b =>
        State.mem_missing.trans (State.lacks_congr gathering.prof gathering.station gathering.pt b)
      dsimp only
      by_cases none : g.missing = []
      · rw [if_pos none]
        refine (gathering.enterReady idle' stilled).woken quiet sound admits fun _ b missing => ?_
        have := (lacks b).2 missing
        rw [none] at this
        exact (List.not_mem_nil this).elim
      · rw [if_neg none]
        obtain ⟨b, m⟩ := List.exists_mem_of_ne_nil _ none
        refine gathering.gathers quiet sound admits idle' ⟨b, (lacks b).1 m⟩ ?_
        unfold State.after ms
        rw [gathering.now, gathering.prof,
          show 1000 * v.prof.params.syncTimeout * 1000 = v.prof.params.syncTimeout * 1000000 by omega]
    · rw [if_neg dark] at came origin ⊢
      rw [if_neg (by decide)]
      exact (came.enterReady idle stilled).woken quiet sound admits fun dark => by cases dark

end

end Sys2Proof.Machine
end

section
/-! What the changes of a KEYS frame leave in CH (R27, R137, R144). -/

namespace Sys2Proof.Machine

/-! ### Merged touches along a frame -/

/-- R23: a change moves the merged touch of its own key, to the highest of the slots. -/
theorem keyChange_mergedTouch (c d : Nat) (s : State) (x : Fin 64 × BitVec 2) {d' k' : Nat} (lk : k' < 64)
    [Decidable (s.movesKey c d x)] :
    (keyChange c d s x).mergedTouch d' k' =
      if s.movesKey c d x ∧ d' = d ∧ k' = x.1.val then (s.touched c d x).highest d x.1.val else s.mergedTouch d' k' := by
  by_cases moves : s.movesKey c d x
  · have ⟨key, differs, _⟩ := moves
    unfold keyChange setTouch
    rw [if_pos key, if_neg differs, remerge_mergedTouch]
    refine if_congr ?_ rfl rfl
    rw [cell_eq_iff lk x.1.isLt]
    exact ⟨fun own => ⟨moves, own⟩, fun own => own.2⟩
  · obtain ⟨slots, still⟩ := keyChange_still moves
    rw [still, if_neg fun own => moves own.1]
    rfl

/-- A key that is not the change's own keeps its merged touch. -/
theorem keyChange_mergedTouch_ne {c d : Nat} {s : State} {x : Fin 64 × BitVec 2} {d' k' : Nat} (lk : k' < 64)
    (other : ¬ (d' = d ∧ k' = x.1.val)) : (keyChange c d s x).mergedTouch d' k' = s.mergedTouch d' k' := by
  classical
  rw [keyChange_mergedTouch c d s x lk, if_neg fun own => other own.2]

/-- The key of a change that moves has then the highest touch of the slots. -/
theorem State.movesKey.mergedTouch {c d : Nat} {s : State} {x : Fin 64 × BitVec 2} (h : s.movesKey c d x) :
    (keyChange c d s x).mergedTouch d x.1.val = (s.touched c d x).highest d x.1.val := by
  classical
  rw [keyChange_mergedTouch c d s x x.1.isLt, if_pos ⟨h, rfl, rfl⟩]

theorem State.movesKey.moved {c d : Nat} {s : State} {x : Fin 64 × BitVec 2} (h : s.movesKey c d x) :
    (keyChange c d s x).mergedTouch d x.1.val ≠ s.mergedTouch d x.1.val := by
  rw [h.mergedTouch]
  exact h.2.2.symm

theorem keyChange_mergedTouch_still {c d : Nat} {s : State} {x : Fin 64 × BitVec 2} (h : ¬ s.movesKey c d x) (d' k' : Nat) :
    (keyChange c d s x).mergedTouch d' k' = s.mergedTouch d' k' := by
  obtain ⟨slots, still⟩ := keyChange_still h
  rw [still]
  rfl

/-- A key that no change names keeps its merged touch. -/
theorem keyChanges_mergedTouch_ne {c d : Nat} {d' k' : Nat} (lk : k' < 64) (l : List (Fin 64 × BitVec 2)) :
    ¬ (d' = d ∧ k' ∈ l.map (·.1.val)) → ∀ s : State, (l.foldl (keyChange c d) s).mergedTouch d' k' = s.mergedTouch d' k' := by
  induction l with
  | nil => exact fun _ _ => rfl
  | cons x rest ih =>
    intro out s
    rw [List.map_cons, List.mem_cons] at out
    rw [List.foldl_cons, ih (fun own => out ⟨own.1, .inr own.2⟩), keyChange_mergedTouch_ne lk fun own => out ⟨own.1, .inl own.2⟩]

/-- Where no key is named twice the first change's key is not named again. -/
theorem not_named_again {x : Fin 64 × BitVec 2} {rest : List (Fin 64 × BitVec 2)} (h : x.1 ∉ rest.map (·.1)) :
    x.1.val ∉ rest.map (·.1.val) := fun m => by
  obtain ⟨y, my, e⟩ := List.mem_map.1 m
  exact h (List.mem_map.2 ⟨y, my, Fin.ext e⟩)

/-- R23: a frame that names no key twice and moves no merged touch changes the slot alone. -/
theorem keyChanges_still {c d : Nat} (l : List (Fin 64 × BitVec 2)) : (l.map (·.1)).Nodup → ∀ s : State,
    (∀ k, k < 64 → (l.foldl (keyChange c d) s).mergedTouch d k = s.mergedTouch d k) →
    ∃ slots, l.foldl (keyChange c d) s = { s with km := { s.km with slots := slots } } := by
  induction l with
  | nil => exact fun _ s _ => ⟨s.km.slots, rfl⟩
  | cons x rest ih =>
    intro nodup s same
    rw [List.map_cons, List.nodup_cons] at nodup
    have own := keyChanges_mergedTouch_ne (c := c) (d := d) (d' := d) x.1.isLt rest
      (fun both => not_named_again nodup.1 both.2) (keyChange c d s x)
    have stands : ¬ s.movesKey c d x := fun moves => moves.moved (own.symm.trans (same x.1.val x.1.isLt))
    obtain ⟨slots, still⟩ := keyChange_still stands
    obtain ⟨slots', onward⟩ := ih nodup.2 (keyChange c d s x) fun k lk => by
      rw [keyChange_mergedTouch_still stands]
      exact same k lk
    exact ⟨slots', by rw [List.foldl_cons, onward, still]⟩

/-! ### The laws of CH along a frame -/

theorem keyChange_sound (c d : Nat) {s : State} (x : Fin 64 × BitVec 2) (sound : s.ChamberSound) (quiet : s.QuietOutsideReady) :
    (keyChange c d s x).ChamberSound ∧ (keyChange c d s x).QuietOutsideReady := by
  rcases keyChange_cases c d s x with ⟨-, reach⟩ | ⟨-, -, reach, -⟩ | ⟨-, -, -, m, reach, admits, woken⟩
  · exact ⟨reach.chamberSound sound quiet, reach.quiet quiet⟩
  · exact ⟨reach.chamberSound sound quiet, reach.quiet quiet⟩
  · have outcome := admitWake_sound (reach.quiet quiet) (reach.chamberSound sound quiet) admits
    rw [woken]
    exact ⟨outcome.chamber, outcome.quiet⟩

theorem keyChanges_sound (c d : Nat) (l : List (Fin 64 × BitVec 2)) : ∀ {s : State}, s.ChamberSound → s.QuietOutsideReady →
    (l.foldl (keyChange c d) s).ChamberSound ∧ (l.foldl (keyChange c d) s).QuietOutsideReady := by
  induction l with
  | nil => exact fun h k => ⟨h, k⟩
  | cons x rest ih =>
    intro s h k
    obtain ⟨h', k'⟩ := keyChange_sound c d x h k
    exact ih h' k'

theorem State.admits_congr {s t : State} (h : ReachKey s t) : t.admits ↔ s.admits := by
  unfold State.admits
  rw [h.re.prof, h.re.chamber]

/-- R137: where no wake is admitted, the changes reach no more than keys do. -/
theorem keyChanges_key (c d : Nat) (l : List (Fin 64 × BitVec 2)) : ∀ {s : State}, ¬ s.admits →
    ReachKey s (l.foldl (keyChange c d) s) := by
  induction l with
  | nil => exact fun {s} _ => .refl s
  | cons x rest ih =>
    intro s none
    rcases keyChange_cases c d s x with ⟨-, reach⟩ | ⟨-, -, reach, -⟩ | ⟨-, -, admits, -⟩
    · exact reach.trans (ih fun h => none ((State.admits_congr reach).1 h))
    · exact reach.trans (ih fun h => none ((State.admits_congr reach).1 h))
    · exact absurd admits none

/-! ### A wake among the changes -/

theorem State.readyBegun.of_key {s t u : State} (h : ReachKey s t) (k : t.readyBegun u) : s.readyBegun u where
  rest := k.rest.trans h.re.restStart
  clocks i w window := by
    rw [← h.re.now]
    exact k.clocks i w (by rw [h.re.prof]; exact window)
  groups g x low group := by
    have trem : t.trem g = s.trem g := by unfold State.trem; rw [h.tsu]
    rw [← h.re.now, ← trem]
    exact k.groups g x low (by rw [h.re.tremGroup]; exact group)
  shutters x cfg low set := by
    have shutter : t.shutter x = s.shutter x := by unfold State.shutter; rw [h.tsu]
    rw [← h.re.now, ← shutter]
    refine k.shutters x cfg low ?_
    unfold State.shutterSet
    rw [h.re.prof]
    exact set

/-- The changes before the wake are not seen in what it leaves. -/
theorem State.wokenChamber.of_key {s t u : State} {o : Origin} (h : ReachKey s t) (hushed : s.hushed)
    (k : t.wokenChamber u o) : s.wokenChamber u o := by
  obtain ⟨origin, states, other, runner, gathers, begun, announces⟩ := k
  have pt : t.pt = s.pt := by rw [h.re.frame]
  have station : t.pf.station = s.pf.station := by rw [h.re.frame]
  have tag : t.pf.tag = s.pf.tag := by rw [h.re.frame]
  have li : t.li = s.li := by rw [(h.outside hushed).frame]
  have lacks : ∀ b, t.lacks b ↔ s.lacks b := State.lacks_congr h.re.prof station pt
  refine ⟨origin, states, other, runner, fun dark => ?_, fun ready quiet => (begun ready (h.quiet quiet)).of_key h,
    fun speaks room => ?_⟩
  · obtain ⟨met, unmet⟩ := gathers dark
    refine ⟨fun ready b missing => met ready b ((lacks b).2 missing), fun waits => ?_⟩
    obtain ⟨⟨b, missing⟩, sync⟩ := unmet waits
    rw [h.re.now, h.re.prof] at sync
    exact ⟨⟨b, (lacks b).1 missing⟩, sync⟩
  · have told := announces (by rw [li]; exact speaks) (by rw [li]; exact room)
    rw [tag] at told
    exact told

/-- The changes after the wake leave what it left. -/
theorem State.wokenChamber.then_key {s t u : State} {o : Origin} (h : s.wokenChamber t o) (now : t.now = s.now)
    (prof : t.prof = s.prof) (quiet : t.QuietOutsideReady) (k : ReachKey t u) : s.wokenChamber u o := by
  obtain ⟨origin, states, other, runner, gathers, begun, announces⟩ := h
  have state : u.ch.state = t.ch.state := k.re.chamber
  have sync : u.ch.sync = t.ch.sync := by rw [k.re.frame]
  have tsu := k.tsu
  refine ⟨?_, by rw [state]; exact states, fun o => by rw [state]; exact other o, ?_, fun dark => ?_, fun ready q => ?_,
    fun speaks room => ?_⟩
  · rw [k.re.frame]
    exact origin
  · rw [state]
    by_cases winding : t.ch.state = .winding
    · have same := (k.outside (quiet.hushed (by rw [winding]; decide))).runner 0
      rw [same]
      exact runner
    · have idle : t.runner 0 = none := by
        by_contra some
        exact winding (runner.2 some)
      exact ⟨fun w => absurd w winding, fun some => absurd (k.re.spares.1 idle) some⟩
  · obtain ⟨met, unmet⟩ := gathers dark
    unfold State.gathersTo
    rw [state, sync]
    exact ⟨met, unmet⟩
  · rw [state] at ready
    have was := begun ready q
    have start : t.restStart = s.restStart := by
      unfold State.restStart
      rw [prof, now]
    refine ⟨?_, fun i w window => ?_, fun g x low group => ?_, fun x cfg low set => ?_⟩
    · rcases k.rest (by simp [State.isReady, ready]) with still | restarted
      · rw [still]
        exact was.rest
      · rw [restarted]
        exact start
    · have same : u.dt.clocks = t.dt.clocks := by rw [k.re.frame]
      rw [same]
      exact was.clocks i w window
    · have same : u.trem g = t.trem g := by unfold State.trem; rw [tsu]
      rw [same]
      exact was.groups g x low group
    · have same : u.shutter x = t.shutter x := by unfold State.shutter; rw [tsu]
      rw [same]
      exact was.shutters x cfg low set
  · obtain ⟨q, m, fault, own⟩ := announces speaks room
    exact ⟨q, k.re.spares.2.2 q m ⟨_, _, _, own⟩, fault, by rw [state]; exact own⟩

/-! ### A whole frame -/

/-- Some key's merged touch differs. -/
def State.movedTo (s u : State) : Prop := ∃ d k, d < 8 ∧ k < 64 ∧ u.mergedTouch d k ≠ s.mergedTouch d k

/-- Some key's merged touch is higher. -/
def State.risenTo (s u : State) : Prop := ∃ d k, d < 8 ∧ k < 64 ∧ (s.mergedTouch d k).rank < (u.mergedTouch d k).rank

theorem State.playedTo_iff (s u : State) : s.playedTo u ↔
    (s.risenTo u → s.admits → s.wokenChamber u (if s.ch.state = .dark then .dark else .other)) ∧
    (¬ (s.risenTo u ∧ s.admits) →
      (s.ch.state = .ready → s.movedTo u → u.ch = { s.ch with rest := s.restStart }) ∧
      (¬ (s.ch.state = .ready ∧ s.movedTo u) → u.ch = s.ch)) := Iff.rfl

section
variable {c d : Nat} {s u : State} {x : Fin 64 × BitVec 2}

/-- Where a key moves once, what moves in a frame moves at its first change or later. -/
theorem State.movedTo_iff (ld : d < 8) (own : u.mergedTouch d x.1.val = (keyChange c d s x).mergedTouch d x.1.val) :
    s.movedTo u ↔ s.movesKey c d x ∨ (keyChange c d s x).movedTo u := by
  constructor
  · rintro ⟨d', k', ld', lk', moved⟩
    by_cases here : d' = d ∧ k' = x.1.val
    · obtain ⟨rfl, rfl⟩ := here
      left
      by_contra stands
      rw [own, keyChange_mergedTouch_still stands] at moved
      exact moved rfl
    · refine .inr ⟨d', k', ld', lk', ?_⟩
      rw [keyChange_mergedTouch_ne lk' here]
      exact moved
  · rintro (moves | ⟨d', k', ld', lk', moved⟩)
    · exact ⟨d, x.1.val, ld, x.1.isLt, by rw [own]; exact moves.moved⟩
    · have there : ¬ (d' = d ∧ k' = x.1.val) := by
        rintro ⟨rfl, rfl⟩
        exact moved own
      rw [keyChange_mergedTouch_ne lk' there] at moved
      exact ⟨d', k', ld', lk', moved⟩

theorem State.risenTo_iff (ld : d < 8) (own : u.mergedTouch d x.1.val = (keyChange c d s x).mergedTouch d x.1.val) :
    s.risenTo u ↔ s.movesKey c d x ∧ s.raisesKey c d x ∨ (keyChange c d s x).risenTo u := by
  constructor
  · rintro ⟨d', k', ld', lk', risen⟩
    by_cases here : d' = d ∧ k' = x.1.val
    · obtain ⟨rfl, rfl⟩ := here
      left
      by_cases moves : s.movesKey c d' x
      · rw [own, moves.mergedTouch] at risen
        exact ⟨moves, risen⟩
      · rw [own, keyChange_mergedTouch_still moves] at risen
        exact absurd risen (Nat.lt_irrefl _)
    · refine .inr ⟨d', k', ld', lk', ?_⟩
      rw [keyChange_mergedTouch_ne lk' here]
      exact risen
  · rintro (⟨moves, raises⟩ | ⟨d', k', ld', lk', risen⟩)
    · exact ⟨d, x.1.val, ld, x.1.isLt, by rw [own, moves.mergedTouch]; exact raises⟩
    · have there : ¬ (d' = d ∧ k' = x.1.val) := by
        rintro ⟨rfl, rfl⟩
        rw [own] at risen
        exact Nat.lt_irrefl _ risen
      rw [keyChange_mergedTouch_ne lk' there] at risen
      exact ⟨d', k', ld', lk', risen⟩

end

/-- A wake's origin is the same before the changes that reach no more than keys do. -/
theorem origin_congr {s t : State} (h : ReachKey s t) :
    (if t.ch.state = .dark then Origin.dark else .other) = if s.ch.state = .dark then Origin.dark else .other := by
  rw [h.re.chamber]

theorem State.admits.hushed {s : State} (h : s.admits) (quiet : s.QuietOutsideReady) : s.hushed := quiet.hushed h.outside.1

/-- R137: once woken a chamber admits no wake. -/
theorem State.wokenSound.not_admits {s t : State} {o : Origin} (h : s.wokenSound o t) : ¬ t.admits := by
  rintro ⟨-, at_rest⟩
  obtain ⟨-, states, -⟩ := h.woken.1
  rcases states with e | e | e <;> rcases at_rest with r | r | r <;> rw [e] at r <;> cases r

/-- R27, R137, R144: CH after a frame that names no key twice. -/
theorem keyChanges_played {c d : Nat} (ld : d < 8) (l : List (Fin 64 × BitVec 2)) : (l.map (·.1)).Nodup →
    ∀ {s : State}, s.ChamberSound → s.QuietOutsideReady → s.playedTo (l.foldl (keyChange c d) s) := by
  induction l with
  | nil =>
    intro _ s _ _
    refine (State.playedTo_iff s s).2 ⟨fun ⟨_, _, _, _, risen⟩ => absurd risen (Nat.lt_irrefl _), fun _ =>
      ⟨fun _ ⟨_, _, _, _, moved⟩ => absurd rfl moved, fun _ => rfl⟩⟩
  | cons x rest ih =>
    intro nodup s sound quiet
    rw [List.map_cons, List.nodup_cons] at nodup
    have own := keyChanges_mergedTouch_ne (c := c) (d := d) (d' := d) x.1.isLt rest
      (fun both => not_named_again nodup.1 both.2) (keyChange c d s x)
    obtain ⟨sound', quiet'⟩ := keyChange_sound c d x sound quiet
    have later := (State.playedTo_iff _ _).1 (ih nodup.2 sound' quiet')
    have onward := keyChanges_key c d rest (s := keyChange c d s x)
    rw [List.foldl_cons, State.playedTo_iff, State.movedTo_iff ld own, State.risenTo_iff ld own]
    generalize rest.foldl (keyChange c d) (keyChange c d s x) = u at *
    obtain ⟨wakes, stays⟩ := later
    rcases keyChange_cases c d s x with ⟨stands, reach⟩ | ⟨moves, quietly, reach, restarts⟩ |
      ⟨moves, raises, admits, m, reach, admits', woken⟩
    · obtain ⟨slots, still⟩ := keyChange_still stands
      have ch : (keyChange c d s x).ch = s.ch := by rw [still]
      rw [ch, State.admits_congr reach, reach.re.restStart] at stays
      rw [origin_congr reach, State.admits_congr reach] at wakes
      refine ⟨fun risen admits => ?_, fun none => ?_⟩
      · have risen' := risen.resolve_left fun both => stands both.1
        exact (wakes risen' admits).of_key reach (admits.hushed quiet)
      · obtain ⟨restarts, rests⟩ := stays fun both => none ⟨.inr both.1, both.2⟩
        exact ⟨fun ready moved => restarts ready (moved.resolve_left stands),
          fun none => rests fun both => none ⟨both.1, .inr both.2⟩⟩
    · rw [State.admits_congr reach, reach.re.restStart, reach.re.chamber] at stays
      rw [origin_congr reach, State.admits_congr reach] at wakes
      refine ⟨fun risen admits => ?_, fun none => ⟨fun ready _ => ?_, fun still => ?_⟩⟩
      · have risen' := risen.resolve_left fun both => quietly ⟨both.2, admits⟩
        exact (wakes risen' admits).of_key reach (admits.hushed quiet)
      · obtain ⟨again, rests⟩ := stays fun both => none ⟨.inr both.1, both.2⟩
        have first : (keyChange c d s x).ch = { s.ch with rest := s.restStart } := by
          rw [← restarts (by simp [State.isReady, ready])]
          exact congrArg State.ch reach.re.frame
        by_cases more : (keyChange c d s x).movedTo u
        · rw [again ready more, first]
        · rw [rests fun both => more both.2, first]
      · have outside : s.ch.state ≠ .ready := fun ready => still ⟨ready, .inl moves⟩
        obtain ⟨-, rests⟩ := stays fun both => none ⟨.inr both.1, both.2⟩
        rw [rests fun both => outside both.1]
        exact (reach.outside (quiet.hushed outside)).ch
    · refine ⟨fun _ _ => ?_, fun none => absurd ⟨.inl ⟨moves, raises⟩, admits⟩ none⟩
      have outcome := admitWake_sound (reach.quiet quiet) (reach.chamberSound sound quiet) admits'
      have clock := admitWake_reach m
      rw [← woken, origin_congr reach] at outcome
      rw [← woken] at clock
      exact (outcome.woken.1.then_key clock.km.now clock.km.prof quiet' (onward outcome.not_admits)).of_key reach
        (admits.hushed quiet)

end Sys2Proof.Machine
end

section
/-! O13: what the changes of a KEYS frame make of KM besides the touches (R24, R30, R31, R32, R34). -/

namespace Sys2Proof.Machine

/-! ### The other slots, the stops and the refused stations -/

/-- A change of a key leaves the other slots, the stops and the refused stations. -/
structure KeepsKm (c : Nat) (s t : State) : Prop where
  slot : ∀ c', c' ≠ c → t.slot c' = s.slot c'
  stopOn : t.km.stopOn = s.km.stopOn
  refused : t.km.refused = s.km.refused

theorem KeepsKm.refl (c : Nat) (s : State) : KeepsKm c s s := ⟨fun _ _ => rfl, rfl, rfl⟩

theorem KeepsKm.trans {c : Nat} {s t u : State} (h : KeepsKm c s t) (k : KeepsKm c t u) : KeepsKm c s u :=
  ⟨fun c' other => (k.slot c' other).trans (h.slot c' other), k.stopOn.trans h.stopOn, k.refused.trans h.refused⟩

theorem keyChange_keepsKm (c d : Nat) (s : State) (x : Fin 64 × BitVec 2) : KeepsKm c s (keyChange c d s x) := by
  unfold keyChange setTouch
  split
  · split
    · exact .refl c s
    · obtain ⟨stopOn, refused⟩ := remerge_stopOn false d x.1.val (s.setSlotTouch c d x.1.val (touchOfCode x.2))
      refine ⟨fun c' other => ?_, stopOn, refused⟩
      rw [remerge_slot, s.slot_setSlotTouch_ne other]
  · exact .refl c s

theorem keyChanges_keepsKm (c d : Nat) (l : List (Fin 64 × BitVec 2)) (s : State) :
    KeepsKm c s (l.foldl (keyChange c d) s) :=
  foldl_reach (KeepsKm c) (.refl c) (fun _ _ _ => .trans) _ (keyChange_keepsKm c d) l s

theorem keyChanges_reach (c d : Nat) (l : List (Fin 64 × BitVec 2)) (s : State) : ReachKm s (l.foldl (keyChange c d) s) :=
  foldl_reach ReachKm .refl (fun _ _ _ => .trans) _ (keyChange_reach c d) l s

theorem keyChanges_station (c d : Nat) (l : List (Fin 64 × BitVec 2)) (s : State) (c' : Nat) :
    ((l.foldl (keyChange c d) s).slot c').station = (s.slot c').station :=
  foldl_reach (fun s t => (t.slot c').station = (s.slot c').station) (fun _ => rfl) (fun _ _ _ h k => k.trans h) _
    (fun s x => keyChange_station c d s x c') l s

/-! ### The pizzicato list after one change -/

theorem ReachKm.pizzEntry {s t : State} (h : ReachKm s t) : t.pizzEntry t.now = s.pizzEntry s.now := by
  unfold State.pizzEntry
  rw [h.now, h.prof]

theorem keyChange_pizzicato_still {c d : Nat} {s : State} {x : Fin 64 × BitVec 2} (h : ¬ s.movesKey c d x) :
    (keyChange c d s x).km.pizzicato = s.km.pizzicato := by
  obtain ⟨slots, still⟩ := keyChange_still h
  rw [still]

/-- R31, R32, R34: the list after a change that moves its key. -/
theorem State.movesKey.pizzicato {c d : Nat} {s : State} {x : Fin 64 × BitVec 2} (h : s.movesKey c d x) :
    (keyChange c d s x).km.pizzicato =
      s.listAfter d x.1.val (s.mergedTouch d x.1.val) ((keyChange c d s x).mergedTouch d x.1.val) := by
  obtain ⟨key, differs, moved⟩ := id h
  rw [h.mergedTouch]
  unfold keyChange setTouch
  rw [if_pos key, if_neg differs, remerge_pizzicato, if_neg (by exact moved)]
  rfl

section
variable {c d : Nat} {s : State} {x : Fin 64 × BitVec 2}

/-- R34: a fall from SECOND takes the key's entry out. -/
theorem keyChange_fall (was : s.mergedTouch d x.1.val = .second) (is : (keyChange c d s x).mergedTouch d x.1.val ≠ .second) :
    (keyChange c d s x).km.pizzicato = withoutKey d x.1.val s.km.pizzicato := by
  have moves : s.movesKey c d x := by
    by_contra stands
    rw [keyChange_mergedTouch_still stands] at is
    exact is was
  rw [moves.pizzicato, was, State.listAfter_fall is]

/-- Otherwise the list stands. -/
theorem keyChange_other
    (same : s.mergedTouch d x.1.val = .second ↔ (keyChange c d s x).mergedTouch d x.1.val = .second) :
    (keyChange c d s x).km.pizzicato = s.km.pizzicato := by
  by_cases moves : s.movesKey c d x
  · have differs := moves.moved
    have was : s.mergedTouch d x.1.val ≠ .second := fun was => differs ((same.1 was).trans was.symm)
    rw [moves.pizzicato, State.listAfter_other was fun is => was (same.2 is)]
  · exact keyChange_pizzicato_still moves

variable (sound : s.KeyboardSound)
include sound

/-- R31, R32: a rise to SECOND appends the key's entry to a list with room for it. -/
theorem keyChange_rise (was : s.mergedTouch d x.1.val ≠ .second) (is : (keyChange c d s x).mergedTouch d x.1.val = .second) :
    (keyChange c d s x).km.pizzicato =
      (if s.km.pizzicato.length < 64 then s.km.pizzicato else s.km.pizzicato.tail) ++ [s.pizzEntry s.now d x.1.val] := by
  have moves : s.movesKey c d x := by
    by_contra stands
    rw [keyChange_mergedTouch_still stands] at is
    exact was is
  rw [moves.pizzicato, is, State.listAfter_rise was, roomIn_eq sound.once sound.ordered]

/-- R30: every entry is one of before or the change's own. -/
theorem mem_keyChange {e : PizzEntry} (m : e ∈ (keyChange c d s x).km.pizzicato) :
    e ∈ s.km.pizzicato ∨ x.1.val < s.prof.keyCount d ∧ e = s.pizzEntry s.now d x.1.val := by
  by_cases moves : s.movesKey c d x
  · rw [moves.pizzicato] at m
    rcases (sound.but d x.1.val).mem_listAfter rfl moves.moved.symm m with ⟨listed, -⟩ | ⟨-, own⟩
    · exact .inl listed
    · exact .inr ⟨moves.1, own⟩
  · rw [keyChange_pizzicato_still moves] at m
    exact .inl m

/-- Where the list has room an entry of another key stays. -/
theorem keyChange_stays (room : s.km.pizzicato.length < 64) {e : PizzEntry} (m : e ∈ s.km.pizzicato)
    (other : e.key ≠ x.1.val) : e ∈ (keyChange c d s x).km.pizzicato := by
  by_cases was : s.mergedTouch d x.1.val = .second <;>
    by_cases is : (keyChange c d s x).mergedTouch d x.1.val = .second
  · rw [keyChange_other ⟨fun _ => is, fun _ => was⟩]
    exact m
  · rw [keyChange_fall was is]
    exact mem_withoutKey.2 ⟨m, fun own => other own.2⟩
  · rw [keyChange_rise sound was is, if_pos room]
    exact List.mem_append_left _ m
  · rw [keyChange_other ⟨fun w => absurd w was, fun i => absurd i is⟩]
    exact m

/-- A change makes the list longer by one entry at most, and by none above the key count. -/
theorem keyChange_length : (keyChange c d s x).km.pizzicato.length ≤
    s.km.pizzicato.length + if x.1.val < s.prof.keyCount d then 1 else 0 := by
  by_cases was : s.mergedTouch d x.1.val = .second <;>
    by_cases is : (keyChange c d s x).mergedTouch d x.1.val = .second
  · rw [keyChange_other ⟨fun _ => is, fun _ => was⟩]
    omega
  · rw [keyChange_fall was is]
    exact (List.length_filter_le _ _).trans (Nat.le_add_right _ _)
  · have key : x.1.val < s.prof.keyCount d := by
      by_contra above
      rw [keyChange_mergedTouch_still fun moves => above moves.1] at is
      exact was is
    rw [keyChange_rise sound was is, if_pos key, List.length_append]
    split
    · exact Nat.le_refl _
    · rw [List.length_tail]
      exact Nat.add_le_add_right (Nat.sub_le _ _) 1
  · rw [keyChange_other ⟨fun w => absurd w was, fun i => absurd i is⟩]
    omega

end

/-! ### The pizzicato list after a frame -/

/-- R30: every entry is one of before or one that the frame made. -/
theorem mem_keyChanges {c d : Nat} (ld : d < 8) (l : List (Fin 64 × BitVec 2)) : ∀ {s : State}, s.playedFrom c →
    ∀ e ∈ (l.foldl (keyChange c d) s).km.pizzicato,
      e ∈ s.km.pizzicato ∨ ∃ x ∈ l, x.1.val < s.prof.keyCount d ∧ e = s.pizzEntry s.now d x.1.val := by
  induction l with
  | nil => exact fun _ e m => .inl m
  | cons x rest ih =>
    intro s played e m
    have reach := keyChange_reach c d s x
    rcases ih (played.keyChange ld x) e m with listed | ⟨y, my, key, made⟩
    · rcases mem_keyChange played.1 listed with was | made
      · exact .inl was
      · exact .inr ⟨x, List.mem_cons_self, made⟩
    · rw [reach.prof] at key
      rw [reach.pizzEntry] at made
      exact .inr ⟨y, List.mem_cons_of_mem _ my, key, made⟩

/-- R31: where the list has room for the frame, every key of `keys` that is at SECOND keeps an entry of this moment. -/
theorem keyChanges_fresh {c d : Nat} (ld : d < 8) {keys : Nat → Prop} (l : List (Fin 64 × BitVec 2)) : ∀ {s : State},
    s.playedFrom c → s.km.pizzicato.length + l.length ≤ 64 →
    (∀ k, k < 64 → keys k → s.mergedTouch d k = .second → s.pizzEntry s.now d k ∈ s.km.pizzicato) →
    ∀ k, k < 64 → keys k → (l.foldl (keyChange c d) s).mergedTouch d k = .second →
      s.pizzEntry s.now d k ∈ (l.foldl (keyChange c d) s).km.pizzicato := by
  induction l with
  | nil => exact fun _ _ fresh => fresh
  | cons x rest ih =>
    intro s played room fresh
    rw [List.length_cons] at room
    have short : s.km.pizzicato.length < 64 := by omega
    have longer : (keyChange c d s x).km.pizzicato.length ≤ s.km.pizzicato.length + 1 :=
      (keyChange_length (c := c) (d := d) (x := x) played.1).trans (by split <;> omega)
    rw [← (keyChange_reach c d s x).pizzEntry]
    refine ih (played.keyChange ld x) (by omega) fun k lk own is => ?_
    rw [(keyChange_reach c d s x).pizzEntry]
    by_cases here : k = x.1.val
    · subst here
      by_cases was : s.mergedTouch d x.1.val = .second
      · rw [keyChange_other ⟨fun _ => is, fun _ => was⟩]
        exact fresh _ lk own was
      · rw [keyChange_rise played.1 was is]
        exact List.mem_append_right _ List.mem_cons_self
    · rw [keyChange_mergedTouch_ne lk fun both => here both.2] at is
      exact keyChange_stays played.1 short (fresh k lk own is) here

/-- The entries of a list whose keys are at SECOND in `u`. -/
def State.atSecond (u : State) (l : List PizzEntry) : List PizzEntry :=
  l.filter fun e => decide (u.mergedTouch e.division e.key = .second)

/-- The keys of a list that have come to SECOND between `s` and `u`. -/
def State.comeToSecond (s u : State) (d : Nat) (l : List Nat) : List Nat :=
  l.filter fun k => decide (s.mergedTouch d k ≠ .second ∧ u.mergedTouch d k = .second)

theorem State.KeyboardSound.atSecond {s : State} (h : s.KeyboardSound) : s.atSecond s.km.pizzicato = s.km.pizzicato :=
  List.filter_eq_self.2 fun e m => decide_eq_true (h.entries e m).2.2.1

theorem State.atSecond_withoutKey {u : State} {d k : Nat} (is : u.mergedTouch d k ≠ .second) (l : List PizzEntry) :
    u.atSecond (withoutKey d k l) = u.atSecond l := by
  unfold State.atSecond withoutKey
  rw [List.filter_filter]
  refine List.filter_congr fun e _ => ?_
  rw [Bool.and_eq_left_iff_imp]
  intro second
  have own : ¬ (e.division = d ∧ e.key = k) := by
    rintro ⟨rfl, rfl⟩
    exact is (of_decide_eq_true second)
  simp only [Bool.not_eq_true', Bool.and_eq_false_iff, beq_eq_false_iff_ne]
  exact not_and_or.1 own

theorem State.comeToSecond_congr {s t u : State} {d : Nat} {l : List Nat}
    (h : ∀ k ∈ l, t.mergedTouch d k = s.mergedTouch d k) : t.comeToSecond u d l = s.comeToSecond u d l :=
  List.filter_congr fun k m => by rw [h k m]

theorem State.comeToSecond_cons (s u : State) (d k : Nat) (l : List Nat) : s.comeToSecond u d (k :: l) =
    if s.mergedTouch d k ≠ .second ∧ u.mergedTouch d k = .second then k :: s.comeToSecond u d l
    else s.comeToSecond u d l := by
  unfold State.comeToSecond
  rw [List.filter_cons]
  simp only [decide_eq_true_eq]

/-- R25, R31, R34: where each key is named once and the list has room, the entries that the frame makes stand in the order
of its changes behind those that it leaves. -/
theorem keyChanges_pizzicato {c d : Nat} (ld : d < 8) (l : List (Fin 64 × BitVec 2)) : ∀ {s : State}, s.playedFrom c →
    (l.map (·.1)).Nodup → s.km.pizzicato.length + (l.filter fun x => decide (x.1.val < s.prof.keyCount d)).length ≤ 64 →
    (l.foldl (keyChange c d) s).km.pizzicato =
      (l.foldl (keyChange c d) s).atSecond s.km.pizzicato ++
        (s.comeToSecond (l.foldl (keyChange c d) s) d (l.map (·.1.val))).map (s.pizzEntry s.now d) := by
  induction l with
  | nil =>
    intro s played _ _
    exact (played.1.atSecond.symm.trans (List.append_nil _).symm)
  | cons x rest ih =>
    intro s played nodup room
    rw [List.map_cons, List.nodup_cons] at nodup
    have apart := not_named_again nodup.1
    have reach := keyChange_reach c d s x
    have own := keyChanges_mergedTouch_ne (c := c) (d := d) (d' := d) x.1.isLt rest (fun both => apart both.2)
      (keyChange c d s x)
    have others : ∀ k ∈ rest.map (·.1.val), (keyChange c d s x).mergedTouch d k = s.mergedTouch d k := fun k m => by
      obtain ⟨y, -, rfl⟩ := List.mem_map.1 m
      exact keyChange_mergedTouch_ne y.1.isLt fun both => apart (both.2 ▸ m)
    have counted : ((x :: rest).filter fun x => decide (x.1.val < s.prof.keyCount d)).length =
        (rest.filter fun x => decide (x.1.val < s.prof.keyCount d)).length + if x.1.val < s.prof.keyCount d then 1 else 0 := by
      by_cases key : x.1.val < s.prof.keyCount d <;> simp [key]
    rw [counted] at room
    have longer := keyChange_length (c := c) (d := d) (x := x) played.1
    have onward := ih (played.keyChange ld x) nodup.2 (by rw [reach.prof]; omega)
    rw [reach.pizzEntry, State.comeToSecond_congr others] at onward
    rw [List.foldl_cons, onward, List.map_cons, State.comeToSecond_cons, own]
    by_cases was : s.mergedTouch d x.1.val = .second <;>
      by_cases is : (keyChange c d s x).mergedTouch d x.1.val = .second
    · rw [keyChange_other ⟨fun _ => is, fun _ => was⟩, if_neg fun both => both.1 was]
    · rw [keyChange_fall was is, State.atSecond_withoutKey (by rw [own]; exact is), if_neg fun both => both.1 was]
    · have key : x.1.val < s.prof.keyCount d := by
        by_contra above
        rw [keyChange_mergedTouch_still fun moves => above moves.1] at is
        exact was is
      rw [if_pos key] at room
      have stands : (rest.foldl (keyChange c d) (keyChange c d s x)).atSecond [s.pizzEntry s.now d x.1.val] =
          [s.pizzEntry s.now d x.1.val] := List.filter_eq_self.2 fun e m => by
        rw [List.mem_singleton.1 m]
        exact decide_eq_true (own.trans is)
      rw [keyChange_rise played.1 was is, if_pos (by omega), if_pos ⟨was, is⟩, List.map_cons, State.atSecond,
        List.filter_append, List.append_assoc]
      congr 1
      exact congrArg (· ++ _) stands
    · rw [keyChange_other ⟨fun w => absurd w was, fun i => absurd i is⟩, if_neg fun both => is both.2]

end Sys2Proof.Machine
end

section
/-! O13: the change of one key, as RE and EE take it (R27, R28, R32). -/

namespace Sys2Proof.Machine

/-- R32: `h` after the falls of the entry that a rise to SECOND evicts from a full list. -/
def State.roomedBy (h : State) (old new : Touch) : State :=
  match h.km.pizzicato with
  | [] => h
  | e :: _ =>
    if 64 ≤ h.km.pizzicato.length ∧ old ≠ Touch.second ∧ new = Touch.second then
      application false (pizzDeltas h.prof h.km.stopOn e.division e.key) h
    else h

/-- R27: the change of a key between `h` and `u`, taken by RE as one application of its deltas. -/
def State.takenBy (h u : State) (d k : Nat) (old new : Touch) : State :=
  application false (mergedDeltas h.prof h.km.stopOn d k old new (h.hasPizz d k) (u.hasPizz d k))
    { h.roomedBy old new with km := u.km }

/-- R28: and then, on division 7, by EE as stud deltas. -/
def State.studdedBy (h u : State) (d k : Nat) (old new : Touch) : State :=
  if d = 7 then studDeltas k old new (h.takenBy u d k old new) else h.takenBy u d k old new

/-- `h` with the slots that a frame leaves. -/
def State.withSlots (h : State) (slots : Table Slot) : State := { h with km := { h.km with slots := slots } }

/-- R32: what is evicted does not depend on the slots. -/
theorem State.roomed_withSlots {h : State} (slots : Table Slot) (km : Km) {old new : Touch} (differ : old ≠ new)
    (ordered : h.km.pizzicato.Pairwise (fun e f => e.expiry ≤ f.expiry)) :
    { (h.withSlots slots).roomed new with km := km } = { h.roomedBy old new with km := km } := by
  unfold State.roomed State.evicted State.roomedBy
  have list : (h.withSlots slots).km.pizzicato = h.km.pizzicato := rfl
  rw [list, earliestPizz_ordered ordered]
  cases entries : h.km.pizzicato with
  | nil => simp [State.withSlots]
  | cons e rest =>
    dsimp only [List.head?_cons]
    by_cases is : new = .second
    · have was : old ≠ .second := fun was => differ (was.trans is.symm)
      by_cases full : 64 ≤ (e :: rest).length
      · rw [if_pos is, if_pos full, if_pos ⟨full, was, is⟩]
        unfold State.withSlots
        rw [pizzApplication_withKm]
        rfl
      · rw [if_pos is, if_neg full, if_neg fun all => full all.1]
        rfl
    · rw [if_neg is, if_neg fun all => is all.2.2]
      rfl

/-- R27, R28: a merged change, as the statements say it. -/
theorem State.studded_eq {h u : State} (slots : Table Slot) {d k : Nat} {old new : Touch} (differ : old ≠ new)
    (ordered : h.km.pizzicato.Pairwise (fun e f => e.expiry ≤ f.expiry))
    (km : u.km = (h.withSlots slots).kmAfter d k old new) :
    (h.withSlots slots).studded false d k old new = h.studdedBy u d k old new := by
  have list : u.hasPizz d k = listed d k ((h.withSlots slots).listAfter d k old new) := by
    rw [State.hasPizz_eq, km]
    rfl
  have merging : (h.withSlots slots).merging false d k old new = h.takenBy u d k old new := by
    unfold State.merging State.takenBy
    rw [State.roomed_withSlots slots _ differ ordered, ← km, list]
    rfl
  unfold State.studded State.studdedBy
  rw [merging]
  by_cases studs : d = 7 <;> simp [studs]

theorem State.studded_km (s : State) (allOff : Bool) (d k : Nat) (old new : Touch) :
    (s.studded allOff d k old new).km = s.kmAfter d k old new := by
  unfold State.studded State.merging
  split
  · rw [studDeltas_km, application_km]
  · rw [application_km]

/-- An offer of PLAY leaves KM. -/
theorem offerWake_km (w : WakeCause) (s : State) : (offerWake w s).km = s.km := (offerWake_reach w s).km_eq

section
variable {h : State} {slots : Table Slot} {c d : Nat} {x : Fin 64 × BitVec 2}

/-- The key of a change keeps its merged touch, or the change moves it. -/
theorem State.movesKey_of_ne {s : State}
    (differ : s.mergedTouch d x.1.val ≠ (keyChange c d s x).mergedTouch d x.1.val) : s.movesKey c d x := by
  by_contra stands
  exact differ (keyChange_mergedTouch_still stands d x.1.val).symm

/-- R27, R28, R137: a change that moves its key, taken by RE and EE, restarts the rest timer and, where it is a rise, offers
PLAY. -/
theorem keyChange_studded (ordered : h.km.pizzicato.Pairwise (fun e f => e.expiry ≤ f.expiry)) :
    let b := h.withSlots slots
    let u := keyChange c d b x
    let old := h.mergedTouch d x.1.val
    let new := u.mergedTouch d x.1.val
    old ≠ new → (b.touched c d x).studded false d x.1.val old new = h.studdedBy u d x.1.val old new ∧
      u = if old.rank < new.rank then offerWake .play (restartRest (h.studdedBy u d x.1.val old new))
        else restartRest (h.studdedBy u d x.1.val old new) := by
  intro b u old new differ
  have moves : b.movesKey c d x := State.movesKey_of_ne differ
  have handed : u = _ := keyChange_moved moves
  have is : (b.touched c d x).highest d x.1.val = new := moves.mergedTouch.symm
  have was : b.mergedTouch d x.1.val = old := rfl
  dsimp only at handed
  rw [is, was] at handed
  unfold State.handed at handed
  obtain ⟨slots', touched⟩ : ∃ slots', b.touched c d x = h.withSlots slots' := ⟨_, rfl⟩
  rw [touched] at handed ⊢
  have km : u.km = (h.withSlots slots').kmAfter d x.1.val old new := by
    rw [handed]
    split
    · rw [offerWake_km, restartRest_km, State.studded_km]
    · rw [restartRest_km, State.studded_km]
  have studded := State.studded_eq (u := u) slots' differ ordered km
  rw [studded] at handed
  exact ⟨studded, handed⟩

/-- R27, R28, R137, R144: a change that moves its key leaves what RE and EE took, with the rest timer apart, or wakes the
chamber from there. -/
theorem keyChange_taken (ordered : h.km.pizzicato.Pairwise (fun e f => e.expiry ≤ f.expiry)) (sound : h.ChamberSound)
    (quiet : h.QuietOutsideReady) :
    let u := keyChange c d (h.withSlots slots) x
    let old := h.mergedTouch d x.1.val
    let new := u.mergedTouch d x.1.val
    let wakes := old.rank < new.rank ∧ h.admits
    (old ≠ new → ¬ wakes → u = { h.studdedBy u d x.1.val old new with ch := u.ch }) ∧
      (wakes → (h.studdedBy u d x.1.val old new).wokenTo u (if h.ch.state = .dark then .dark else .other)) := by
  intro u old new wakes
  have facts := keyChange_studded (c := c) (d := d) (x := x) (slots := slots) ordered
  dsimp only at facts
  have key : ReachKey h ((h.withSlots slots).touched c d x) := (withKm_key h _).trans ((h.withSlots slots).touched_key c d x)
  have handed := key.trans (((h.withSlots slots).touched c d x).handed_key d x.1.val old new)
  have taken := key.taken.trans (((h.withSlots slots).touched c d x).studded_taken false d x.1.val old new)
  unfold State.handed at handed
  refine ⟨fun differ stays => ?_, fun ⟨rises, admits⟩ => ?_⟩
  · obtain ⟨studded, result⟩ := facts differ
    rw [studded] at handed
    have rested : u = restartRest (h.studdedBy u d x.1.val old new) := by
      refine result.trans ?_
      split
      · next rises => exact offerWake_refused fun admits => stays ⟨rises, (State.admits_congr handed).1 admits⟩
      · rfl
    generalize h.studdedBy u d x.1.val old new = v at rested
    rw [restartRest_withRest] at rested
    rw [rested]
    rfl
  · obtain ⟨studded, result⟩ := facts fun same => by rw [show old = new from same] at rises; exact Nat.lt_irrefl _ rises
    rw [studded] at handed taken
    have outside : (h.studdedBy u d x.1.val old new).isReady = false := by
      rw [taken.re.isReady]
      exact admits.outside.2.2.2.2
    rw [restartRest_eq, if_neg (by rw [outside]; decide)] at handed
    have admits' := (State.admits_congr handed).2 admits
    have woken : u = admitWake (h.studdedBy u d x.1.val old new) := by
      refine result.trans ((if_pos rises).trans ?_)
      rw [restartRest_eq, if_neg (by rw [outside]; decide), admits'.offerWake]
    have outcome := admitWake_sound (handed.quiet quiet) (handed.chamberSound sound quiet) admits'
    rw [origin_congr handed, ← woken] at outcome
    exact outcome.woken

end

end Sys2Proof.Machine
end

section
/-! O13: a KEYS frame and a SNAP frame as lists of changes, and what they leave of KM and of the other blocks (R21, R24). -/

namespace Sys2Proof.Machine

/-! ### The frame and its changes -/

/-- A KEYS frame's changes, taken one after the other in the slot of its sender. -/
def State.keyed (s : State) (t : Nat) (a : Station) (c d : Nat) (changes : List (Fin 64 × BitVec 2)) : State :=
  changes.foldl (keyChange c d) ((s.hearing t a).seated a c)

/-- R25: a SNAP frame's keys as changes. -/
def snapChanges (codes : List (BitVec 2)) : List (Fin 64 × BitVec 2) :=
  (List.finRange 64).map fun k => (k, codes.getD k.val 0)

theorem keys_eq {s : State} {t : Nat} {a : Station} {c : Nat} (d : Fin 8) (changes : List (Fin 64 × BitVec 2))
    (serves : s.serves) (seats : s.seats a c) :
    exec (.keys t a d changes) s = .next (runChamber (s.keyed t a c d.val changes)) := playing_eq serves seats

theorem snap_eq {s : State} {t : Nat} {a : Station} {c : Nat} (d : Fin 8) (codes : List (BitVec 2)) (serves : s.serves)
    (seats : s.seats a c) (fit : s.prof.keyCount d.val ≤ 64) :
    exec (.snap t a d codes) s = .next (runChamber (s.keyed t a c d.val (snapChanges codes))) := by
  have run : exec (.snap t a d codes) s =
      .next (runChamber (snapKeys c d.val codes ((s.hearing t a).seated a c))) := playing_eq serves seats
  rw [run, snapKeys_eq codes (by exact fit)]
  rfl

section
variable {s : State} {t : Nat} {a : Station} {c d : Nat} {changes : List (Fin 64 × BitVec 2)}

theorem State.seats.playedFrom (seats : s.seats a c) (sound : s.KeyboardSound) :
    ((s.hearing t a).seated a c).playedFrom c := by
  have heard : (s.hearing t a).KeyboardSound := sound.congr rfl (Nat.le_max_left _ _) rfl
  have bound : (((s.hearing t a).seated a c).slot c).station = some a := by
    rw [State.seated_slot]
    split
    · next own => exact (State.slotOf_bound own).2
    · rw [if_pos rfl]
  refine ⟨?_, by rw [bound]; simp⟩
  rcases seats with own | ⟨unbound, isFree⟩
  · rw [State.seated_of_bound (show (s.hearing t a).slotOf a = some c from own)]
    exact heard
  · have seated : (s.hearing t a).seated a c = (s.hearing t a).setSlot c { station := some a, touch := .empty } := by
      unfold State.seated
      rw [if_neg (by rw [show (s.hearing t a).slotOf a = none from unbound]; simp)]
      rfl
    rw [seated]
    exact heard.bind (show (s.hearing t a).slotOf a = none from unbound) isFree

/-- What a frame whose changes are `changes` leaves but for the merged touches and the pizzicato list. -/
structure State.keysLeave (s : State) (t : Nat) (a : Station) (c d : Nat) (changes : List (Fin 64 × BitVec 2)) (u : State) :
    Prop where
  station : (u.slot c).station = some a
  touch : ∀ d' k, k < 64 → u.slotTouch c d' k =
    let before := if s.slotOf a = some c then s.slotTouch c d' k else .up
    if d' = d ∧ k < s.prof.keyCount d' then ((lastChange changes k).map touchOfCode).getD before else before
  others : ∀ c', c' ≠ c → u.slot c' = s.slot c'
  stopOn : u.km.stopOn = s.km.stopOn
  refused : u.km.refused = s.km.refused
  profile : u.profile = s.profile
  pt : u.pt = (s.hearing t a).pt
  pf : u.pf.station = s.pf.station ∧ u.pf.tag = s.pf.tag ∧ u.pf.cause = s.pf.cause
  still : (changes.map (·.1)).Nodup → (∀ k, k < 64 → u.mergedTouch d k = s.mergedTouch d k) →
    u = { s.hearing t a with km := { s.km with slots := u.km.slots } }

/-- R24: the sender's slot before the frame: its own, or a free one with every key UP. -/
theorem State.seated_slotTouch (s : State) (a : Station) (c d k : Nat) :
    (s.seated a c).slotTouch c d k = if s.slotOf a = some c then s.slotTouch c d k else .up := by
  unfold State.slotTouch
  rw [State.seated_slot]
  split
  · rfl
  · rw [if_pos rfl]
    rfl

theorem keyed_km (v : State) : (runChamber v).km = v.km := (runChamber_reach v).km_eq

theorem keyed_leaves (serves : s.serves) (seats : s.seats a c) :
    s.keysLeave t a c d changes (runChamber (s.keyed t a c d changes)) := by
  have seats' : (s.hearing t a).seats a c := seats
  have changed : ReachKm ((s.hearing t a).seated a c) (s.keyed t a c d changes) := keyChanges_reach c d changes _
  have reach := changed.trans (runChamber_reach _).km
  have km := keyed_km (s.keyed t a c d changes)
  have slot : ∀ c', (runChamber (s.keyed t a c d changes)).slot c' = (s.keyed t a c d changes).slot c' := fun c' => by
    unfold State.slot
    rw [km]
  have keeps : KeepsKm c ((s.hearing t a).seated a c) (s.keyed t a c d changes) := keyChanges_keepsKm c d changes _
  have seated : ∀ c', ((s.hearing t a).seated a c).slot c' = if s.slotOf a = some c then s.slot c'
      else if c' = c then { station := some a, touch := .empty } else s.slot c' := (s.hearing t a).seated_slot a c
  have pf := reach.pf
  refine ⟨?station, fun d' k lk => ?touch, fun c' other => ?others, ?stopOn, ?refused, reach.profile, reach.pt, ?pf,
    fun nodup same => ?still⟩
  case station =>
    rw [slot]
    exact (keyChanges_station c d changes _ c).trans (State.slotOf_bound seats'.slotOf_seated).2
  case touch =>
    have before : ((s.hearing t a).seated a c).slotTouch c d' k = if s.slotOf a = some c then s.slotTouch c d' k else .up :=
      (s.hearing t a).seated_slotTouch a c d' k
    have set := keyChanges_slotTouch c d changes c d' lk ((s.hearing t a).seated a c)
    rw [before] at set
    have own : (runChamber (s.keyed t a c d changes)).slotTouch c d' k = (s.keyed t a c d changes).slotTouch c d' k := by
      unfold State.slotTouch
      rw [slot]
    refine own.trans (set.trans (if_congr ⟨?_, ?_⟩ rfl rfl))
    · rintro ⟨-, rfl, key⟩
      exact ⟨rfl, key⟩
    · rintro ⟨rfl, key⟩
      exact ⟨rfl, rfl, key⟩
  case others =>
    rw [slot, keeps.slot c' other, seated, if_neg other, ite_self]
  case stopOn =>
    rw [km]
    exact keeps.stopOn
  case refused =>
    rw [km]
    exact keeps.refused
  case pf =>
    rw [pf]
    exact ⟨rfl, rfl, rfl⟩
  case still =>
    have merged : ∀ k, (runChamber (s.keyed t a c d changes)).mergedTouch d k = (s.keyed t a c d changes).mergedTouch d k :=
      fun k => by unfold State.mergedTouch; rw [km]
    obtain ⟨slots, stands⟩ := keyChanges_still (c := c) (d := d) changes nodup ((s.hearing t a).seated a c) fun k lk =>
      (merged k).symm.trans (same k lk)
    have result : s.keyed t a c d changes = { s.hearing t a with km := { s.km with slots := slots } } := stands
    have waits : runChamber (s.keyed t a c d changes) = s.keyed t a c d changes := by
      refine runChamber_waits ?_
      rw [result]
      exact serves.1.1.2
    rw [waits, result]

end

end Sys2Proof.Machine
end

section
/-! O13: a KEYS frame of several changes as frames of one change each, and a SNAP frame as a KEYS frame (R14, R22, R25). -/

namespace Sys2Proof.Machine

theorem State.ChamberSound.waits {s : State} (h : s.ChamberSound) : s.waits := fun c e => (h.scripted c e).1

theorem State.ChamberSound.hearing {s : State} (h : s.ChamberSound) (t : Nat) (a : Station) : (s.hearing t a).ChamberSound :=
  ⟨h.scripted, h.idle, h.profiled⟩

theorem State.QuietOutsideReady.hearing {s : State} (h : s.QuietOutsideReady) (t : Nat) (a : Station) :
    (s.hearing t a).QuietOutsideReady :=
  ⟨h.arbiter, h.effects, h.clocks, h.groups, h.shutters, h.rest, h.sync⟩

theorem State.seated_key (s : State) (a : Station) (c : Nat) : ReachKey s (s.seated a c) := withKm_key s _

/-- The laws of CH after a frame's changes. -/
theorem keyed_sound {s : State} (t : Nat) (a : Station) (c d : Nat) (changes : List (Fin 64 × BitVec 2))
    (sound : s.ChamberSound) (quiet : s.QuietOutsideReady) :
    (s.keyed t a c d changes).ChamberSound ∧ (s.keyed t a c d changes).QuietOutsideReady := by
  have seated := (s.hearing t a).seated_key a c
  exact keyChanges_sound c d changes (seated.chamberSound (sound.hearing t a) (quiet.hearing t a))
    (seated.quiet (quiet.hearing t a))

/-- R105: after a frame's changes runner 0 has no pass due. -/
theorem keyed_waits {s : State} (t : Nat) (a : Station) (c d : Nat) (changes : List (Fin 64 × BitVec 2))
    (sound : s.ChamberSound) (quiet : s.QuietOutsideReady) :
    runChamber (s.keyed t a c d changes) = s.keyed t a c d changes :=
  (keyed_sound t a c d changes sound quiet).1.waits.runChamber_eq

/-- R22: a station that has been refused is refused again at that moment without a change. -/
theorem frame_refused_again {t : Nat} {a : Station} {detail : Nat} {apply apply' : Nat → State → State} {s : State}
    (h : s.serves) (unbound : s.slotOf a = none) (bound : s.freeSlot = none) : ∃ v,
    frame t a (accepted (withSlot a detail apply)) s = .next v ∧
      frame t a (accepted (withSlot a detail apply')) v = .next v := by
  refine ⟨_, frame_refused h unbound bound, ?_⟩
  by_cases was : s.km.refused.get a.val = true
  · rw [if_pos was, frame_refused (s := s.hearing t a) h unbound bound,
      if_pos (show (s.hearing t a).km.refused.get a.val = true from was), State.hearing_again rfl rfl]
  · rw [if_neg was]
    have again : ∀ v : State, v.serves → v.slotOf a = none → v.freeSlot = none → v.km.refused.get a.val = true →
        v.now = (s.hearing t a).now → v.pt = (s.hearing t a).pt →
        frame t a (accepted (withSlot a detail apply')) v = .next v := fun v serves unbound bound refused now pt => by
      rw [frame_refused serves unbound bound, if_pos refused, State.hearing_again now pt]
    exact again _ h unbound bound (Table.get_set_self _ _ _) rfl rfl

/-- R14, R24: a KEYS frame of several changes is a frame of the first of them and then one of the others. -/
theorem keys_sequence (t : Nat) (a : Station) (d : Fin 8) (first rest : List (Fin 64 × BitVec 2)) {s : State}
    (serves : s.serves) (sound : s.ChamberSound) (quiet : s.QuietOutsideReady) : ∃ u,
    exec (.keys t a d first) s = .next u ∧ exec (.keys t a d (first ++ rest)) s = exec (.keys t a d rest) u := by
  have seated : ∀ c, s.seats a c → ∃ u,
      exec (.keys t a d first) s = .next u ∧ exec (.keys t a d (first ++ rest)) s = exec (.keys t a d rest) u := by
    intro c seats
    have laws := keyed_sound t a c d.val first sound quiet
    have profile : (s.keyed t a c d.val first).profile = s.profile :=
      (keyChanges_reach c d.val first ((s.hearing t a).seated a c)).profile
    have accepted : (s.keyed t a c d.val first).ch.state ≠ .profileFault := fun fault => by
      have none := laws.1.profiled.2 (.inr fault)
      have some := serves.2
      rw [← profile, none] at some
      cases some
    obtain ⟨v, before, after⟩ := playing_append (g := fun c => keyChange c d.val) (detail := keysDetail) serves seats
      (fun c => keyChange_reach c d.val) (fun c => keyChange_station c d.val) first rest laws.1.waits accepted
    exact ⟨v, before, after.symm⟩
  by_cases bound : ∃ c, s.seats a c
  · obtain ⟨c, seats⟩ := bound
    exact seated c seats
  · have unbound : s.slotOf a = none := by
      cases own : s.slotOf a with
      | none => rfl
      | some c => exact absurd ⟨c, .inl own⟩ bound
    have full : s.freeSlot = none := by
      cases isFree : s.freeSlot with
      | none => rfl
      | some c => exact absurd ⟨c, .inr ⟨unbound, isFree⟩⟩ bound
    obtain ⟨v, refused, again⟩ := frame_refused_again (t := t) (detail := keysDetail)
      (apply := fun c s => first.foldl (keyChange c d.val) s) (apply' := fun c s => rest.foldl (keyChange c d.val) s)
      serves unbound full
    exact ⟨v, refused, (frame_refused serves unbound full).trans ((frame_refused serves unbound full).symm.trans
      (refused.trans again.symm))⟩

/-- R25: a SNAP frame is the KEYS frame of all its keys. -/
theorem snap_eq_keys (t : Nat) (a : Station) (d : Fin 8) (codes : List (BitVec 2)) {s : State} (serves : s.serves)
    (fit : s.prof.keyCount d.val ≤ 64) (seated : s.slotOf a ≠ none ∨ s.freeSlot ≠ none) :
    exec (.snap t a d codes) s = exec (.keys t a d (snapChanges codes)) s := by
  have both : ∀ c, s.seats a c → exec (.snap t a d codes) s = exec (.keys t a d (snapChanges codes)) s := fun c seats =>
    (snap_eq d codes serves seats fit).trans (keys_eq d _ serves seats).symm
  cases own : s.slotOf a with
  | some c => exact both c (.inl own)
  | none =>
    obtain ⟨c, isFree⟩ := Option.ne_none_iff_exists'.1 (seated.resolve_left fun bound => bound own)
    exact both c (.inr ⟨own, isFree⟩)

end Sys2Proof.Machine
end

section
/-! O13: what KEYS and SNAP leave where the keyboard's laws hold (R23, R27, R30 to R34). -/

namespace Sys2Proof.Machine

section
variable {s : State} {t : Nat} {a : Station} {c d : Nat} {changes : List (Fin 64 × BitVec 2)}

/-! ### KM -/

theorem keyed_mergedTouch (v : State) (d k : Nat) : (runChamber v).mergedTouch d k = v.mergedTouch d k := by
  unfold State.mergedTouch
  rw [keyed_km]

/-- The laws of the keyboard after the frame. -/
theorem keyed_keyboardSound (seats : s.seats a c) (ld : d < 8) (sound : s.KeyboardSound) :
    (runChamber (s.keyed t a c d changes)).KeyboardSound :=
  State.KeyboardSound.same ((seats.playedFrom sound).keyChanges ld changes).1 (runChamber_reach _).sameKm

/-- R30: every entry is one of before or one that the frame made. -/
theorem mem_keyed (seats : s.seats a c) (ld : d < 8) (sound : s.KeyboardSound) :
    ∀ e ∈ (runChamber (s.keyed t a c d changes)).km.pizzicato, e ∈ s.km.pizzicato ∨
      ∃ x ∈ changes, x.1.val < s.prof.keyCount d ∧ e = s.pizzEntry (max s.now t) d x.1.val := by
  rw [keyed_km]
  exact mem_keyChanges ld changes (seats.playedFrom sound)

/-- R31: where the list has room for the frame, every key that has risen to SECOND has its entry. -/
theorem keyed_fresh (seats : s.seats a c) (ld : d < 8) (sound : s.KeyboardSound)
    (room : s.km.pizzicato.length + changes.length ≤ 64) : ∀ k, k < 64 → s.mergedTouch d k ≠ .second →
    (runChamber (s.keyed t a c d changes)).mergedTouch d k = .second →
    s.pizzEntry (max s.now t) d k ∈ (runChamber (s.keyed t a c d changes)).km.pizzicato := by
  intro k lk was is
  rw [keyed_mergedTouch] at is
  rw [keyed_km]
  exact keyChanges_fresh ld (keys := fun k => s.mergedTouch d k ≠ .second) changes (seats.playedFrom sound) room
    (fun k _ was is => absurd is was) k lk was is

theorem withoutKey_eq (d k : Nat) (l : List PizzEntry) :
    withoutKey d k l = l.filter fun e => decide (¬ (e.division = d ∧ e.key = k)) :=
  List.filter_congr fun e _ => by simp [beq_eq_decide]

/-- R31, R32, R34: the list after a frame of one change. -/
theorem keyed_single (seats : s.seats a c) (sound : s.KeyboardSound) (k : Fin 64) (code : BitVec 2) :
    let u := runChamber (s.keyed t a c d [(k, code)])
    (s.mergedTouch d k.val ≠ .second → u.mergedTouch d k.val = .second → u.km.pizzicato =
      (if s.km.pizzicato.length < 64 then s.km.pizzicato else s.km.pizzicato.tail) ++
        [s.pizzEntry (max s.now t) d k.val]) ∧
    (s.mergedTouch d k.val = .second → u.mergedTouch d k.val ≠ .second → u.km.pizzicato =
      s.km.pizzicato.filter fun e => decide (¬ (e.division = d ∧ e.key = k.val))) ∧
    ((s.mergedTouch d k.val = .second ↔ u.mergedTouch d k.val = .second) → u.km.pizzicato = s.km.pizzicato) := by
  dsimp only
  rw [keyed_mergedTouch, keyed_km]
  refine ⟨fun was is => keyChange_rise (x := (k, code)) (seats.playedFrom sound).1 was is, fun was is => ?_, fun same =>
    keyChange_other (x := (k, code)) (s := (s.hearing t a).seated a c) same⟩
  rw [← withoutKey_eq]
  exact keyChange_fall (x := (k, code)) (s := (s.hearing t a).seated a c) was is

/-! ### RE, EE and CH -/

/-- R27, R137, R144: CH after a frame that names no key twice. -/
theorem keyed_played (ld : d < 8) (sound : s.ChamberSound) (quiet : s.QuietOutsideReady) (nodup : (changes.map (·.1)).Nodup) :
    (s.hearing t a).playedTo (runChamber (s.keyed t a c d changes)) := by
  have key := (s.hearing t a).seated_key a c
  have laws : ((s.hearing t a).seated a c).ChamberSound := key.chamberSound (sound.hearing t a) (quiet.hearing t a)
  have played := keyChanges_played (c := c) ld changes nodup laws (key.quiet (quiet.hearing t a))
  rw [keyed_waits t a c d changes sound quiet]
  obtain ⟨wakes, stays⟩ := played
  exact ⟨fun rises admits => (wakes rises admits).of_key key (State.admits.hushed admits (quiet.hearing t a)), stays⟩

/-- R27, R28, R32, R137: a frame of one change, as RE and EE take it. -/
theorem keyed_taken (sound : s.ChamberSound) (quiet : s.QuietOutsideReady) (keyboard : s.KeyboardSound) (k : Fin 64)
    (code : BitVec 2) :
    let u := runChamber (s.keyed t a c d [(k, code)])
    let old := s.mergedTouch d k.val
    let new := u.mergedTouch d k.val
    let wakes := old.rank < new.rank ∧ s.admits
    (old ≠ new → ¬ wakes → u = { (s.hearing t a).studdedBy u d k.val old new with ch := u.ch }) ∧
      (wakes → ((s.hearing t a).studdedBy u d k.val old new).wokenTo u (if s.ch.state = .dark then .dark else .other)) := by
  rw [keyed_waits t a c d [(k, code)] sound quiet]
  exact keyChange_taken (h := s.hearing t a) (slots := ((s.hearing t a).seated a c).km.slots) (x := (k, code))
    keyboard.ordered (sound.hearing t a) (quiet.hearing t a)

end

end Sys2Proof.Machine
end

section
/-! O13 settled. -/

namespace Sys2Proof.Machine

/-! ### A SNAP frame's keys -/

theorem snapChanges_keys (codes : List (BitVec 2)) : (snapChanges codes).map (·.1) = List.finRange 64 := by
  unfold snapChanges
  rw [List.map_map]
  exact List.map_id _

theorem snapChanges_nodup (codes : List (BitVec 2)) : ((snapChanges codes).map (·.1)).Nodup := by
  rw [snapChanges_keys]
  exact List.nodup_finRange 64

theorem snapChanges_vals (codes : List (BitVec 2)) : (snapChanges codes).map (·.1.val) = List.range 64 := by
  rw [← finRange_vals, ← snapChanges_keys codes, List.map_map]
  rfl

theorem snapChanges_below (codes : List (BitVec 2)) {n : Nat} (fit : n ≤ 64) :
    ((snapChanges codes).filter fun x => decide (x.1.val < n)).length = n := by
  have keys : ((snapChanges codes).filter fun x => decide (x.1.val < n)).map (·.1.val) = List.range n := by
    rw [← range_filter_lt fit, ← snapChanges_vals codes, List.filter_map]
    rfl
  rw [← List.length_map (·.1.val), keys, List.length_range]

/-- R25: each key of the division takes the touch of its code. -/
theorem lastChange_snapChanges (codes : List (BitVec 2)) {k : Nat} (lk : k < 64) :
    lastChange (snapChanges codes) k = some (codes.getD k 0) :=
  lastChange_map (List.finRange 64) (fun k => codes.getD k.val 0) (List.mem_finRange ⟨k, lk⟩)

/-- R25, R31, R34: the list after a SNAP frame for which it has room. -/
theorem snap_pizzicato {s : State} (t : Nat) {a : Station} {c d : Nat} (codes : List (BitVec 2)) (seats : s.seats a c)
    (ld : d < 8) (sound : s.KeyboardSound) (fit : s.prof.keyCount d ≤ 64)
    (room : s.km.pizzicato.length + s.prof.keyCount d ≤ 64) :
    let u := runChamber (s.keyed t a c d (snapChanges codes))
    u.km.pizzicato = (s.km.pizzicato.filter fun e => decide (u.mergedTouch e.division e.key = .second)) ++
      ((List.range (s.prof.keyCount d)).filter fun k =>
        decide (s.mergedTouch d k ≠ .second ∧ u.mergedTouch d k = .second)).map (s.pizzEntry (max s.now t) d) := by
  have laws := keyed_keyboardSound (t := t) (changes := snapChanges codes) seats ld sound
  have prof : (runChamber (s.keyed t a c d (snapChanges codes))).prof = s.prof :=
    ((keyChanges_reach c d (snapChanges codes) ((s.hearing t a).seated a c)).trans (runChamber_reach _).km).prof
  have list := keyChanges_pizzicato ld (snapChanges codes) (seats.playedFrom (t := t) sound) (snapChanges_nodup codes)
    (by rw [show ((s.hearing t a).seated a c).prof = s.prof from rfl, snapChanges_below codes fit]; exact room)
  have above : ∀ k, k < 64 → s.prof.keyCount d ≤ k →
      (runChamber (s.keyed t a c d (snapChanges codes))).mergedTouch d k ≠ .second := fun k lk high => by
    rw [laws.above_up ld lk (by rw [prof]; exact high)]
    decide
  simp only [keyed_mergedTouch] at above
  have risen : ((s.hearing t a).seated a c).comeToSecond (s.keyed t a c d (snapChanges codes)) d (List.range 64) =
      (List.range (s.prof.keyCount d)).filter fun k =>
        decide (s.mergedTouch d k ≠ .second ∧ (s.keyed t a c d (snapChanges codes)).mergedTouch d k = .second) := by
    unfold State.comeToSecond
    rw [← range_filter_lt fit, List.filter_filter]
    refine List.filter_congr fun k m => ?_
    by_cases key : k < s.prof.keyCount d
    · rw [decide_eq_true key, Bool.and_true]
      rfl
    · have up := above k (List.mem_range.1 m) (Nat.not_lt.1 key)
      rw [decide_eq_false key, Bool.and_false]
      exact decide_eq_false fun both => up both.2
  rw [snapChanges_vals, show (snapChanges codes).foldl (keyChange c d) ((s.hearing t a).seated a c) =
    s.keyed t a c d (snapChanges codes) from rfl, risen] at list
  simp only [keyed_mergedTouch, keyed_km]
  exact list

/-- Settles O13: a KEYS frame's changes are taken one after the other in the slot of its sender, each that moves a merged
touch as one merged change, and a SNAP frame is the KEYS frame of all its keys. -/
theorem keysAndSnapSetTheSendersSlot : Obligations.KeysAndSnapSetTheSendersSlot := by
  refine ⟨fun t a d changes c s serves seats => ?keys, fun t a d first rest s serves sound quiet =>
    keys_sequence t a d first rest serves sound quiet, fun t a d codes s serves fit seated =>
    snap_eq_keys t a d codes serves fit seated, fun t a d codes c s serves codesLength fit seats => ?snap⟩
  case keys =>
    have leaves := keyed_leaves (t := t) (d := d.val) (changes := changes) serves seats
    refine ⟨_, keys_eq d changes serves seats, leaves.station, fun d' k _ lk => leaves.touch d' k lk, leaves.others,
      leaves.stopOn, leaves.refused, leaves.profile, leaves.pt, leaves.pf, leaves.still, fun _ keyboard => ?_⟩
    refine ⟨(keyed_keyboardSound seats d.isLt keyboard).merged, ?_, fun sound quiet =>
      ⟨keyed_played d.isLt sound quiet, ?_⟩, keyed_fresh seats d.isLt keyboard, fun e m => ?_⟩
    · rintro k code rfl
      exact keyed_single seats keyboard k code
    · rintro k code rfl
      have taken := keyed_taken (t := t) (a := a) (c := c) (d := d.val) sound quiet keyboard k code
      intro old new roomed taking studs
      have same : (s.hearing t a).studdedBy (runChamber (s.keyed t a c d.val [(k, code)])) d.val k.val old new = studs :=
        if_congr ⟨fun e => Fin.ext e, fun e => congrArg Fin.val e⟩ rfl rfl
      rw [← same]
      exact taken
    · rcases mem_keyed seats d.isLt keyboard e m with listed | ⟨x, mx, -, made⟩
      · exact .inl listed
      · exact .inr ⟨x, mx, made⟩
  case snap =>
    have leaves := keyed_leaves (t := t) (d := d.val) (changes := snapChanges codes) serves seats
    refine ⟨_, snap_eq d codes serves seats fit, leaves.station, fun d' k _ lk => ?_, leaves.others,
      leaves.stopOn, leaves.refused, leaves.profile, leaves.pt, leaves.pf, leaves.still (snapChanges_nodup codes),
      fun _ keyboard => ?_⟩
    · have touch := leaves.touch d' k lk
      rw [lastChange_snapChanges codes lk] at touch
      exact touch
    · refine ⟨(keyed_keyboardSound seats d.isLt keyboard).merged, fun sound quiet =>
        keyed_played d.isLt sound quiet (snapChanges_nodup codes), snap_pizzicato t codes seats d.isLt keyboard fit,
        fun e m => ?_⟩
      rcases mem_keyed seats d.isLt keyboard e m with listed | ⟨x, -, key, made⟩
      · exact .inl listed
      · exact .inr ⟨x.1.val, key, made⟩

end Sys2Proof.Machine
end

section
/-! The quiet outside READY (R52, R65, R77, R99, R119, R131, R142, R144): what it speaks of, and the operations of RE, DT,
EE, TSU and the runners that leave that as it stands. -/

namespace Sys2Proof.Machine

/-! ### What the quiet speaks of -/

/-- The quiet outside READY but for the sync timer, which a change of the chamber state moves on its own. -/
structure State.StillOutside (s : State) : Prop where
  arbiter : s.ch.state ≠ .ready → s.pa = .cleared
  effects : s.ch.state ≠ .ready → s.ee.groups = .empty ∧ ∀ r, 1 ≤ r → r < 8 → s.runner r = none
  clocks : s.ch.state ≠ .ready → s.dt.clocks = .empty
  groups : s.ch.state ≠ .ready → ∀ g, g < 4 → s.trem g = { (default : Trem) with onCount := (s.trem g).onCount }
  shutters : s.ch.state ≠ .ready → ∀ x, x < 2 → (s.shutter x).stage = 0 ∧ (s.shutter x).stepTimer = none
  rest : s.ch.state ≠ .ready → s.ch.rest = none

theorem State.QuietOutsideReady.still {s : State} (h : s.QuietOutsideReady) : s.StillOutside :=
  ⟨h.arbiter, h.effects, h.clocks, h.groups, h.shutters, h.rest⟩

theorem State.StillOutside.quiet {s : State} (h : s.StillOutside)
    (sync : s.ch.sync.isSome = true ↔ s.ch.state = .gathering) : s.QuietOutsideReady :=
  ⟨h.arbiter, h.effects, h.clocks, h.groups, h.shutters, h.rest, sync⟩

/-- In READY the quiet asks nothing of the blocks. -/
theorem State.StillOutside.of_ready {s : State} (ready : s.ch.state = .ready) : s.StillOutside where
  arbiter out := absurd ready out
  effects out := absurd ready out
  clocks out := absurd ready out
  groups out := absurd ready out
  shutters out := absurd ready out
  rest out := absurd ready out

/-- What the quiet outside READY speaks of stands, but for on-counts, and for the targets and owners of the shutters. -/
structure State.standsStill (s t : State) : Prop where
  pa : t.pa = s.pa
  groups : t.ee.groups = s.ee.groups
  runners : ∀ r, 1 ≤ r → r < 8 → t.runner r = s.runner r
  clocks : t.dt.clocks = s.dt.clocks
  trems : ∀ g, (s.trem g).running = false → t.trem g = { s.trem g with onCount := (t.trem g).onCount }
  shutters : ∀ x, (t.shutter x).stage = (s.shutter x).stage ∧ (t.shutter x).stepTimer = (s.shutter x).stepTimer
  rest : t.ch.rest = s.ch.rest

/-- An operation that leaves these blocks alone. -/
theorem State.standsStill.of_blocks {s t : State} (pa : t.pa = s.pa) (ee : t.ee = s.ee)
    (clocks : t.dt.clocks = s.dt.clocks) (tsu : t.tsu = s.tsu) (rest : t.ch.rest = s.ch.rest) : s.standsStill t where
  pa := pa
  groups := by rw [ee]
  runners r _ _ := by unfold State.runner; rw [ee]
  clocks := clocks
  trems g _ := by unfold State.trem; rw [tsu]
  shutters x := by unfold State.shutter; rw [tsu]; exact ⟨rfl, rfl⟩
  rest := rest

theorem State.standsStill.refl (s : State) : s.standsStill s := .of_blocks rfl rfl rfl rfl rfl

theorem State.standsStill.trans {a b c : State} (h : a.standsStill b) (k : b.standsStill c) : a.standsStill c where
  pa := k.pa.trans h.pa
  groups := k.groups.trans h.groups
  runners r low high := (k.runners r low high).trans (h.runners r low high)
  clocks := k.clocks.trans h.clocks
  trems g idle := by
    have first := h.trems g idle
    have second := k.trems g (by rw [first]; exact idle)
    rw [second, first]
  shutters x := ⟨(k.shutters x).1.trans (h.shutters x).1, (k.shutters x).2.trans (h.shutters x).2⟩
  rest := k.rest.trans h.rest

theorem ReachHush.standsStill {s t : State} (h : ReachHush s t) : s.standsStill t where
  pa := by rw [h.frame]
  groups := by rw [h.frame]
  runners r _ _ := h.runner r
  clocks := by rw [h.frame]
  trems := h.trems
  shutters x := by unfold State.shutter; rw [h.frame]; exact ⟨rfl, rfl⟩
  rest := by rw [h.frame]

theorem ReachPass.standsStill {s t : State} (h : ReachPass s t) : s.standsStill t where
  pa := by rw [h.frame]
  groups := by rw [h.frame]
  runners r low _ := h.runners r (by omega)
  clocks := by rw [h.frame]
  trems g _ := by unfold State.trem; rw [h.frame]
  shutters x := by unfold State.shutter; rw [h.frame]; exact ⟨rfl, rfl⟩
  rest := by rw [h.frame]

/-- Where the quiet's blocks stand, a state outside READY that comes from one outside READY is as quiet. -/
theorem State.StillOutside.stands {s t : State} (h : s.StillOutside)
    (k : t.ch.state ≠ .ready → s.ch.state ≠ .ready ∧ s.standsStill t) : t.StillOutside where
  arbiter out := by
    obtain ⟨was, still⟩ := k out
    rw [still.pa, h.arbiter was]
  effects out := by
    obtain ⟨was, still⟩ := k out
    exact ⟨by rw [still.groups, (h.effects was).1], fun r low high => by
      rw [still.runners r low high, (h.effects was).2 r low high]⟩
  clocks out := by
    obtain ⟨was, still⟩ := k out
    rw [still.clocks, h.clocks was]
  groups out g low := by
    obtain ⟨was, still⟩ := k out
    have stopped := h.groups was g low
    have stands := still.trems g (by rw [stopped]; rfl)
    rw [stopped] at stands
    exact stands
  shutters out x low := by
    obtain ⟨was, still⟩ := k out
    rw [(still.shutters x).1, (still.shutters x).2]
    exact h.shutters was x low
  rest out := by
    obtain ⟨was, still⟩ := k out
    rw [still.rest, h.rest was]

/-- An operation that stays in its chamber state, with the sync timer as it was, and outside READY leaves the quiet's
blocks alone. -/
structure State.staysQuiet (s t : State) : Prop where
  state : t.ch.state = s.ch.state
  sync : t.ch.sync = s.ch.sync
  outside : s.ch.state ≠ .ready → s.standsStill t

theorem State.staysQuiet.refl (s : State) : s.staysQuiet s := ⟨rfl, rfl, fun _ => .refl s⟩

theorem State.staysQuiet.trans {a b c : State} (h : a.staysQuiet b) (k : b.staysQuiet c) : a.staysQuiet c where
  state := k.state.trans h.state
  sync := k.sync.trans h.sync
  outside out := (h.outside out).trans (k.outside (by rw [h.state]; exact out))

theorem State.QuietOutsideReady.stays {s t : State} (h : s.QuietOutsideReady) (k : s.staysQuiet t) :
    t.QuietOutsideReady := by
  refine (h.still.stands fun out => ?_).quiet (by rw [k.state, k.sync]; exact h.sync)
  rw [k.state] at out
  exact ⟨out, k.outside out⟩

/-- An operation that leaves the quiet's blocks and all of CH alone. -/
theorem State.staysQuiet.of_blocks {s t : State} (pa : t.pa = s.pa) (ee : t.ee = s.ee)
    (clocks : t.dt.clocks = s.dt.clocks) (tsu : t.tsu = s.tsu) (ch : t.ch = s.ch) : s.staysQuiet t :=
  ⟨by rw [ch], by rw [ch], fun _ => .of_blocks pa ee clocks tsu (by rw [ch])⟩

/-- A choice between an operation and none. -/
theorem State.staysQuiet.ite {p : Prop} [Decidable p] {s t : State} (h : s.staysQuiet t) :
    s.staysQuiet (if p then t else s) := by
  split
  · exact h
  · exact .refl s

theorem staysQuiet_foldl {β : Type} (f : State → β → State) (h : ∀ (s : State) x, s.staysQuiet (f s x)) (l : List β)
    (s : State) :
    s.staysQuiet (l.foldl f s) :=
  foldl_reach State.staysQuiet State.staysQuiet.refl (fun _ _ _ => State.staysQuiet.trans) f h l s

/-! ### Operations of LI, PF and PA, and the passes of runner 0 -/

theorem ReachLi.staysQuiet {s t : State} (h : ReachLi s t) : s.staysQuiet t :=
  .of_blocks (by rw [h]) (by rw [h]) (by rw [h]) (by rw [h]) (by rw [h])

theorem reportFault_staysQuiet (k : FaultKind) (a b : Nat) (s : State) : s.staysQuiet (reportFault k a b s) :=
  .of_blocks rfl rfl rfl rfl rfl

theorem ReachCc.staysQuiet {s t : State} (h : ReachCc s t) : s.staysQuiet t :=
  .of_blocks (by rw [h]) (by rw [h]) (by rw [h]) (by rw [h]) (by rw [h])

theorem ReachPass.staysQuiet {s t : State} (h : ReachPass s t) : s.staysQuiet t :=
  ⟨by rw [h.frame], by rw [h.frame], fun _ => h.standsStill⟩

theorem pullInEnds_staysQuiet (o : Nat) (s : State) : s.staysQuiet (pullInEnds o s) := by
  have reach := pullInEnds_reach o s
  refine ⟨by rw [reach], by rw [reach], fun out => ?_⟩
  unfold pullInEnds
  rw [paEvent_notReady (by simpa [State.isReady] using out), ite_self]
  exact .refl s

theorem strikeEnds_staysQuiet (o : Nat) (s : State) : s.staysQuiet (strikeEnds o s) := by
  have reach := strikeEnds_reach o s
  refine ⟨by rw [reach], by rw [reach], fun out => ?_⟩
  have outside : s.isReady = false := by simpa [State.isReady] using out
  unfold strikeEnds
  split
  · exact .refl s
  · rw [paEvent_notReady outside]
    exact .refl s

/-! ### Operations of RE, DT and EE -/

/-- What reaches no further than RE, and outside READY moves counts alone. -/
theorem ReachRe.staysQuiet {s t : State} (h : ReachRe s t) (quiet : s.QuietOutsideReady)
    (outside : s.hushed → ReachHush s t) : s.staysQuiet t :=
  ⟨h.chamber, by rw [h.frame], fun out => (outside (quiet.hushed out)).standsStill⟩

theorem State.QuietOutsideReady.application {s : State} (h : s.QuietOutsideReady) (w : Bool) (l : List Delta) :
    (application w l s).QuietOutsideReady :=
  h.stays ((application_re w l s).staysQuiet h fun hush => application_hush hush w l)

/-- KM, DT's counts and its tuning hold are not the quiet's. -/
theorem withKm_staysQuiet (s : State) (km : Km) : s.staysQuiet { s with km := km } := .of_blocks rfl rfl rfl rfl rfl

theorem State.QuietOutsideReady.moveHold {s : State} (h : s.QuietOutsideReady) (new : Option Hold) :
    (moveHold new s).QuietOutsideReady :=
  State.QuietOutsideReady.application (s := { s with dt := { s.dt with tuning := new } })
    (h.stays (.of_blocks rfl rfl rfl rfl rfl)) _ _

theorem State.QuietOutsideReady.endHold {s : State} (h : s.QuietOutsideReady) : (endHold s).QuietOutsideReady := by
  unfold Machine.endHold
  split
  · exact h
  · exact h.moveHold none

theorem State.QuietOutsideReady.pizzExpiry {s : State} (h : s.QuietOutsideReady) (d k : Nat) :
    (pizzExpiry d k s).QuietOutsideReady :=
  (h.application _ _).stays (withKm_staysQuiet _ _)

theorem trigger_re (e : Nat) (s : State) : ReachRe s (trigger e s) := (trigger_reach e s).re (trigger_spares e s)

theorem countMoved_re (e b : Nat) (up : Bool) (s : State) : ReachRe s (countMoved e b up s) :=
  (countMoved_reach e b up s).re (countMoved_spares e b up s)

theorem setTrigger_staysQuiet (e : Nat) (v : Trigger) (s : State) : s.staysQuiet (s.setTrigger e v) :=
  ⟨rfl, rfl, fun _ => (setTrigger_hush e v s).standsStill⟩

theorem State.QuietOutsideReady.cueEdge {s : State} (h : s.QuietOutsideReady) (e : Nat) (v : Bool) :
    (cueEdge e v s).QuietOutsideReady := by
  unfold Machine.cueEdge
  split
  · split
    · exact h.stays ((trigger_re e s).staysQuiet h fun hush => by rw [trigger_hush hush]; exact .refl s)
    · exact h
  · have counted := h.stays (setTrigger_staysQuiet e { s.trigger e with cue := v } s)
    exact counted.stays ((countMoved_re _ _ _ _).staysQuiet counted fun hush => by
      rw [countMoved_hush hush]
      exact .refl _)
  · exact h

theorem takeCueLevel_staysQuiet (s : State) (e : Nat) : s.staysQuiet (takeCueLevel s e) := by
  unfold takeCueLevel
  split
  · split
    · exact setTrigger_staysQuiet _ _ _
    · exact .refl s
  · exact .refl s

/-- R65: outside READY no RELEASE is heard. -/
theorem forOutputs_paRelease_outside (l : List Nat) {s : State} (outside : s.isReady = false) :
    forOutputs paRelease l s = s := by
  unfold forOutputs
  induction l with
  | nil => rfl
  | cons o rest ih => rw [List.foldl_cons, paRelease_notReady outside, ih]

/-- R98: ALL-OFF at EE leaves no effect in play, and outside READY asks nothing of PA. -/
theorem State.QuietOutsideReady.eeAllOff {s : State} (h : s.QuietOutsideReady) : (eeAllOff s).QuietOutsideReady := by
  have stopped := eeAllOff_stopped s
  have ch : (Machine.eeAllOff s).ch = s.ch := by rw [stopped.frame]
  refine h.stays ⟨by rw [ch], by rw [ch], fun out => ?_⟩
  have outside : s.isReady = false := by simpa [State.isReady] using out
  have pa : (Machine.eeAllOff s).pa = s.pa := by
    have alike := stopped.alike.pa
    rw [clearGroups_forOutputs, forOutputs_paRelease_outside _ outside] at alike
    exact alike
  exact
    { pa := pa
      groups := by rw [(h.effects out).1]; rfl
      runners := fun r low high => by rw [stopped.runners r, if_pos ⟨low, high⟩, (h.effects out).2 r low high]
      clocks := by rw [stopped.frame]
      trems := fun g _ => by unfold State.trem; rw [stopped.frame]
      shutters := fun x => by unfold State.shutter; rw [stopped.frame]; exact ⟨rfl, rfl⟩
      rest := by rw [ch] }

/-! ### Operations of TSU -/

/-- R122: outside READY no group runs, and a BEAT locks none. -/
theorem offerBeat_staysQuiet (a : Station) (tag : Fin 16) {s : State} (h : s.QuietOutsideReady) :
    s.staysQuiet (offerBeat a tag s) := by
  have reach := offerBeat_reach a tag s
  refine ⟨by rw [reach], by rw [reach], fun out => ?_⟩
  have unheard : ∀ g, g < 4 → takeBeat a tag s g = s := fun g low => by
    unfold takeBeat
    split
    · rfl
    · rw [h.groups out g low, if_neg (by rintro ⟨-, -, -, runs⟩; cases runs)]
  unfold offerBeat
  simp only [List.range_succ, List.range_zero, List.nil_append, List.foldl_append, List.foldl_cons, List.foldl_nil]
  rw [unheard 0 (by omega), unheard 1 (by omega), unheard 2 (by omega), unheard 3 (by omega)]
  exact .refl s

/-- A shutter set that keeps its stage and its step timer. -/
theorem setShutter_staysQuiet (x : Nat) {v : Shutter} {s : State} (stage : v.stage = (s.shutter x).stage)
    (stepTimer : v.stepTimer = (s.shutter x).stepTimer) : s.staysQuiet (s.setShutter x v) :=
  ⟨rfl, rfl, fun _ =>
    { pa := rfl, groups := rfl, runners := fun _ _ _ => rfl, clocks := rfl, trems := fun _ _ => rfl, rest := rfl
      shutters := fun x' => by
        rw [State.shutter_setShutter]
        split
        · next e => subst e; exact ⟨stage, stepTimer⟩
        · exact ⟨rfl, rfl⟩ }⟩

theorem releaseShoes_staysQuiet (c : Nat) (s : State) : s.staysQuiet (releaseShoes c s) :=
  staysQuiet_foldl _ (fun s x => by
    unfold releaseOwner
    dsimp only
    split
    · exact setShutter_staysQuiet x rfl rfl
    · exact .refl s) _ s

/-- R128, R129: outside READY a position moves a set's target alone. -/
theorem judgePosition_staysQuiet (x p : Nat) (cfg : ShutterSet) (s : State) : s.staysQuiet (judgePosition x p cfg s) := by
  have reach := judgePosition_reach x p cfg s
  refine ⟨by rw [reach], by rw [reach], fun out => ?_⟩
  have outside : s.isReady = false := by simpa [State.isReady] using out
  unfold judgePosition
  dsimp only
  split
  · rw [if_neg (by rintro ⟨ready, -⟩; exact absurd (outside.symm.trans ready) (by decide))]
    exact State.staysQuiet.outside (setShutter_staysQuiet x (s := s) (by rfl) (by rfl)) out
  · exact .refl s

theorem takePairs_staysQuiet (c : Nat) (pairs : List (Fin 8 × Byte)) (s : State) : s.staysQuiet (takePairs c pairs s) := by
  refine staysQuiet_foldl _ (fun s pair => staysQuiet_foldl _ (fun s x => ?_) _ s) _ s
  unfold takePair
  split
  · exact .refl s
  · dsimp only
    split
    · exact (setShutter_staysQuiet x (by rfl) (by rfl)).trans (judgePosition_staysQuiet _ _ _ _)
    · exact .refl s

/-- R129: a step timer that runs out outside READY stops; with one running the chamber is READY. -/
theorem stepTimerEnds_quiet {s : State} {x : Nat} (low : x < 2) (h : s.QuietOutsideReady)
    (runs : s.expired (s.shutter x).stepTimer = true) : (stepTimerEnds x s).QuietOutsideReady := by
  have reach := stepTimerEnds_reach x s
  have ready : s.ch.state = .ready := by
    by_contra out
    rw [(h.shutters out x low).2] at runs
    cases runs
  exact h.stays ⟨by rw [reach], by rw [reach], fun out => absurd ready out⟩

/-- What reaches TSU for a group that runs keeps the quiet, since the chamber is READY. -/
theorem State.QuietOutsideReady.runningGroup {s t : State} (h : s.QuietOutsideReady) {g : Nat} (low : g < 4)
    (runs : (s.trem g).running = true) (reach : ReachTsu s t) : t.QuietOutsideReady := by
  have ready : s.ch.state = .ready := by
    by_contra out
    rw [h.groups out g low] at runs
    cases runs
  exact h.stays ⟨by rw [reach], by rw [reach], fun out => absurd ready out⟩

end Sys2Proof.Machine
end

section
/-! What a change of the chamber state leaves of the quiet outside READY (R137 to R150). -/

namespace Sys2Proof.Machine

/-! ### The exit from READY -/

theorem driveLamps_pass (v : Bool) (s : State) : ReachPass s (driveLamps v s) :=
  foldl_reach ReachPass ReachPass.refl (fun _ _ _ => ReachPass.trans) _ (fun s l => by
    split
    · exact driveLine_pass l v s
    · exact .refl s) _ s

/-- Groups stopped one after the other. -/
theorem stopTrems_trem (n g : Nat) (s : State) :
    ((List.range n).foldl (fun s g => s.setTrem g (stoppedTrem (s.trem g))) s).trem g =
      if g < n then stoppedTrem (s.trem g) else s.trem g := by
  induction n with
  | zero => rfl
  | succ n ih =>
    rw [List.range_succ, List.foldl_append, List.foldl_cons, List.foldl_nil, State.trem_setTrem]
    by_cases own : g = n
    · subst own
      rw [if_pos rfl, ih, if_neg (Nat.lt_irrefl g), if_pos (Nat.lt_succ_self g)]
    · rw [if_neg own, ih]
      exact if_congr (by omega) rfl rfl

/-- Sets closed one after the other. -/
theorem closeShutters_shutter (n x : Nat) (s : State) :
    ((List.range n).foldl (fun s x => s.setShutter x { s.shutter x with stage := 0, stepTimer := none }) s).shutter x =
      if x < n then { s.shutter x with stage := 0, stepTimer := none } else s.shutter x := by
  induction n with
  | zero => rfl
  | succ n ih =>
    rw [List.range_succ, List.foldl_append, List.foldl_cons, List.foldl_nil, State.shutter_setShutter]
    by_cases own : x = n
    · subst own
      rw [if_pos rfl, ih, if_neg (Nat.lt_irrefl x), if_pos (Nat.lt_succ_self x)]
    · rw [if_neg own, ih]
      exact if_congr (by omega) rfl rfl

/-- Closing sets moves no group. -/
theorem closeShutters_trem (l : List Nat) (g : Nat) (s : State) :
    (l.foldl (fun s x => s.setShutter x { s.shutter x with stage := 0, stepTimer := none }) s).trem g = s.trem g := by
  induction l generalizing s with
  | nil => rfl
  | cons x rest ih => rw [List.foldl_cons, ih]; rfl

theorem stopTrems_shutter (l : List Nat) (x : Nat) (s : State) :
    (l.foldl (fun s g => s.setTrem g (stoppedTrem (s.trem g))) s).shutter x = s.shutter x := by
  induction l generalizing s with
  | nil => rfl
  | cons g rest ih => rw [List.foldl_cons, ih]; rfl

/-- R119: of a stopped group the on-count alone is left. -/
theorem stoppedTrem_eq (x : Trem) : stoppedTrem x = { (default : Trem) with onCount := (stoppedTrem x).onCount } := rfl

/-- R119: TSU's exit stops the four groups. -/
theorem tsuExit_trem (g : Nat) (s : State) :
    (tsuExit s).trem g = if g < 4 then stoppedTrem (s.trem g) else s.trem g := by
  unfold tsuExit
  dsimp only
  rw [closeShutters_trem, stopTrems_trem]

/-- R131: TSU's exit brings the two sets to stage 0. -/
theorem tsuExit_shutter (x : Nat) (s : State) :
    (tsuExit s).shutter x = if x < 2 then { s.shutter x with stage := 0, stepTimer := none } else s.shutter x := by
  unfold tsuExit
  dsimp only
  rw [closeShutters_shutter, stopTrems_shutter]

/-- R65, R99: outside READY the clear of all groups asks nothing of PA. -/
theorem clearAllGroups_pa {s : State} (outside : s.isReady = false) : (clearAllGroups s).pa = s.pa := by
  have alike := (clearGroups_alike (s := s) (List.range 16) (.refl s) rfl).1.pa
  rw [clearGroups_forOutputs, forOutputs_paRelease_outside _ outside] at alike
  exact alike

theorem stopEffects_runner {s : State} {r : Nat} (low : 1 ≤ r) (high : r < 8) : (stopEffects s).runner r = none := by
  show (effectRunners.foldl (fun m r => m.set r none) s.ee.runners).get r = none
  rw [Table.get_foldl_set, if_pos (effectRunners_bounds.2 ⟨low, high⟩)]

/-- R119, R131: TSU sends no request at the exit. -/
theorem tsuExit_alone (s : State) :
    (tsuExit s).pa = s.pa ∧ (tsuExit s).ee = s.ee ∧ (tsuExit s).ch = s.ch ∧ (tsuExit s).dt = s.dt := by
  have fold : ∀ (f : State → Nat → State), (∀ s x, (f s x).pa = s.pa ∧ (f s x).ee = s.ee ∧ (f s x).ch = s.ch ∧
      (f s x).dt = s.dt) → ∀ (l : List Nat) s, (l.foldl f s).pa = s.pa ∧ (l.foldl f s).ee = s.ee ∧
      (l.foldl f s).ch = s.ch ∧ (l.foldl f s).dt = s.dt := fun f h =>
    foldl_reach (fun s t => t.pa = s.pa ∧ t.ee = s.ee ∧ t.ch = s.ch ∧ t.dt = s.dt) (fun _ => ⟨rfl, rfl, rfl, rfl⟩)
      (fun _ _ _ ⟨a, b, c, d⟩ ⟨a', b', c', d'⟩ => ⟨a'.trans a, b'.trans b, c'.trans c, d'.trans d⟩) f h
  obtain ⟨pa, ee, ch, dt⟩ := fold (fun s g => s.setTrem g (stoppedTrem (s.trem g))) (fun _ _ => ⟨rfl, rfl, rfl, rfl⟩)
    (List.range 4) s
  obtain ⟨pa', ee', ch', dt'⟩ := fold (fun s x => s.setShutter x { s.shutter x with stage := 0, stepTimer := none })
    (fun _ _ => ⟨rfl, rfl, rfl, rfl⟩) (List.range 2) ((List.range 4).foldl
      (fun s g => s.setTrem g (stoppedTrem (s.trem g))) s)
  exact ⟨pa'.trans pa, ee'.trans ee, ch'.trans ch, dt'.trans dt⟩

theorem ReachEe.ch_eq {s t : State} (h : ReachEe s t) : t.ch = s.ch := by rw [h]

theorem ReachGrant.ch_eq {s t : State} (h : ReachGrant s t) : t.ch = s.ch := by rw [h]

/-- R49, R149: DT's clocks and the rest timer stop. -/
def State.unclocked (s : State) : State := { dtExit s with ch := { (dtExit s).ch with rest := none } }

theorem State.unclocked_still {s : State} (pa : s.pa = .cleared) (groups : s.ee.groups = .empty)
    (runners : ∀ r, 1 ≤ r → r < 8 → s.runner r = none)
    (trems : ∀ g, g < 4 → s.trem g = { (default : Trem) with onCount := (s.trem g).onCount })
    (shutters : ∀ x, x < 2 → (s.shutter x).stage = 0 ∧ (s.shutter x).stepTimer = none) : s.unclocked.StillOutside where
  arbiter _ := pa
  effects _ := ⟨groups, runners⟩
  clocks _ := rfl
  groups _ := trems
  shutters _ := shutters
  rest _ := rfl

theorem State.unclocked_ch (s : State) : s.unclocked.ch = { s.ch with rest := none } := rfl

/-- R149: the exit's notices in a state that has left READY, short of the lamps. -/
def exitBlocks (s : State) : State := (tsuExit (eeExit (paExit s))).unclocked

theorem exitNotices_eq (s : State) : exitNotices s = driveLamps false (exitBlocks s) := rfl

theorem exitBlocks_ch (s : State) : (exitBlocks s).ch = { s.ch with rest := none } := by
  have ch : (tsuExit (eeExit (paExit s))).ch = s.ch :=
    (tsuExit_alone _).2.2.1.trans ((eeExit_reach _).ch_eq.trans (paExit_reach s).ch_eq)
  rw [← ch]
  exact State.unclocked_ch _

theorem stopEffects_groups (s : State) : (stopEffects s).ee.groups = .empty := rfl

theorem stopEffects_pa (s : State) : (stopEffects s).pa = s.pa := rfl

/-- R52, R77, R99, R119, R131: PA, EE, DT's clocks, TSU and the rest timer once READY has been left. -/
theorem exitBlocks_still {s : State} (outside : s.isReady = false) : (exitBlocks s).StillOutside := by
  have cleared := clearAllGroups_pa (s := paExit s) (by
    unfold State.isReady at *
    rw [(paExit_reach s).ch_eq]
    exact outside)
  obtain ⟨pa, ee, -, -⟩ := tsuExit_alone (eeExit (paExit s))
  refine State.unclocked_still (pa.trans ((stopEffects_pa _).trans (cleared.trans (paExit_pa s))))
    ((congrArg Ee.groups ee).trans (stopEffects_groups _)) (fun r low high => ?_) (fun g low => ?_) fun x low => ?_
  · exact (congrArg (fun ee => ee.runners.get r) ee).trans (stopEffects_runner low high)
  · rw [tsuExit_trem, if_pos low]
    exact stoppedTrem_eq _
  · rw [tsuExit_shutter, if_pos low]
    exact ⟨rfl, rfl⟩

/-! ### A change of the chamber state -/

/-- R135, R149: CH after a change to a state other than READY. -/
theorem moveTo_ch (st : ChamberState) (s : State) :
    (moveTo st s).ch = { s.ch with state := st, rest := if s.isReady = true then none else s.ch.rest } := by
  unfold moveTo
  dsimp only
  have told : ∀ v, (handPresence v).ch = v.ch := fun v => (handPresence_reach v).ee.ch_eq
  rw [told]
  split
  · rw [exitNotices_eq, (driveLamps_reach _ _).ee.ch_eq, exitBlocks_ch]
    rfl
  · rfl

/-- A change of the chamber state keeps the quiet, but for the sync timer. -/
theorem State.StillOutside.moveTo {s : State} (h : s.StillOutside) {st : ChamberState} (away : st ≠ .ready) :
    (moveTo st s).StillOutside := by
  have left : (if s.isReady = true then exitNotices (s.withChamber st) else s.withChamber st).StillOutside := by
    split
    · rw [exitNotices_eq]
      have lamps := driveLamps_pass false (exitBlocks (s.withChamber st))
      have outside : (s.withChamber st).isReady = false := by simpa [State.isReady, State.withChamber] using away
      refine (exitBlocks_still outside).stands fun out => ⟨?_, lamps.standsStill⟩
      rw [lamps.staysQuiet.state] at out
      exact out
    · next outside =>
      refine h.stands fun _ => ⟨fun ready => outside (by simp [State.isReady, ready]), ?_⟩
      exact .of_blocks rfl rfl rfl rfl rfl
  unfold Machine.moveTo
  dsimp only
  generalize (if s.isReady = true then exitNotices (s.withChamber st) else s.withChamber st) = a at left
  have told := (handPresence_reach a).staysQuiet
  refine left.stands fun out => ?_
  rw [told.state] at out
  exact ⟨out, told.outside out⟩

theorem State.StillOutside.withCh {s : State} (h : s.StillOutside) (origin : Origin) (sync : Option Nat) :
    State.StillOutside { s with ch := { s.ch with origin := origin, sync := sync } } :=
  ⟨h.arbiter, h.effects, h.clocks, h.groups, h.shutters, h.rest⟩

/-- A change of the chamber state that finds the sync timer as the new state has it. -/
theorem State.StillOutside.movedTo {s : State} (h : s.StillOutside) {st : ChamberState} (away : st ≠ .ready)
    (apart : st ≠ .gathering) (sync : s.ch.sync = none) : (Machine.moveTo st s).QuietOutsideReady := by
  refine (h.moveTo away).quiet ?_
  rw [moveTo_ch]
  simp [sync, apart]

/-- R143: CH after the notices of an entry to READY. -/
theorem readyNotices_ch (s : State) :
    (readyNotices s).ch.state = .ready ∧ (readyNotices s).ch.sync = s.ch.sync ∧ (readyNotices s).ch.origin = s.ch.origin := by
  rw [readyNotices_eq, (driveLamps_reach _ _).ee.ch_eq]
  have rests := restartRest_reach (entryNotices (s.withChamber .ready))
  have enters : ReachApp (s.withChamber .ready) (entryNotices (s.withChamber .ready)) := by
    unfold entryNotices
    split
    · exact eitherOrder_reach ReachApp (fun _ _ _ => ReachApp.trans) (fun _ _ => rfl) dtEnter_reach
        (fun s => (tsuEnter_reach s).app) _
    · exact (dtEnter_reach _).trans (tsuEnter_reach _).app
  generalize entryNotices (s.withChamber .ready) = a at rests enters
  generalize restartRest a = b at rests
  rw [rests, enters]
  exact ⟨rfl, rfl, rfl⟩

/-- R143: an entry to READY with the sync timer stopped. -/
theorem readyNotices_quiet {s : State} (sync : s.ch.sync = none) : (readyNotices s).QuietOutsideReady := by
  obtain ⟨state, same, -⟩ := readyNotices_ch s
  exact (State.StillOutside.of_ready state).quiet (by rw [state, same, sync]; decide)

theorem enterReady_quiet {s : State} (sync : s.ch.sync = none) : (enterReady s).QuietOutsideReady :=
  (readyNotices_quiet sync).stays (handPresence_reach _).staysQuiet

/-! ### The chamber's scripts -/

theorem State.QuietOutsideReady.sync_stopped {s : State} (h : s.QuietOutsideReady) (apart : s.ch.state ≠ .gathering) :
    s.ch.sync = none :=
  Option.not_isSome_iff_eq_none.1 fun some => apart (h.sync.1 some)

theorem State.QuietOutsideReady.enterGathering {s : State} (h : s.QuietOutsideReady) (sync : s.ch.sync = none) :
    (enterGathering s).QuietOutsideReady := by
  have moved := h.still.moveTo (st := .gathering) (by decide)
  have ch := moveTo_ch .gathering s
  unfold Machine.enterGathering
  dsimp only
  split
  · exact enterReady_quiet (by rw [ch]; exact sync)
  · exact (moved.withCh (Machine.moveTo .gathering s).ch.origin _).quiet ⟨fun _ => by rw [ch], fun _ => rfl⟩

theorem State.QuietOutsideReady.chamberEnded {s : State} (h : s.QuietOutsideReady) (sc : Script) :
    (chamberEnded sc s).QuietOutsideReady := by
  unfold Machine.chamberEnded
  split
  · split
    · next winding =>
      have sync := h.sync_stopped (by rw [winding]; decide)
      split
      · exact h.enterGathering sync
      · exact enterReady_quiet sync
    · exact h
  · split
    · next settling => exact h.still.movedTo (by decide) (by decide) (h.sync_stopped (by rw [settling]; decide))
    · exact h
  · split
    · next darkening =>
      exact (h.still.withCh .dark s.ch.sync).movedTo (by decide) (by decide) (h.sync_stopped (by rw [darkening]; decide))
    · exact h
  · exact h
  · exact h

theorem State.QuietOutsideReady.runChamber {s : State} (h : s.QuietOutsideReady) : (runChamber s).QuietOutsideReady := by
  by_cases ready : s.ch.state = .ready
  · have ch := (runChamber_ready ready).ch_eq
    exact h.stays ⟨by rw [ch], by rw [ch], fun out => absurd ready out⟩
  · unfold Machine.runChamber
    split
    · exact h
    · next c _ =>
      split
      · have pass := runPass_pass 0 c (s := s) (by simpa [State.isReady] using ready)
        split
        · next e =>
          rw [e] at pass
          exact (h.stays (pass.trans (setRunner_pass _ _)).staysQuiet).chamberEnded _
        · next e =>
          rw [e] at pass
          exact h.stays (pass.trans (setRunner_pass _ _)).staysQuiet
      · exact h

theorem State.QuietOutsideReady.startScript {s : State} (h : s.QuietOutsideReady) (sc : Script) (entry : Option Nat) :
    (startScript sc entry s).QuietOutsideReady := by
  unfold Machine.startScript
  split
  · exact (h.stays (setRunner_pass _ _).staysQuiet).chamberEnded sc
  · exact (h.stays (setRunner_pass _ _).staysQuiet).runChamber

/-! ### Waking, resting, darkening and losing wind -/

theorem State.StillOutside.enterDarkening {s : State} (h : s.StillOutside) : (enterDarkening s).QuietOutsideReady := by
  have idle : (s.setRunner 0 none).StillOutside := h.stands fun out => ⟨out, (setRunner_pass none s).standsStill⟩
  exact ((idle.withCh s.ch.origin none).movedTo (by decide) (by decide) rfl).startScript _ _

theorem State.QuietOutsideReady.admitWake {s : State} (h : s.QuietOutsideReady) (apart : s.ch.state ≠ .gathering) :
    (admitWake s).QuietOutsideReady := by
  have idle := h.stays (setRunner_pass none s).staysQuiet
  unfold Machine.admitWake
  dsimp only
  generalize (if s.ch.state = .dark then Origin.dark else .other) = origin
  exact ((idle.still.withCh origin s.ch.sync).movedTo (by decide) (by decide) (h.sync_stopped apart)).startScript _ _

theorem State.QuietOutsideReady.offerWake {s : State} (h : s.QuietOutsideReady) (cause : WakeCause) :
    (offerWake cause s).QuietOutsideReady := by
  unfold Machine.offerWake
  split
  · next admitted => exact h.admitWake (by rcases admitted.2 with e | e | e <;> rw [e] <;> decide)
  · exact h

theorem State.QuietOutsideReady.enterSettling {s : State} (h : s.QuietOutsideReady) (ready : s.ch.state = .ready) :
    (enterSettling s).QuietOutsideReady :=
  (h.still.movedTo (by decide) (by decide) (h.sync_stopped (by rw [ready]; decide))).startScript _ _

theorem State.QuietOutsideReady.wakeTimeout {s : State} (h : s.QuietOutsideReady) (l i : Nat) :
    (wakeTimeout l i s).QuietOutsideReady :=
  (h.stays (reportFault_staysQuiet _ _ _ s)).still.enterDarkening

theorem State.QuietOutsideReady.pressureLoss {s : State} (h : s.QuietOutsideReady) (l : Nat) :
    (pressureLoss l s).QuietOutsideReady := by
  have told : ∀ d, (reportFault .pressureLost l d s).QuietOutsideReady := fun d =>
    h.stays (reportFault_staysQuiet _ _ _ s)
  unfold Machine.pressureLoss
  split
  · next ready =>
    exact (((told _).still.withCh .other s.ch.sync).movedTo (by decide) (by decide)
      (h.sync_stopped (by rw [ready]; decide))).startScript _ _
  · split
    · exact (((told _).still.withCh s.ch.origin none).movedTo (by decide) (by decide) rfl).startScript _ _
    · exact h

theorem syncShort_quiet (s : State) : (syncShort s).QuietOutsideReady := by
  unfold syncShort
  split
  · exact enterReady_quiet rfl
  · exact ((readyNotices_quiet (s := stopSync s) rfl).stays (reportFault_staysQuiet _ _ _ _)).stays
      (handPresence_reach _).staysQuiet

theorem State.QuietOutsideReady.judgeGathering {s : State} (h : s.QuietOutsideReady) :
    (judgeGathering s).QuietOutsideReady := by
  unfold Machine.judgeGathering
  split
  · exact enterReady_quiet rfl
  · exact h

theorem restartRest_staysQuiet (s : State) (h : s.QuietOutsideReady) : s.staysQuiet (restartRest s) :=
  (restartRest_re s).staysQuiet h fun hush => by rw [restartRest_hush hush]; exact .refl s

theorem State.QuietOutsideReady.restExpires {s : State} (h : s.QuietOutsideReady) (ready : s.ch.state = .ready) :
    (restExpires s).QuietOutsideReady := by
  unfold Machine.restExpires
  split
  · exact h.enterSettling ready
  · exact h.stays (restartRest_staysQuiet s h)

end Sys2Proof.Machine
end

section
/-! O51: the quiet outside READY is kept by every step. -/

namespace Sys2Proof.Machine

/-! ### Operations of PT, LI, CC and PF alone -/

/-- What PT, LI, CC and PF do for themselves reaches those blocks alone. -/
def ReachOut (s t : State) : Prop := t = { s with cc := t.cc, li := t.li, pt := t.pt, pf := t.pf }

theorem ReachOut.refl (s : State) : ReachOut s s := rfl

theorem ReachOut.trans {a b c : State} (h : ReachOut a b) (k : ReachOut b c) : ReachOut a c := by
  unfold ReachOut at *; rw [k, h]

theorem ReachLi.out {s t : State} (h : ReachLi s t) : ReachOut s t := by
  unfold ReachLi at h; unfold ReachOut; rw [h]

theorem ReachCc.out {s t : State} (h : ReachCc s t) : ReachOut s t := by
  unfold ReachCc at h; unfold ReachOut; rw [h]

theorem ReachOut.staysQuiet {s t : State} (h : ReachOut s t) : s.staysQuiet t :=
  .of_blocks (by rw [h]) (by rw [h]) (by rw [h]) (by rw [h]) (by rw [h])

theorem heard_out (a : Station) (s : State) : ReachOut s (heard a s) := rfl

theorem setPeer_out (a : Station) (v : Peer) (s : State) : ReachOut s (s.setPeer a v) := rfl

theorem withLi_out (li : Li) (s : State) : ReachOut s { s with li := li } := rfl

theorem withPf_out (pf : Pf) (s : State) : ReachOut s { s with pf := pf } := rfl

theorem judgeLoopback_out (c : Nat) (returned : List Nat) (s : State) : ReachOut s (judgeLoopback c returned s) := by
  unfold judgeLoopback
  split <;> rfl

theorem endShift_out (c : Nat) (returned : List Nat) (s : State) : ReachOut s (endShift c returned s) := by
  have judged : ReachOut s (if (s.chain c).released then judgeLoopback c returned s else s) := by
    split
    · exact judgeLoopback_out _ _ _
    · exact .refl s
  unfold endShift
  split
  · exact .refl s
  · next sh _ =>
    dsimp only
    generalize (if (s.chain c).released = true then judgeLoopback c returned s else s) = v at judged ⊢
    refine judged.trans ?_
    split
    · exact ReachOut.trans (b := v.setChain c _) rfl (startShift_reach _ _).out
    · rfl

theorem beginFrame_out (s : State) : ReachOut s (beginFrame s) := by
  unfold beginFrame
  split <;> rfl

theorem returnFrame_out (s : State) : ReachOut s (returnFrame s) := by
  unfold returnFrame
  split <;> rfl

theorem mismatch_out (s : State) : ReachOut s (mismatch s) := by
  have returned := returnFrame_out
    (reportFault .dupStation s.pf.station.val (s.li.duplicates + 1)
      { s with li := { s.li with duplicates := s.li.duplicates + 1 } })
  have counted : ReachOut s (reportFault .dupStation s.pf.station.val (s.li.duplicates + 1)
      { s with li := { s.li with duplicates := s.li.duplicates + 1 } }) := rfl
  unfold mismatch
  dsimp only
  split
  · exact (counted.trans returned).trans rfl
  · exact counted.trans returned

/-! ### Orders and folds -/

/-- What both of two operations keep, they keep in either order. -/
theorem eitherOrder_keeps {P : State → Prop} (counted : ∀ (s : State) (n : Nat), P s → P { s with choices := n })
    {f g : State → State} (hf : ∀ s, P s → P (f s)) (hg : ∀ s, P s → P (g s)) {s : State} (h : P s) :
    P (eitherOrder f g s) := by
  unfold eitherOrder
  dsimp only
  split
  · exact hg _ (hf _ (counted s _ h))
  · exact hf _ (hg _ (counted s _ h))

/-- What each operation of a list keeps, the list keeps in any order. -/
theorem inAnyOrder_keeps {P : State → Prop} (counted : ∀ (s : State) (n : Nat), P s → P { s with choices := n })
    {f : Nat → State → State} : ∀ (n : Nat) (l : List Nat), (∀ r ∈ l, ∀ s, P s → P (f r s)) →
    ∀ {s : State}, P s → P (inAnyOrder f n l s) := by
  intro n
  induction n with
  | zero =>
    intro l hf s h
    match l with
    | [] => exact h
    | [r] => exact hf r List.mem_cons_self s h
    | _ :: _ :: _ => exact h
  | succ n ih =>
    intro l hf s h
    match l with
    | [] => exact h
    | [r] => exact hf r List.mem_cons_self s h
    | first :: second :: rest =>
      unfold inAnyOrder
      dsimp only
      refine ih _ (fun r m => hf r (List.mem_of_mem_eraseIdx m)) (hf _ ?_ _ (counted s _ h))
      rw [List.getD_eq_getElem?_getD]
      have low : Config.freePick s.choices (first :: second :: rest).length % (first :: second :: rest).length <
          (first :: second :: rest).length := Nat.mod_lt _ (by simp)
      rw [List.getElem?_eq_getElem low, Option.getD_some]
      exact List.getElem_mem low

/-- What an operation keeps, a fold of it keeps. -/
theorem foldl_keeps {β : Type} {P : State → Prop} {f : State → β → State} (l : List β)
    (hf : ∀ x ∈ l, ∀ s, P s → P (f s x)) : ∀ {s : State}, P s → P (l.foldl f s) := by
  induction l with
  | nil => exact fun h => h
  | cons x rest ih =>
    exact fun h => ih (fun y m => hf y (List.mem_cons_of_mem _ m)) (hf x List.mem_cons_self _ h)

/-! ### The keyboard -/

theorem State.QuietOutsideReady.mergedChange {s : State} (h : s.QuietOutsideReady) (allOff : Bool) (d k : Nat)
    (old new : Touch) : (mergedChange allOff d k old new s).QuietOutsideReady := by
  have taken := (s.studded_taken allOff d k old new).restarted.quiet h
  rw [mergedChange_eq]
  split
  · exact taken.offerWake _
  · exact taken

theorem State.QuietOutsideReady.remerge {s : State} (h : s.QuietOutsideReady) (allOff : Bool) (d k : Nat) :
    (remerge allOff d k s).QuietOutsideReady := by
  unfold Machine.remerge
  dsimp only
  split
  · exact h
  · exact h.mergedChange _ _ _ _ _

theorem setSlotTouch_staysQuiet (c d k : Nat) (v : Touch) (s : State) : s.staysQuiet (s.setSlotTouch c d k v) :=
  withKm_staysQuiet s _

theorem State.QuietOutsideReady.setTouch {s : State} (h : s.QuietOutsideReady) (c d k : Nat) (v : Touch) :
    (setTouch c d k v s).QuietOutsideReady := by
  unfold Machine.setTouch
  split
  · exact h
  · exact (h.stays (setSlotTouch_staysQuiet c d k v s)).remerge _ _ _

theorem State.QuietOutsideReady.keyChange {s : State} (h : s.QuietOutsideReady) (c d : Nat) (x : Fin 64 × BitVec 2) :
    (keyChange c d s x).QuietOutsideReady := by
  unfold Machine.keyChange
  split
  · exact h.setTouch _ _ _ _
  · exact h

theorem State.QuietOutsideReady.stopChange {s : State} (h : s.QuietOutsideReady) (x : Fin 1024 × Bool) :
    (stopChange s x).QuietOutsideReady :=
  h.stays ((stopChange_re s x).staysQuiet h (stopChange_hush s x))

theorem State.QuietOutsideReady.dropDivision {s : State} (h : s.QuietOutsideReady) (c d : Nat) :
    (dropDivision c s d).QuietOutsideReady :=
  foldl_keeps _ (fun k _ _ hs => hs.setTouch c d k .up) h

theorem State.QuietOutsideReady.endHoldOf {s : State} (h : s.QuietOutsideReady) (a : Station) :
    (endHoldOf a s).QuietOutsideReady := by
  unfold Machine.endHoldOf
  split
  · exact h.endHold
  · exact h

theorem State.QuietOutsideReady.consoleLoss {s : State} (h : s.QuietOutsideReady) (a : Station) (c : Nat) :
    (consoleLoss a c s).QuietOutsideReady := by
  have fallen : ((List.range 8).foldl (Machine.dropDivision c) s).QuietOutsideReady :=
    foldl_keeps _ (fun d _ _ hs => hs.dropDivision c d) h
  have ended := ((fallen.stays (releaseShoes_staysQuiet c _)).endHoldOf a).stays
    (withKm_staysQuiet _ _ : State.staysQuiet _ (State.setSlot c { station := none, touch := .empty } _))
  unfold Machine.consoleLoss
  dsimp only
  split
  · exact ended.stays (reportFault_staysQuiet _ _ _ _)
  · exact ended

theorem State.QuietOutsideReady.stationLost {s : State} (h : s.QuietOutsideReady) (a : Station) :
    (stationLost a s).QuietOutsideReady := by
  have left := h.stays (withKm_staysQuiet s { s.km with refused := s.km.refused.set a.val false })
  unfold Machine.stationLost
  dsimp only
  split
  · exact left.consoleLoss a _
  · exact left.endHoldOf a

theorem State.QuietOutsideReady.allOffKey {s : State} (h : s.QuietOutsideReady) (d k : Nat) :
    (allOffKey d s k).QuietOutsideReady := by
  unfold Machine.allOffKey
  split
  · exact h
  · exact State.QuietOutsideReady.remerge
      (foldl_keeps _ (fun c _ v hv => hv.stays (setSlotTouch_staysQuiet c d k .up v)) h) _ _ _

theorem State.QuietOutsideReady.allOff {s : State} (h : s.QuietOutsideReady) : (allOff s).QuietOutsideReady := by
  have walked : ((List.range 8).foldl allOffDivision (Machine.eeAllOff s)).QuietOutsideReady :=
    foldl_keeps _ (fun d _ _ hs => foldl_keeps _ (fun k _ _ hv => hv.allOffKey d k) hs) h.eeAllOff
  exact walked.endHold

/-- A playing frame finds or binds its sender's slot, or is refused. -/
theorem State.QuietOutsideReady.withSlot {s : State} (h : s.QuietOutsideReady) (a : Station) (detail : Nat)
    {apply : Nat → State → State} (keeps : ∀ c v, v.QuietOutsideReady → (apply c v).QuietOutsideReady) :
    (withSlot a detail apply s).QuietOutsideReady := by
  unfold Machine.withSlot
  split
  · exact keeps _ _ h
  · split
    · exact keeps _ _ (h.stays (withKm_staysQuiet s _))
    · unfold refuseConsole
      split
      · exact h
      · exact (h.stays (withKm_staysQuiet s _)).stays (reportFault_staysQuiet _ _ _ _)

theorem State.QuietOutsideReady.takeTune {s : State} (h : s.QuietOutsideReady) (a : Station) (output : BitVec 16) :
    (takeTune a output s).QuietOutsideReady := by
  unfold Machine.takeTune
  dsimp only
  split
  · exact h.endHold
  · split
    · split
      · exact h.stays (.of_blocks rfl rfl rfl rfl rfl)
      · exact h.moveHold _
    · exact h

/-! ### The runners and the lines -/

/-- R105: a runner whose wait is over. Runners 1 to 7 hold a context in READY alone. -/
theorem State.QuietOutsideReady.resumePass {s : State} (h : s.QuietOutsideReady) {r : Nat} (low : r < 8) {c : Context}
    (found : s.runner r = some c) : (resumePass r c s).QuietOutsideReady := by
  unfold Machine.resumePass
  split
  · exact (h.stays (setRunner_pass _ _).staysQuiet).runChamber
  · next effect =>
    have ready : s.ch.state = .ready := by
      by_contra out
      rw [(h.effects out).2 r (by omega) low] at found
      cases found
    have ch := (runEffect_reach r c.resumed s).ch_eq
    exact h.stays ⟨by rw [ch], by rw [ch], fun out => absurd ready out⟩

theorem State.QuietOutsideReady.offerMark {s : State} (h : s.QuietOutsideReady) (m : Fin 64) :
    (offerMark m s).QuietOutsideReady := by
  refine inAnyOrder_keeps (fun s n hs => hs.stays (.of_blocks rfl rfl rfl rfl rfl)) 8 _ (fun r listed v hv => ?_) h
  have low : r < 8 := List.mem_range.1 (List.mem_filter.1 listed).1
  unfold takeMark
  split
  · next c found =>
    split
    · exact hv.resumePass low found
    · exact hv
  · exact hv

theorem State.QuietOutsideReady.ownFrame {s : State} (h : s.QuietOutsideReady) (f : Frame) :
    (ownFrame f s).QuietOutsideReady := by
  unfold Machine.ownFrame
  split
  · exact h.offerMark _
  · exact h.stays (offerBeat_staysQuiet _ _ h)
  · exact h
  · exact h

theorem State.QuietOutsideReady.edgeBlock {s : State} (h : s.QuietOutsideReady) (l : Nat) (v : Bool) :
    (edgeBlock l v s).QuietOutsideReady := by
  unfold Machine.edgeBlock
  split
  · split
    · exact h
    · exact h.pressureLoss _
  · split
    · exact h.offerWake _
    · exact h
  · exact h.cueEdge _ _
  · split
    · exact h.allOff
    · exact h
  all_goals exact h

theorem offerLine_pass (l : Nat) (v : Bool) (s : State) : ReachPass s (offerLine l v s) := by
  unfold offerLine
  split
  · split
    · exact setRunner_pass _ s
    · exact .refl s
  · exact .refl s

theorem setLine_staysQuiet (l : Nat) (v : Line) (s : State) : s.staysQuiet (s.setLine l v) :=
  .of_blocks rfl rfl rfl rfl rfl

theorem State.QuietOutsideReady.debouncedEdge {s : State} (h : s.QuietOutsideReady) (l : Nat) (v : Bool) :
    (debouncedEdge l v s).QuietOutsideReady := by
  have set := h.stays (setLine_staysQuiet l { s.line l with debounced := v, debounce := none } s)
  have runner : ∀ t : State, t.QuietOutsideReady → (edgeRunner l v t).QuietOutsideReady := fun t ht =>
    (ht.stays (offerLine_pass l v t).staysQuiet).runChamber
  unfold Machine.debouncedEdge
  dsimp only
  split
  · split
    · exact eitherOrder_keeps (fun s n hs => hs.stays (.of_blocks rfl rfl rfl rfl rfl)) (fun t ht => ht.edgeBlock l v)
        runner set
    · exact set.edgeBlock l v
  · exact runner _ set

theorem State.QuietOutsideReady.rawChanged {s : State} (h : s.QuietOutsideReady) (l : Nat) (v : Bool) :
    (rawChanged l v s).QuietOutsideReady := by
  unfold Machine.rawChanged
  split
  · split
    · exact h.stays (setLine_staysQuiet _ _ _)
    · dsimp only
      split
      · exact h.debouncedEdge l v
      · exact h.stays (setLine_staysQuiet _ _ _)
  · exact h

/-! ### Resets and acceptance -/

theorem resetBlocks_quiet (cause : Cause) (straps : Station) (s : State) :
    (resetBlocks cause straps s).QuietOutsideReady :=
  State.reset_quietOutsideReady.stays (.of_blocks rfl rfl rfl rfl rfl)

theorem endReset_out (s : State) : ReachOut s (endReset s) :=
  (handPresence_reach s).out.trans rfl

theorem State.QuietOutsideReady.acceptProfile {s : State} (h : s.QuietOutsideReady) (loading : s.ch.state = .loading)
    (p : Profile) : (acceptProfile p s).QuietOutsideReady := by
  have given : s.staysQuiet { s with profile := some p } := .of_blocks rfl rfl rfl rfl rfl
  have set := given.trans (staysQuiet_foldl acceptLine (fun v l => setLine_staysQuiet l _ v) (List.range 12) _)
  have cued := set.trans (staysQuiet_foldl takeCueLevel takeCueLevel_staysQuiet (List.range p.effects.length) _)
  have shifts := cued.trans (staysQuiet_foldl (fun s c => startShift c s) (fun v c => (startShift_reach c v).staysQuiet)
    (List.range 4) _)
  unfold Machine.acceptProfile
  refine ((h.stays shifts).still.movedTo (by decide) (by decide) ?_).offerWake _
  exact shifts.sync.trans (h.sync_stopped (by rw [loading]; decide))

theorem State.QuietOutsideReady.refuseProfile {s : State} (h : s.QuietOutsideReady) (loading : s.ch.state = .loading)
    (x : LoadFault) : (refuseProfile x s).QuietOutsideReady := by
  have refused : (s.withChamber .profileFault).StillOutside :=
    h.still.stands fun _ => ⟨by rw [loading]; decide, .of_blocks rfl rfl rfl rfl rfl⟩
  have sync : (s.withChamber .profileFault).ch.sync = none := h.sync_stopped (by rw [loading]; decide)
  have entered : (s.withChamber .profileFault).QuietOutsideReady := refused.quiet (by rw [sync]; simp [State.withChamber])
  exact (entered.stays (reportFault_staysQuiet _ _ _ _)).stays (handPresence_reach _).staysQuiet

/-! ### The shape of a command -/

/-- A command that is taken, with the pass of runner 0 that follows it, or that comes while NRST is low. -/
theorem State.QuietOutsideReady.taken {s u : State} (h : s.QuietOutsideReady) {t : Nat} {f : State → State}
    (keeps : (s.arrive t).QuietOutsideReady → (f (s.arrive t)).QuietOutsideReady) (e : taken t f s = .next u) :
    u.QuietOutsideReady := by
  have arrived : (s.arrive t).QuietOutsideReady := h.stays (.of_blocks rfl rfl rfl rfl rfl)
  unfold Machine.taken at e
  cases e
  split
  · exact arrived
  · exact (keeps arrived).runChamber

/-- A checked frame: PT hears its sender, and the block takes it. -/
theorem State.QuietOutsideReady.frame {s u : State} (h : s.QuietOutsideReady) {t : Nat} {a : Station}
    {f : State → State} (keeps : ∀ v : State, v.QuietOutsideReady → (f v).QuietOutsideReady)
    (e : frame t a f s = .next u) : u.QuietOutsideReady := by
  refine h.taken (fun k => ?_) e
  split
  · exact k
  · exact keeps _ (k.stays (heard_out a _).staysQuiet)

theorem State.QuietOutsideReady.accepted {v : State} (h : v.QuietOutsideReady) {f : State → State}
    (keeps : v.QuietOutsideReady → (f v).QuietOutsideReady) : (accepted f v).QuietOutsideReady := by
  unfold Machine.accepted
  split
  · exact keeps h
  · exact h

/-- An operation taken on a condition. -/
theorem State.QuietOutsideReady.ite {p : Prop} [Decidable p] {s t : State} (h : s.QuietOutsideReady)
    (k : p → t.QuietOutsideReady) : (if p then t else s).QuietOutsideReady := by
  split
  · next holds => exact k holds
  · exact h

theorem State.isReady_iff {s : State} : s.isReady = true ↔ s.ch.state = .ready := by simp [State.isReady]

theorem State.QuietOutsideReady.exec {s u : State} (h : s.QuietOutsideReady) (i : Instr) (e : exec i s = .next u) :
    u.QuietOutsideReady := by
  cases i with
  | powerOn t straps =>
    cases e
    have emptied : (emptyRecord (resetBlocks .powerOn straps (s.arrive t))).QuietOutsideReady :=
      (resetBlocks_quiet .powerOn straps (s.arrive t)).stays (.of_blocks rfl rfl rfl rfl rfl)
    exact emptied.stays (endReset_out _).staysQuiet
  | pinReset t straps =>
    cases e
    exact (resetBlocks_quiet (s.arrive t).pinCause straps (s.arrive t)).stays (.of_blocks rfl rfl rfl rfl rfl)
  | profileLoadEnd t image =>
    refine h.taken (fun k => k.ite fun loading => ?_) e
    have tagged := k.stays (withPf_out { (s.arrive t).pf with tag := imageTag image } _).staysQuiet
    unfold loadEnds
    dsimp only
    split
    · exact tagged.acceptProfile loading _
    · exact tagged.refuseProfile loading _
  | lineCheck t a reason =>
    simp only [Machine.exec, execLineCheck] at e
    refine h.taken (fun k => ?_) e
    split
    · exact k
    · exact k.stays (reportFault_staysQuiet _ _ _ _)
  | alloff t a => exact h.frame (fun v k => k.accepted fun k => k.allOff) e
  | restart t a mask straps =>
    exact h.frame (fun v k => k.ite fun _ => (resetBlocks_quiet _ _ _).stays (endReset_out _).staysQuiet) e
  | keys t a d changes =>
    refine h.frame (fun v k => k.accepted fun k => k.withSlot a keysDetail fun c w hw => ?_) e
    exact foldl_keeps _ (fun x _ _ hx => hx.keyChange c d.val x) hw
  | snap t a d codes =>
    refine h.frame (fun v k => k.accepted fun k => k.withSlot a snapDetail fun c w hw => ?_) e
    exact foldl_keeps _ (fun x _ _ hx => hx.setTouch c d.val x _) hw
  | shoe t a pairs =>
    exact h.frame (fun v k => k.accepted fun k => k.withSlot a shoeDetail fun c w hw =>
      hw.stays (takePairs_staysQuiet c pairs w)) e
  | beat t a tag => exact h.frame (fun v k => k.accepted fun k => k.stays (offerBeat_staysQuiet a tag k)) e
  | mark t a m => exact h.frame (fun v k => k.accepted fun k => k.offerMark m) e
  | stops t a changes =>
    refine h.frame (fun v k => k.accepted fun k => k.withSlot a stopsDetail fun c w hw => ?_) e
    exact foldl_keeps _ (fun x _ _ hx => hx.stopChange x) hw
  | chamberWake t a mask => exact h.frame (fun v k => k.accepted fun k => k.ite fun _ => k.offerWake _) e
  | chamberRest t a mask =>
    refine h.frame (fun v k => k.accepted fun k => ?_) e
    exact k.ite fun taken => k.enterSettling taken.2
  | chamberDark t a mask =>
    exact h.frame (fun v k => k.accepted fun k => k.ite fun _ => k.still.enterDarkening) e
  | tune t a station output => exact h.frame (fun v k => k.accepted fun k => k.ite fun _ => k.takeTune a output) e
  | clear t a mask =>
    exact h.frame (fun v k => k.ite fun _ => k.stays (withPf_out _ _).staysQuiet) e
  | ask t a station =>
    simp only [Machine.exec, execAsk] at e
    refine h.taken (fun k => ?_) e
    have told := k.ite (p := ¬ (s.arrive t).ch.state = .profileFault) fun _ => k.stays (heard_out a _).staysQuiet
    rw [ite_not] at told
    exact told.ite fun _ => told.stays (handOver_reach _ _).staysQuiet
  | presence t a role state flags tag =>
    exact h.frame (fun v k => (k.stays (setPeer_out _ _ v).staysQuiet).judgeGathering) e
  | reportReceived t a payload => exact h.frame (fun v k => k) e
  | silenceTimerExpiry t a =>
    simp only [Machine.exec, execSilenceTimerExpiry] at e
    refine h.taken (fun k => ?_) e
    split
    · exact k
    · split
      · next entry _ =>
        exact (k.stays (setPeer_out a entry _).staysQuiet).accepted fun left => left.stationLost a
      · exact k
  | pizzicatoExpiry t d k => exact h.taken (fun arrived => arrived.ite fun _ => arrived.pizzExpiry d.val k.val) e
  | reiterationClockEdge t w =>
    refine h.taken (fun k => k.ite fun due => ?_) e
    have ready := State.isReady_iff.1 due.1
    have ch : (clockEdge w.val (s.arrive t)).ch = (s.arrive t).ch :=
      (forOutputs_reach strikeBar_reach _ _).ee.ch_eq
    exact k.stays ⟨by rw [ch], by rw [ch], fun out => absurd ready out⟩
  | pullInEnd t o => exact h.taken (fun k => k.stays (pullInEnds_staysQuiet _ _)) e
  | strikeEnd t o => exact h.taken (fun k => k.stays (strikeEnds_staysQuiet _ _)) e
  | shiftEnd t c returned => exact h.taken (fun k => k.ite fun _ => k.stays (endShift_out _ _ _).staysQuiet) e
  | refreshTimerExpiry t c => exact h.taken (fun k => k.ite fun _ => k.stays (shiftWanted_reach _ _).staysQuiet) e
  | waitEnd t r | awaitTimeout t r =>
    simp only [Machine.exec, execWaitEnd, execAwaitTimeout] at e
    refine h.taken (fun k => ?_) e
    split
    · next c found => exact k.ite fun _ => k.resumePass r.isLt found
    · exact k
  | awaitlineTimeout t =>
    simp only [Machine.exec, execAwaitlineTimeout] at e
    refine h.taken (fun k => ?_) e
    split
    · next c found =>
      split
      · split
        · exact k.wakeTimeout _ _
        · exact k.resumePass (by omega) found
      · exact k
    · exact k
  | phase0 t g =>
    simp only [Machine.exec, execPhase0] at e
    refine h.taken (fun k => ?_) e
    split
    · exact k.ite fun due => k.runningGroup g.isLt due.1 (phase0At_reach _ _ _)
    · exact k
  | phaseW t g => exact h.taken (fun k => k.ite fun due => k.runningGroup g.isLt due.1 (phaseWAt_reach _ _)) e
  | followLossExpiry t g =>
    refine h.taken (fun k => k.ite fun due => ?_) e
    have ready : (s.arrive t).ch.state = .ready := by
      by_contra out
      rw [k.groups out g.val g.isLt] at due
      cases due.1
    exact k.stays ⟨rfl, rfl, fun out => absurd ready out⟩
  | ownerHoldExpiry t x =>
    refine h.taken (fun k => k.ite fun _ => ?_) e
    exact k.stays (setShutter_staysQuiet x.val rfl rfl)
  | stepTimerExpiry t x => exact h.taken (fun k => k.ite fun due => stepTimerEnds_quiet x.isLt k due) e
  | syncTimeout t => exact h.taken (fun k => k.ite fun _ => syncShort_quiet _) e
  | restTimerExpiry t => exact h.taken (fun k => k.ite fun due => k.restExpires (State.isReady_iff.1 due.1)) e
  | lineRawChange t l v =>
    simp only [Machine.exec, execLineRawChange] at e
    split at e
    · cases e
      exact h.stays (.of_blocks rfl rfl rfl rfl rfl)
    · exact State.QuietOutsideReady.taken (s := pinLevel l.val v s) (h.stays (setLine_staysQuiet _ _ _))
        (fun k => k.accepted fun k => k.rawChanged l.val v) e
  | debounceExpiry t l => exact h.taken (fun k => k.ite fun _ => k.debouncedEdge _ _) e
  | presencePeriodExpiry t =>
    exact h.taken (fun k => k.ite fun _ => k.stays ((withLi_out _ _).trans (handPresence_reach _).out).staysQuiet) e
  | txStart t =>
    simp only [Machine.exec, execTxStart] at e
    refine h.taken (fun k => ?_) e
    split
    · exact k
    · exact k.stays (beginFrame_out _).staysQuiet
  | claimLost t => exact h.taken (fun k => k.stays (returnFrame_out _).staysQuiet) e
  | txMismatch t => exact h.taken (fun k => k.ite fun _ => k.stays (mismatch_out _).staysQuiet) e
  | txComplete t =>
    simp only [Machine.exec, execTxComplete] at e
    refine h.taken (fun k => ?_) e
    split
    · exact k
    · exact (k.stays (withLi_out _ _).staysQuiet).ownFrame _
  | profileHeaderRead t tag =>
    exact h.taken (fun k => k.ite fun _ => k.stays (withPf_out _ _).staysQuiet) e
  | endOfPinReset t =>
    cases e
    have arrived : (s.arrive t).QuietOutsideReady := h.stays (.of_blocks rfl rfl rfl rfl rfl)
    exact arrived.ite fun _ => arrived.stays ((withPf_out _ _).trans (endReset_out _)).staysQuiet

/-- Settles O51: on an empty queue nothing moves, and every command keeps the quiet. -/
theorem quietOutsideReadyIsKept : Obligations.QuietOutsideReadyIsKept := by
  intro s u h e
  unfold step at e
  split at e
  · cases e
    exact h
  · next c rest _ =>
    have taken : State.QuietOutsideReady { s with pending := rest } := h.stays (.of_blocks rfl rfl rfl rfl rfl)
    exact taken.exec c e

end Sys2Proof.Machine
end

section
/-! REITERATION_CLOCK_EDGE (R49): the strikes of a window's set, and what the action queue has room for. -/

namespace Sys2Proof.Machine

/-! ### STRIKE and the choice: what is out of OFF stays out of OFF (R68, R71) -/

/-- No output comes to OFF, and the action queue grows by `n` entries at most. -/
structure State.callsOn (n : Nat) (s t : State) : Prop where
  out : ∀ o, s.out o ≠ .off → t.out o ≠ .off
  action : t.pa.action.length ≤ s.pa.action.length + n

theorem State.callsOn.refl (s : State) : s.callsOn 0 s := ⟨fun _ h => h, Nat.le_refl _⟩

theorem State.callsOn.trans {m n : Nat} {a b c : State} (h : a.callsOn m b) (k : b.callsOn n c) :
    a.callsOn (m + n) c :=
  ⟨fun o e => k.out o (h.out o e), by have := h.action; have := k.action; omega⟩

/-- R72: a grant puts its output to PULLING or STRIKING. -/
theorem grant_out_own (c : Candidate) (s : State) : (grant c s).out c.output ≠ .off := by
  unfold State.out
  rw [grant_pa]
  cases c with
  | speech o => simp [grantPa, Candidate.output]
  | action e =>
    simp only [grantPa, Candidate.output, Table.get_set]
    cases e.kind <;> simp

theorem grant_callsOn (c : Candidate) (s : State) : s.callsOn 0 (grant c s) where
  out o called := by
    by_cases own : o = c.output
    · rw [own]; exact grant_out_own c s
    · rw [grant_out own]; exact called
  action := by
    rw [grant_pa]
    cases c <;> simp [grantPa]

theorem chooseUpTo_callsOn (n : Nat) : ∀ s : State, s.callsOn 0 (chooseUpTo n s) := by
  induction n with
  | zero => exact State.callsOn.refl
  | succ n ih =>
    intro s
    unfold chooseUpTo
    split
    · exact .refl s
    · next c _ =>
      split
      · exact (grant_callsOn c s).trans (ih _)
      · exact .refl s

/-- R68: while the action queue has room a STRIKE in READY calls its output, and records no fault. -/
theorem paStrike_room (o w : Nat) {s : State} (ready : s.isReady = true) (room : s.pa.action.length < 128) :
    s.callsOn 1 (paStrike o w s) ∧ (paStrike o w s).pf = s.pf ∧ (paStrike o w s).out o ≠ .off := by
  have chosen : ∀ v : State, s.callsOn 1 v → v.pf = s.pf → v.out o ≠ .off →
      s.callsOn 1 (chooseGrants v) ∧ (chooseGrants v).pf = s.pf ∧ (chooseGrants v).out o ≠ .off := by
    intro v calls pf called
    have choice : v.callsOn 0 (chooseGrants v) := chooseUpTo_callsOn _ v
    refine ⟨calls.trans choice, ?_, choice.out o called⟩
    rw [← pf]
    have reach := chooseGrants_reach v
    unfold ReachGrant at reach
    rw [reach]
  unfold paStrike paEvent
  rw [if_pos ready]
  dsimp only
  split
  · unfold joinAction
    rw [if_pos room]
    refine chosen _ ⟨fun o' called => ?_, by simp⟩ rfl ?_
    · simp only [State.out, Table.get_set] at called ⊢
      split
      · simp
      · exact called
    · simp [State.out]
  · next called => exact chosen s ⟨fun _ h => h, Nat.le_succ _⟩ rfl called

theorem paStrike_request (o w : Nat) : PaRequest (paStrike o w) := by
  refine PaRequest.paEvent fun s t h => ?_
  rw [h.out]
  split
  · exact joinAction_request _ _ s t h
  · exact ⟨h, fun pf => pf⟩

/-- R49: the strikes of a set for which the action queue has room call every output of it, and record no fault. -/
theorem strikeBars_room (l : List Nat) : ∀ {s : State}, s.isReady = true → s.pa.action.length + l.length ≤ 128 →
    s.callsOn l.length (forOutputs strikeBar l s) ∧ (forOutputs strikeBar l s).pf = s.pf ∧
      ∀ o ∈ l, (forOutputs strikeBar l s).out o ≠ .off := by
  induction l with
  | nil => exact fun {s} _ _ => ⟨.refl s, rfl, fun _ m => by cases m⟩
  | cons o rest ih =>
    intro s ready room
    rw [List.length_cons] at room
    obtain ⟨calls, pf, called⟩ : s.callsOn 1 (strikeBar o s) ∧ (strikeBar o s).pf = s.pf ∧
        (strikeBar o s).out o ≠ .off := paStrike_room o _ ready (by omega)
    have ready' : (strikeBar o s).isReady = true := by rw [strikeBar_reach o s]; exact ready
    have room' := calls.action
    obtain ⟨calls', pf', called'⟩ := ih ready' (by omega)
    refine ⟨?_, pf'.trans pf, fun o' m => ?_⟩
    · rw [List.length_cons, Nat.add_comm]
      exact calls.trans calls'
    · rcases List.mem_cons.1 m with rfl | m
      · exact calls'.out o' called
      · exact called' o' m

/-- R49: where every output of the set lies in one window, the strikes are of that window's width. -/
theorem strikeBars_eq {x : Window} (l : List Nat) : ∀ {s : State}, (∀ o ∈ l, s.prof.windowOf o = some x) →
    forOutputs strikeBar l s = forOutputs (fun o => paStrike o x.strikeWidth) l s := by
  induction l with
  | nil => exact fun _ => rfl
  | cons o rest ih =>
    intro s within
    have one : strikeBar o s = paStrike o x.strikeWidth s := by
      unfold strikeBar
      rw [within o List.mem_cons_self]
      rfl
    have prof : (paStrike o x.strikeWidth s).prof = s.prof := by rw [paStrike_reach o x.strikeWidth s]; rfl
    show forOutputs strikeBar rest (strikeBar o s) = _
    rw [one]
    exact ih fun o' m => by rw [prof]; exact within o' (List.mem_cons_of_mem _ m)

/-! ### The edge -/

/-- The state in which the clock of window `w` has taken its next edge. -/
def State.nextEdge (s : State) (w : Nat) (due : Nat) : State :=
  { s with dt := { s.dt with clocks := s.dt.clocks.set w (some due) } }

theorem clockEdge_eq {w due : Nat} {x : Window} {s : State} (running : s.dt.clocks.get w = some due)
    (window : s.prof.windows[w]? = some x) :
    clockEdge w s = forOutputs strikeBar (s.dt.sets.get w) (s.nextEdge w (due + x.reiteration * 1000)) := by
  simp only [clockEdge, running, window, State.nextEdge, Option.map_some, Option.getD_some, ms]

/-- What the edge of window `w`'s clock does once the clock stands at its moment (R49). -/
def State.edgeTaken (w : Nat) (s : State) : State :=
  if s.isReady = true ∧ s.expired (s.dt.clocks.get w) = true then clockEdge w s else s

theorem exec_clockEdge {t : Nat} {w : Fin 32} {s : State} (takes : s.takes)
    (run : ((s.at t).edgeTaken w.val).runner 0 = s.runner 0) :
    exec (.reiterationClockEdge t w) s = .next ((s.at t).edgeTaken w.val) :=
  taken_run (f := State.edgeTaken w.val) takes run

theorem State.edgeTaken_idle {w : Nat} {s : State} (idle : ¬ (s.ch.state = .ready ∧ dueAt s.now (s.dt.clocks.get w))) :
    s.edgeTaken w = s := by
  rw [← State.isReady_iff, ← expired_iff] at idle
  exact if_neg idle

theorem State.edgeTaken_due {w due : Nat} {x : Window} {s : State} (ready : s.ch.state = .ready)
    (running : s.dt.clocks.get w = some due) (isDue : due ≤ s.now) (window : s.prof.windows[w]? = some x) :
    s.edgeTaken w = forOutputs strikeBar (s.dt.sets.get w) (s.nextEdge w (due + x.reiteration * 1000)) := by
  rw [← clockEdge_eq running window]
  exact if_pos ⟨State.isReady_iff.2 ready, (expired_iff _ _).2 ⟨due, running, isDue⟩⟩

theorem State.nextEdge_alike (s : State) (w due : Nat) : s.PaAlike (s.nextEdge w due) := ⟨rfl, rfl, rfl, rfl, rfl⟩

/-- Settles O37: the frame is that of the strikes; what PA answers does not depend on the clock (`PaRequest`), and each
strike adds one entry to the action queue at most. -/
theorem clockEdgeStrikesItsSet : Obligations.ClockEdgeStrikesItsSet := by
  intro t w s takes
  refine ⟨fun idle => ?_, fun due x ready running isDue window => ?_⟩
  · have still : (s.at t).edgeTaken w.val = s.at t := State.edgeTaken_idle idle
    rw [exec_clockEdge takes (by rw [still]; rfl), still]
  · have edge : (s.at t).edgeTaken w.val =
        forOutputs strikeBar (s.dt.sets.get w.val) ((s.at t).nextEdge w.val (due + x.reiteration * 1000)) :=
      State.edgeTaken_due ready running isDue window
    have reach := forOutputs_reach strikeBar_reach (s.dt.sets.get w.val)
      ((s.at t).nextEdge w.val (due + x.reiteration * 1000))
    refine ⟨_, exec_clockEdge takes ?_, ?_⟩
    · rw [edge, reach]; rfl
    rw [edge]
    refine ⟨reach, fun sound => sound.ascending _, fun within => ?_, fun room => ?_⟩
    · rw [strikeBars_eq (x := x) (s := (s.at t).nextEdge w.val (due + x.reiteration * 1000)) _ within]
      obtain ⟨alike, recorded⟩ := PaRequest.forOutputs (fun o => paStrike_request o x.strikeWidth)
        (s.dt.sets.get w.val) (s.at t) _ ((s.at t).nextEdge_alike w.val (due + x.reiteration * 1000))
      exact ⟨alike.pa, alike.cc, recorded rfl⟩
    · obtain ⟨_, pf, called⟩ := strikeBars_room (s := (s.at t).nextEdge w.val (due + x.reiteration * 1000))
        (s.dt.sets.get w.val) (State.isReady_iff.2 ready) room
      exact ⟨pf, called⟩

end Sys2Proof.Machine
end

section
/-! TUNE (R19, R55, R56, R57): the move of the hold is one fall on the old output and then one rise on the new. -/

namespace Sys2Proof.Machine

/-! ### The deltas of a TUNE application (R19) -/

/-- R19: the count that the tuning hold has on output `o`: none outside every window. -/
def Profile.tuneKind (p : Profile) (o : Nat) : Option CountKind := (p.windowOf o).map fun w => countKind w.kind .single

/-- A single delta counts on a bar's single count, and on the demand count of every other output. -/
theorem countKind_single (k : WindowKind) : countKind k .single = if k = .bar then .single else .pipe := by
  cases k <;> rfl

theorem tuneDelta_eq (p : Profile) (o : Nat) (up : Bool) :
    tuneDelta p o up = (p.tuneKind o).toList.map fun kind => .count kind (p.windowIndex o) o up := by
  unfold tuneDelta Profile.tuneKind
  cases p.windowOf o <;> rfl

theorem Profile.tuneKind_single {p : Profile} {o : Nat} :
    p.tuneKind o = some .single ↔ (p.windowOf o).map (·.kind) = some .bar := by
  unfold Profile.tuneKind
  cases p.windowOf o with
  | none => simp
  | some w => cases k : w.kind <;> simp [countKind_single, k]

theorem Profile.tuneKind_pipe {p : Profile} {o : Nat} :
    p.tuneKind o = some .pipe ↔ (p.windowOf o).map (·.kind) ≠ none ∧ (p.windowOf o).map (·.kind) ≠ some .bar := by
  unfold Profile.tuneKind
  cases p.windowOf o with
  | none => simp
  | some w => cases k : w.kind <;> simp [countKind_single, k]

/-- R19: no TUNE counts on a reiterate count. -/
theorem Profile.tuneKind_not_reiterate (p : Profile) (o : Nat) : p.tuneKind o ≠ some .reiterate := by
  unfold Profile.tuneKind
  cases p.windowOf o with
  | none => simp
  | some w => cases k : w.kind <;> simp [countKind_single, k]

theorem tuneDelta_hits (p : Profile) (x : Nat) (up : Bool) (kind : CountKind) (o : Nat) :
    (tuneDelta p x up).countP (·.hits kind o) = if x = o ∧ p.tuneKind x = some kind then 1 else 0 := by
  rw [tuneDelta_eq]
  cases p.tuneKind x with
  | none => simp
  | some k => simp [Delta.hits, and_comm]

/-! ### The fall on the old output and the rise on the new (R56) -/

/-- The setting of the tuning hold becomes `new`, with no count moved. -/
def State.tunedTo (s : State) (new : Option Hold) : State := { s with dt := { s.dt with tuning := new } }

/-- R45, R48: the hold leaves its old output. -/
def lowerHold (old : Option Nat) (s : State) : State := (tuneDeltas s.prof old none).foldl fall s

/-- R44, R46: the hold comes to its new output. -/
def raiseHold (new : Option Nat) (s : State) : State := application false (tuneDeltas s.prof none new) s

/-- An application that begins with falls is those falls and then the application of the rest. -/
theorem application_falls_append {withhold : Bool} (l rest : List Delta) (h : ∀ d ∈ l, d.falls withhold) (s : State) :
    application withhold (l ++ rest) s = application withhold rest (l.foldl fall s) := by
  induction l generalizing s with
  | nil => rfl
  | cons d l ih =>
    rw [List.foldl_cons, ← ih (fun x m => h x (List.mem_cons_of_mem _ m)) (fall s d)]
    unfold application
    dsimp only
    rw [List.cons_append, List.foldl_cons, takeDelta_fall (h d List.mem_cons_self), fall_isReady]

theorem lowerHold_reach (old : Option Nat) (s : State) : ReachFall s (lowerHold old s) := falls_reach _ s

theorem moveHold_eq (new : Option Hold) (s : State) :
    moveHold new s =
      raiseHold (new.map (·.output)) (lowerHold (s.dt.tuning.map (·.output)) (s.tunedTo new)) := by
  have split : ∀ old new : Option Nat, tuneDeltas s.prof old new = tuneDeltas s.prof old none ++ tuneDeltas s.prof none new :=
    fun old new => by simp [tuneDeltas]
  have prof : (lowerHold (s.dt.tuning.map (·.output)) (s.tunedTo new)).prof = s.prof := by
    rw [lowerHold_reach]; rfl
  unfold raiseHold moveHold
  dsimp only
  rw [prof, split (s.dt.tuning.map (·.output)), application_falls_append _ _ (tuneDeltas_falls _ _)]
  rfl

theorem tuneDeltas_lower (p : Profile) (o : Nat) :
    tuneDeltas p (some o) none = (p.tuneKind o).toList.map fun kind => .count kind (p.windowIndex o) o false := by
  simp [tuneDeltas, tuneDelta_eq]

theorem tuneDeltas_raise (p : Profile) (o : Nat) :
    tuneDeltas p none (some o) = (p.tuneKind o).toList.map fun kind => .count kind (p.windowIndex o) o true := by
  simp [tuneDeltas, tuneDelta_eq]

/-- R56: the counts after the hold has left its old output. -/
theorem lowerHold_count (old : Option Nat) (s : State) (kind : CountKind) (o : Nat) :
    (lowerHold old s).dt.count kind o =
      s.dt.count kind o - if old = some o ∧ s.prof.tuneKind o = some kind then 1 else 0 := by
  unfold lowerHold
  rw [falls_count]
  congr 1
  cases old with
  | none => rfl
  | some x =>
    rw [show tuneDeltas s.prof (some x) none = tuneDelta s.prof x false by simp [tuneDeltas], tuneDelta_hits]
    by_cases same : x = o <;> simp [same]

theorem Delta.releases_pipe (dt : Dt) (w o : Nat) (up : Bool) :
    (Delta.count .pipe w o up).releases dt = if dt.pipe.get o = 1 then some o else none := rfl

/-- R45: in READY PA is asked to RELEASE the old output where the hold alone called it, and asked nothing otherwise. -/
theorem lowerHold_request (x : Nat) (s : State) :
    if s.prof.tuneKind x = some .pipe ∧ s.dt.pipe.get x = 1 then (paRelease x s).PaAlike (lowerHold (some x) s)
    else s.PaAlike (lowerHold (some x) s) := by
  unfold lowerHold
  rw [tuneDeltas_lower]
  cases s.prof.tuneKind x with
  | none => exact .refl s
  | some kind =>
    cases kind with
    | pipe =>
      show if _ then (paRelease x s).PaAlike (fall s (.count .pipe (s.prof.windowIndex x) x false)) else
        s.PaAlike (fall s (.count .pipe (s.prof.windowIndex x) x false))
      by_cases alone : s.dt.pipe.get x = 1
      · rw [if_pos ⟨rfl, alone⟩, fall, Delta.releases_pipe, if_pos alone]
        exact (paRelease_request x s { s with dt := (Delta.count .pipe (s.prof.windowIndex x) x false).fallDt s.dt }
          ⟨rfl, rfl, rfl, rfl, rfl⟩).1
      · rw [if_neg fun e => alone e.2, fall, Delta.releases_pipe, if_neg alone]
        exact ⟨rfl, rfl, rfl, rfl, rfl⟩
    | single => exact ⟨rfl, rfl, rfl, rfl, rfl⟩
    | reiterate => exact ⟨rfl, rfl, rfl, rfl, rfl⟩

/-- A rise of the hold's count on output `o`, with nothing asked. -/
def State.countRaised (s : State) (kind : CountKind) (o : Nat) : State :=
  match kind with
  | .pipe => { s with dt := { s.dt with pipe := s.dt.pipe.set o (s.dt.pipe.get o + 1) } }
  | .single | .reiterate => { s with dt := { s.dt with single := s.dt.single.set o (s.dt.single.get o + 1) } }

theorem raiseHold_pipe {o : Nat} {s : State} (kind : s.prof.tuneKind o = some .pipe) :
    raiseHold (some o) s =
      if s.dt.pipe.get o = 0 then paOpen o (s.countRaised .pipe o) else s.countRaised .pipe o := by
  unfold raiseHold
  rw [tuneDeltas_raise, kind]
  by_cases zero : s.dt.pipe.get o = 0
  · cases ready : s.isReady with
    | true => simp [application, takeDelta, closeApplication, ready, zero, moved, State.countRaised, actOnEffects, forOutputs]
    | false =>
      have still : paOpen o (s.countRaised .pipe o) = s.countRaised .pipe o := paEvent_notReady ready
      rw [if_pos zero, still]
      simp [application, takeDelta, closeApplication, ready, moved, State.countRaised, actOnEffects, forOutputs]
  · simp [application, takeDelta, closeApplication, zero, moved, State.countRaised, actOnEffects, forOutputs]

theorem raiseHold_single {o : Nat} {s : State} (kind : s.prof.tuneKind o = some .single) :
    raiseHold (some o) s = strikeBar o (s.countRaised .single o) := by
  unfold raiseHold
  rw [tuneDeltas_raise, kind]
  cases ready : s.isReady with
  | true =>
    simp [application, takeDelta, closeApplication, ready, AppLog.bar, moved, State.countRaised, actOnEffects, forOutputs]
  | false =>
    have still : strikeBar o (s.countRaised .single o) = s.countRaised .single o := paEvent_notReady ready
    rw [still]
    simp [application, takeDelta, closeApplication, ready, AppLog.bar, moved, State.countRaised, actOnEffects, forOutputs]

theorem raiseHold_none (s : State) : raiseHold none s = s := by
  simp [raiseHold, tuneDeltas, application, closeApplication, actOnEffects, forOutputs]

/-- An output outside every window has no count to rise. -/
theorem raiseHold_outside {o : Nat} {s : State} (kind : s.prof.tuneKind o = none) : raiseHold (some o) s = s := by
  unfold raiseHold
  rw [tuneDeltas_raise, kind]
  exact raiseHold_none s

/-! ### What a TUNE reaches -/

/-- What a move of the hold reaches: the demand and single counts, PA, CC and the fault record. -/
def ReachHold (s t : State) : Prop :=
  t = { s with
    dt := { s.dt with pipe := t.dt.pipe, single := t.dt.single }, pa := t.pa, cc := t.cc, pf := s.pf.withRecord t.pf }

theorem ReachHold.refl (s : State) : ReachHold s s := rfl

theorem ReachHold.trans {a b c : State} (h : ReachHold a b) (k : ReachHold b c) : ReachHold a c := by
  unfold ReachHold at *
  rw [k, h]

theorem ReachPa.hold {s t : State} (h : ReachPa s t) : ReachHold s t := by
  unfold ReachPa at h
  unfold ReachHold
  rw [h]

theorem countRaised_reach (kind : CountKind) (o : Nat) (s : State) : ReachHold s (s.countRaised kind o) := by
  cases kind <;> rfl

theorem lowerHold_reachHold (old : Option Nat) (s : State) : ReachHold s (lowerHold old s) := by
  cases old with
  | none => exact .refl s
  | some x =>
    unfold lowerHold
    rw [tuneDeltas_lower]
    have none := s.prof.tuneKind_not_reiterate x
    cases kind : s.prof.tuneKind x with
    | none => exact .refl s
    | some kind' =>
      have reach := fall_eq s (.count kind' (s.prof.windowIndex x) x false)
      show ReachHold s (fall s (.count kind' (s.prof.windowIndex x) x false))
      cases kind' with
      | pipe => unfold ReachHold; rw [reach]; rfl
      | single => unfold ReachHold; rw [reach]; rfl
      | reiterate => exact absurd kind none

/-- A rise at output `o` of a kind that the hold counts on. -/
theorem raiseHold_cases (o : Nat) (s : State) :
    (s.prof.tuneKind o = none ∧ raiseHold (some o) s = s) ∨
    ∃ kind v, s.prof.tuneKind o = some kind ∧ kind ≠ .reiterate ∧ v = s.countRaised kind o ∧
      ReachPa v (raiseHold (some o) s) := by
  have no := s.prof.tuneKind_not_reiterate o
  match kind : s.prof.tuneKind o with
  | none => exact .inl ⟨rfl, raiseHold_outside kind⟩
  | some .pipe =>
    refine .inr ⟨.pipe, _, rfl, by simp, rfl, ?_⟩
    rw [raiseHold_pipe kind]
    split
    · exact paOpen_reach _ _
    · exact .refl _
  | some .single =>
    refine .inr ⟨.single, _, rfl, by simp, rfl, ?_⟩
    rw [raiseHold_single kind]
    exact strikeBar_reach _ _
  | some .reiterate => exact absurd kind no

theorem raiseHold_reach (new : Option Nat) (s : State) : ReachHold s (raiseHold new s) := by
  cases new with
  | none => rw [raiseHold_none]; exact .refl s
  | some o =>
    obtain ⟨_, e⟩ | ⟨kind, v, _, _, rfl, reach⟩ := raiseHold_cases o s
    · rw [e]; exact .refl s
    · exact (countRaised_reach kind o s).trans reach.hold

theorem countRaised_count {kind : CountKind} (no : kind ≠ .reiterate) (o : Nat) (s : State) (kind' : CountKind) (x : Nat) :
    (s.countRaised kind o).dt.count kind' x = s.dt.count kind' x + if o = x ∧ kind = kind' then 1 else 0 := by
  cases kind with
  | pipe => cases kind' <;> simp [State.countRaised, Dt.count, Table.get_set, eq_comm (a := o)]; split <;> simp_all
  | single => cases kind' <;> simp [State.countRaised, Dt.count, Table.get_set, eq_comm (a := o)]; split <;> simp_all
  | reiterate => exact absurd rfl no

theorem raiseHold_count (new : Option Nat) (s : State) (kind : CountKind) (o : Nat) :
    (raiseHold new s).dt.count kind o =
      s.dt.count kind o + if new = some o ∧ s.prof.tuneKind o = some kind then 1 else 0 := by
  cases new with
  | none => rw [raiseHold_none]; simp
  | some x =>
    obtain ⟨none, e⟩ | ⟨kind', v, named, no, rfl, reach⟩ := raiseHold_cases x s
    · rw [e]
      by_cases same : x = o
      · subst same; simp [none]
      · simp [same]
    · have dt : (raiseHold (some x) s).dt = (s.countRaised kind' x).dt := by rw [reach]
      rw [dt, countRaised_count no]
      congr 1
      by_cases same : x = o
      · subst same; simp [named]
      · simp [same]

/-! ### What a move of the hold asks of PA (R45, R46, R57) -/

/-- PA, CC and the fault record are as in `t`. -/
def State.asksAs (s t : State) : Prop := s.pa = t.pa ∧ s.cc = t.cc ∧ s.pf = t.pf

theorem PaRequest.asksAs {f : State → State} (h : PaRequest f) {s t : State} (alike : s.PaAlike t) (pf : t.pf = s.pf) :
    (f t).asksAs (f s) :=
  ⟨(h s t alike).1.pa, (h s t alike).1.cc, (h s t alike).2 pf⟩

theorem strikeBar_asksAs {o : Nat} {s t : State} (alike : s.PaAlike t) (pf : t.pf = s.pf) :
    (strikeBar o t).asksAs (strikeBar o s) := by
  unfold strikeBar
  rw [alike.prof]
  exact (paStrike_request o _).asksAs alike pf

theorem countRaised_alike (kind : CountKind) (o : Nat) (s : State) : s.PaAlike (s.countRaised kind o) := by
  cases kind <;> exact ⟨rfl, rfl, rfl, rfl, rfl⟩

theorem countRaised_pf (kind : CountKind) (o : Nat) (s : State) : (s.countRaised kind o).pf = s.pf := by
  cases kind <;> rfl

/-- What the rise at `new` asks in READY of a PA that stands as in `first`. -/
theorem raiseHold_asks {new : Option Nat} {s first : State} (alike : first.PaAlike s) (pf : s.pf = first.pf) :
    let opens := ∃ o, new = some o ∧ s.isReady = true ∧ s.prof.tuneKind o = some .pipe ∧ s.dt.pipe.get o = 0
    let strikes := ∃ o, new = some o ∧ s.isReady = true ∧ s.prof.tuneKind o = some .single
    (opens → ∀ o, new = some o → (raiseHold new s).asksAs (paOpen o first)) ∧
    (strikes → ∀ o, new = some o → (raiseHold new s).asksAs (strikeBar o first)) ∧
    (¬ opens → ¬ strikes → (raiseHold new s).asksAs first) := by
  have counted : ∀ kind o, first.PaAlike (s.countRaised kind o) := fun kind o => alike.trans (countRaised_alike kind o s)
  have recorded : ∀ kind o, (s.countRaised kind o).pf = first.pf := fun kind o => (countRaised_pf kind o s).trans pf
  have idle : ∀ v, first.PaAlike v → v.pf = first.pf → v.asksAs first := fun v h k => ⟨h.pa, h.cc, k⟩
  refine ⟨?opens, ?strikes, fun opens strikes => ?neither⟩
  case opens =>
    rintro ⟨o, rfl, _, kind, zero⟩ o' e
    cases e
    rw [raiseHold_pipe kind, if_pos zero]
    exact (paOpen_request o).asksAs (counted _ _) (recorded _ _)
  case strikes =>
    rintro ⟨o, rfl, _, kind⟩ o' e
    cases e
    rw [raiseHold_single kind]
    exact strikeBar_asksAs (counted _ _) (recorded _ _)
  case neither =>
    cases new with
    | none => rw [raiseHold_none]; exact idle s alike pf
    | some o =>
      match kind : s.prof.tuneKind o with
      | none => rw [raiseHold_outside kind]; exact idle s alike pf
      | some .pipe =>
        rw [raiseHold_pipe kind]
        split
        · next zero =>
          have ready : s.isReady = false := by
            cases ready : s.isReady with
            | true => exact absurd ⟨o, rfl, ready, kind, zero⟩ opens
            | false => rfl
          have still : paOpen o (s.countRaised .pipe o) = s.countRaised .pipe o := paEvent_notReady ready
          rw [still]
          exact idle _ (counted _ _) (recorded _ _)
        · exact idle _ (counted _ _) (recorded _ _)
      | some .single =>
        have ready : s.isReady = false := by
          cases ready : s.isReady with
          | true => exact absurd ⟨o, rfl, ready, kind⟩ strikes
          | false => rfl
        have still : strikeBar o (s.countRaised .single o) = s.countRaised .single o := paEvent_notReady ready
        rw [raiseHold_single kind, still]
        exact idle _ (counted _ _) (recorded _ _)
      | some .reiterate => exact absurd kind (s.prof.tuneKind_not_reiterate o)

/-! ### The move -/

theorem moveHold_reachHold (new : Option Hold) (s : State) : ReachHold (s.tunedTo new) (moveHold new s) := by
  rw [moveHold_eq]
  exact (lowerHold_reachHold _ _).trans (raiseHold_reach _ _)

theorem lowerHold_prof (old : Option Nat) (s : State) : (lowerHold old s).prof = s.prof := by
  rw [lowerHold_reach]; rfl

theorem lowerHold_isReady (old : Option Nat) (s : State) : (lowerHold old s).isReady = s.isReady := by
  rw [lowerHold_reach]; rfl

theorem lowerHold_pf (old : Option Nat) (s : State) : (lowerHold old s).pf = s.pf := by
  rw [lowerHold_reach]

/-- R56: one less on the old output's count, and then one more on the new one's. -/
theorem moveHold_count (new : Option Hold) (s : State) (kind : CountKind) (o : Nat) :
    (moveHold new s).dt.count kind o =
      (s.dt.count kind o - if s.dt.tuning.map (·.output) = some o ∧ s.prof.tuneKind o = some kind then 1 else 0) +
        if new.map (·.output) = some o ∧ s.prof.tuneKind o = some kind then 1 else 0 := by
  rw [moveHold_eq, raiseHold_count, lowerHold_count, lowerHold_prof]
  rfl

/-- R45, R57: the hold alone calls its old output. -/
def State.holdLeaves (s : State) : Prop :=
  s.ch.state = .ready ∧ ∃ x, s.dt.tuning.map (·.output) = some x ∧ s.prof.tuneKind x = some .pipe ∧ s.dt.pipe.get x = 1

/-- R45: what PA is asked when the hold leaves its old output. -/
theorem lowerHold_asks {s t first : State} (same : s.PaAlike t) (dt : t.dt.pipe = s.dt.pipe)
    (leaves : s.holdLeaves → ∃ x, s.dt.tuning.map (·.output) = some x ∧ first = paRelease x s)
    (stays : ¬ s.holdLeaves → first = s) : first.PaAlike (lowerHold (s.dt.tuning.map (·.output)) t) := by
  by_cases alone : s.holdLeaves
  · obtain ⟨x, old, rfl⟩ := leaves alone
    obtain ⟨_, x', old', kind, one⟩ := alone
    obtain rfl : x' = x := by rw [old] at old'; exact (Option.some.inj old').symm
    have request := lowerHold_request x' t
    rw [same.prof, dt, if_pos ⟨kind, one⟩] at request
    rw [old]
    exact (paRelease_request x' s t same).1.trans request
  · rw [stays alone]
    cases old : s.dt.tuning.map (·.output) with
    | none => exact same
    | some x =>
      have request := lowerHold_request x t
      rw [same.prof, dt] at request
      split at request
      · next called =>
        have ready : t.isReady = false := by
          cases ready : t.isReady with
          | true => exact absurd ⟨State.isReady_iff.1 (same.ready.symm.trans ready), x, old, called⟩ alone
          | false => rfl
        rw [paRelease_notReady ready] at request
        exact same.trans request
      · exact same.trans request

/-- R45, R46, R57: what a move of the hold to another output asks of PA: the RELEASE of the old output comes first. -/
theorem moveHold_asks {new : Option Hold} {s first : State}
    (other : ∀ o, new.map (·.output) = some o → s.dt.tuning.map (·.output) ≠ some o)
    (leaves : s.holdLeaves → ∃ x, s.dt.tuning.map (·.output) = some x ∧ first = paRelease x s)
    (stays : ¬ s.holdLeaves → first = s) :
    let opens := ∃ o, new.map (·.output) = some o ∧ s.isReady = true ∧ s.prof.tuneKind o = some .pipe ∧ s.dt.pipe.get o = 0
    let strikes := ∃ o, new.map (·.output) = some o ∧ s.isReady = true ∧ s.prof.tuneKind o = some .single
    (opens → ∀ o, new.map (·.output) = some o → (moveHold new s).asksAs (paOpen o first)) ∧
    (strikes → ∀ o, new.map (·.output) = some o → (moveHold new s).asksAs (strikeBar o first)) ∧
    (¬ opens → ¬ strikes → (moveHold new s).asksAs first) := by
  have alike : first.PaAlike (lowerHold (s.dt.tuning.map (·.output)) (s.tunedTo new)) :=
    lowerHold_asks ⟨rfl, rfl, rfl, rfl, rfl⟩ rfl leaves stays
  have firstPf : first.pf = s.pf := by
    by_cases alone : s.holdLeaves
    · obtain ⟨x, _, rfl⟩ := leaves alone
      rw [paRelease_eq]
    · rw [stays alone]
  have asks := raiseHold_asks (new := new.map (·.output)) alike ((lowerHold_pf _ _).trans firstPf.symm)
  have zero : ∀ o, new.map (·.output) = some o →
      (lowerHold (s.dt.tuning.map (·.output)) (s.tunedTo new)).dt.pipe.get o = s.dt.pipe.get o := fun o e =>
    (lowerHold_count _ _ .pipe o).trans (by rw [if_neg fun h => other o e h.1]; rfl)
  have opens : (∃ o, new.map (·.output) = some o ∧ (lowerHold (s.dt.tuning.map (·.output)) (s.tunedTo new)).isReady = true ∧
      (lowerHold (s.dt.tuning.map (·.output)) (s.tunedTo new)).prof.tuneKind o = some .pipe ∧
      (lowerHold (s.dt.tuning.map (·.output)) (s.tunedTo new)).dt.pipe.get o = 0) ↔
      ∃ o, new.map (·.output) = some o ∧ s.isReady = true ∧ s.prof.tuneKind o = some .pipe ∧ s.dt.pipe.get o = 0 := by
    rw [lowerHold_isReady, lowerHold_prof]
    exact exists_congr fun o => and_congr_right fun e => by rw [zero o e]; rfl
  dsimp only at asks ⊢
  rw [opens, lowerHold_isReady, lowerHold_prof, ← moveHold_eq] at asks
  exact asks

/-! ### The frame -/

/-- What a TUNE frame for station `b` does from acceptance onward. -/
def State.tuneTaken (a b : Station) (output : BitVec 16) (s : State) : State :=
  if b = s.pf.station then takeTune a output s else s

theorem exec_tune {t : Nat} {a b : Station} {output : BitVec 16} {s : State} (serves : s.serves)
    (stands : ((s.hearing t a).tuneTaken a b output).runner 0 = s.runner 0) :
    exec (.tune t a b output) s = .next ((s.hearing t a).tuneTaken a b output) := by
  have taken : accepted (State.tuneTaken a b output) (s.hearing t a) = (s.hearing t a).tuneTaken a b output :=
    accepted_run serves.2
  rw [← taken]
  exact frame_run (f := accepted (State.tuneTaken a b output)) serves.1 (by rw [taken]; exact stands)

theorem State.holdable_iff (s : State) (o : Nat) :
    s.holdable o = true ↔ o ≤ 1535 ∧
      ((s.prof.windowOf o).map (·.kind) = some .pipe ∨ (s.prof.windowOf o).map (·.kind) = some .bar) := by
  unfold State.holdable
  cases s.prof.windowOf o with
  | none => simp
  | some w => simp

theorem takeTune_end (a : Station) {output : BitVec 16} {s : State} (h : output.toNat = 65535) :
    takeTune a output s = if s.dt.tuning = none then s else moveHold none s := by
  unfold takeTune endHold
  rw [if_pos h]

theorem takeTune_move (a : Station) {output : BitVec 16} {s : State} (holdable : s.holdable output.toNat = true) :
    takeTune a output s =
      if s.dt.tuning.map (·.output) = some output.toNat then s.tunedTo (some { output := output.toNat, setter := a })
      else moveHold (some { output := output.toNat, setter := a }) s := by
  have low := ((s.holdable_iff _).1 holdable).1
  unfold takeTune
  rw [if_neg (by omega), if_pos holdable]
  rfl

theorem takeTune_refused (a : Station) {output : BitVec 16} {s : State} (h : output.toNat ≠ 65535)
    (no : ¬ s.holdable output.toNat = true) : takeTune a output s = s := by
  unfold takeTune
  rw [if_neg h, if_neg no]

/-- The setting that a TUNE makes. -/
def tuneSetting (a : Station) (output : BitVec 16) : Option Hold :=
  if output.toNat = 65535 then none else some { output := output.toNat, setter := a }

theorem tuneSetting_output (a : Station) (output : BitVec 16) :
    (tuneSetting a output).map (·.output) = if output.toNat = 65535 then none else some output.toNat := by
  unfold tuneSetting
  split <;> rfl

/-- Settles O20: a TUNE that moves the hold is a fall on the old output (`lowerHold`) and then a rise on the new one
(`raiseHold`). -/
theorem tuneMovesTheHold : Obligations.TuneMovesTheHold := by
  intro t a b output s serves o old kindOf holdable
  have canHold : (s.hearing t a).holdable output.toNat = true ↔ holdable := State.holdable_iff _ _
  refine ⟨fun idle => ?_, fun here holds same => ?_, fun here moves => ?_⟩
  · have still : (s.hearing t a).tuneTaken a b output = s.hearing t a := by
      unfold State.tuneTaken
      split
      · next here =>
        obtain away | ⟨notEnd, no⟩ | ⟨ends, none⟩ := idle
        · exact absurd here away
        · exact takeTune_refused a notEnd (by rw [canHold]; exact no)
        · rw [takeTune_end a ends]
          exact if_pos (Option.map_eq_none_iff.1 none)
      · rfl
    rw [exec_tune serves (by rw [still]; rfl), still]
  · have resets : (s.hearing t a).tuneTaken a b output =
        (s.hearing t a).tunedTo (some { output := o, setter := a }) := by
      refine (if_pos here).trans ?_
      rw [takeTune_move a (canHold.2 holds)]
      exact if_pos same
    rw [exec_tune serves (by rw [resets]; rfl), resets]
    rfl
  · have moved : (s.hearing t a).tuneTaken a b output = moveHold (tuneSetting a output) (s.hearing t a) := by
      refine (if_pos here).trans ?_
      obtain ⟨holds, other⟩ | ⟨ends, held⟩ := moves
      · have notEnd : output.toNat ≠ 65535 := fun e => by have := holds.1; omega
        rw [takeTune_move a (canHold.2 holds), tuneSetting, if_neg notEnd]
        exact if_neg other
      · rw [takeTune_end a ends, tuneSetting, if_pos ends]
        exact if_neg fun none => held (Option.map_eq_none_iff.2 none)
    have reach := moveHold_reachHold (tuneSetting a output) (s.hearing t a)
    have count := moveHold_count (tuneSetting a output) (s.hearing t a)
    have tuning : (moveHold (tuneSetting a output) (s.hearing t a)).dt.tuning = tuneSetting a output := by
      rw [reach]; rfl
    have named : ∀ x, (tuneSetting a output).map (·.output) = some x ↔ x = o ∧ o ≠ 65535 := fun x => by
      rw [tuneSetting_output]
      split
      · next ends => simp [show o = 65535 from ends]
      · next notEnd => exact ⟨fun e => ⟨(Option.some.inj e).symm, notEnd⟩, fun e => by rw [e.1]⟩
    have kind : o ≠ 65535 → (kindOf o = some .pipe ∨ kindOf o = some .bar) ∧ old ≠ some o := fun notEnd => by
      obtain ⟨holds, other⟩ | ⟨ends, _⟩ := moves
      · exact ⟨holds.2, other⟩
      · exact absurd ends notEnd
    have pipe : o ≠ 65535 → ((s.hearing t a).prof.tuneKind o = some .pipe ↔ kindOf o = some .pipe) := fun notEnd => by
      refine Profile.tuneKind_pipe.trans ⟨fun h => ((kind notEnd).1).resolve_right h.2, fun h => ?_⟩
      show kindOf o ≠ none ∧ kindOf o ≠ some .bar
      rw [h]
      exact ⟨by simp, by simp⟩
    refine ⟨_, exec_tune serves (by rw [moved, reach]; rfl), ?_⟩
    rw [moved]
    refine ⟨tuning, fun x => ?pipes, fun x => ?singles, ?application, fun first leaves stays => ?requests, ?frame⟩
    case pipes =>
      refine (count .pipe x).trans (congrArg₂ _ (congrArg _ (if_congr ?_ rfl rfl)) (if_congr ?_ rfl rfl))
      · exact and_congr_right fun _ => Profile.tuneKind_pipe
      · rw [named, and_assoc]
        refine and_congr_right fun e => and_congr_right fun notEnd => ?_
        rw [e]
        exact pipe notEnd
    case singles =>
      refine (count .single x).trans (congrArg₂ _ (congrArg _ (if_congr ?_ rfl rfl)) (if_congr ?_ rfl rfl))
      · exact and_congr_right fun _ => Profile.tuneKind_single
      · rw [named, and_assoc]
        exact and_congr_right fun _ => and_congr_right fun _ => Profile.tuneKind_single
    case application =>
      rw [tuning]
      dsimp only
      rw [← tuneSetting_output a output]
      rfl
    case requests =>
      have leave : (s.hearing t a).holdLeaves ↔ s.ch.state = .ready ∧
          ∃ x, old = some x ∧ kindOf x ≠ none ∧ kindOf x ≠ some .bar ∧ s.dt.pipe.get x = 1 :=
        and_congr_right fun _ => exists_congr fun x => and_congr_right fun _ =>
          (and_congr_left fun _ => Profile.tuneKind_pipe).trans and_assoc
      obtain ⟨opens, strikes, neither⟩ := moveHold_asks (new := tuneSetting a output) (s := s.hearing t a) (first := first)
        (fun x e => by
          obtain ⟨rfl, notEnd⟩ := (named x).1 e
          exact (kind notEnd).2)
        (fun h => leaves (leave.1 h)) (fun h => stays fun k => h (leave.2 k))
      have ready : (s.hearing t a).isReady = true ↔ s.ch.state = .ready := State.isReady_iff
      refine ⟨fun ⟨inReady, notEnd, called, zero⟩ => ?_, fun ⟨inReady, notEnd, called⟩ => ?_, fun notOpens notStrikes => ?_⟩
      · have new := (named o).2 ⟨rfl, notEnd⟩
        exact opens ⟨o, new, ready.2 inReady, (pipe notEnd).2 called, zero⟩ o new
      · have new := (named o).2 ⟨rfl, notEnd⟩
        have struck := strikes ⟨o, new, ready.2 inReady, Profile.tuneKind_single.2 called⟩ o new
        have prof : first.prof = s.prof := by
          by_cases alone : (s.hearing t a).holdLeaves
          · obtain ⟨x, _, rfl⟩ := leaves (leave.1 alone)
            rw [paRelease_eq]
            rfl
          · rw [stays fun h => alone (leave.2 h)]
            rfl
        rw [strikeBar, prof] at struck
        exact struck
      · refine neither ?_ ?_
        · rintro ⟨x, new, inReady, called, zero⟩
          obtain ⟨rfl, notEnd⟩ := (named x).1 new
          exact notOpens ⟨ready.1 inReady, notEnd, (pipe notEnd).1 called, zero⟩
        · rintro ⟨x, new, inReady, called⟩
          obtain ⟨rfl, notEnd⟩ := (named x).1 new
          exact notStrikes ⟨ready.1 inReady, notEnd, Profile.tuneKind_single.1 called⟩
    case frame =>
      rw [tuning]
      exact reach

end Sys2Proof.Machine
end

section
/-! The order of RE's deltas (R8, R13, R15 to R18): what an entry delivers for a key, and the given list of an
application, in ascending entry index and then ascending key. -/

namespace Sys2Proof.Machine

/-! ### What an entry delivers for a key -/

/-- R8: the touch condition of an entry; a TREM entry has none. -/
def StopEntry.condition (e : StopEntry) : Option TouchCondition :=
  match e.kind with
  | .voice _ _ _ _ _ c | .trap _ c => some c
  | .trem _ => none

theorem TouchCondition.holds_iff_met (c : TouchCondition) (touch : Touch) (pizz : Bool) :
    c.holds touch pizz = true ↔ c.met touch pizz := by
  cases c <;> cases touch <;> simp [TouchCondition.holds, TouchCondition.met]

theorem StopEntry.holds_iff (e : StopEntry) (touch : Touch) (pizz : Bool) :
    e.holds touch pizz = true ↔ ∃ c, e.condition = some c ∧ c.met touch pizz := by
  unfold StopEntry.holds StopEntry.condition
  cases e.kind <;> simp [TouchCondition.holds_iff_met]

theorem countKind_eq (k : WindowKind) (mode : StrikeMode) :
    countKind k mode = if k ≠ .bar then .pipe else if mode = .single then .single else .reiterate := by
  cases k <;> cases mode <;> rfl

/-- R15, R17: an entry delivers at most one delta for a key, and what it delivers depends on its own condition alone. -/
theorem StopEntry.keyDelta_cases (p : Profile) (e : StopEntry) (k : Nat) :
    (∀ up, e.keyDelta p k up = []) ∧ (∀ c up x, ¬ p.delivers e c k up x) ∨
    ∃ c, e.condition = some c ∧ ∃ given : Bool → Delta, (∀ up, e.keyDelta p k up = [given up]) ∧
      ∀ c' up x, p.delivers e c' k up x ↔ c' = c ∧ x = given up := by
  unfold StopEntry.keyDelta StopEntry.condition Profile.delivers
  cases e.kind with
  | trem g => simp
  | trap f c => exact .inr ⟨c, rfl, fun up => .effect f up, fun _ => rfl, fun c' up x => by simp [eq_comm]⟩
  | voice wn offset mode top bottom c =>
    dsimp only
    cases window : p.windows[wn]? with
    | none => exact .inl ⟨fun _ => rfl, fun c up x => by simp_all⟩
    | some w =>
      cases output : resolve (p.baseNote e.division) k offset w top bottom with
      | none => simp [window, output]
      | some o =>
        refine .inr ⟨c, rfl, fun up => .count (countKind w.kind mode) wn o up, fun _ => by simp [output], fun c' up x => ?_⟩
        simp only [EntryKind.voice.injEq, countKind_eq, reduceCtorEq, false_and, exists_false, or_false]
        constructor
        · rintro ⟨_, _, _, _, _, w', o', ⟨rfl, rfl, rfl, rfl, rfl, rfl⟩, hw, ho, rfl⟩
          obtain rfl : w = w' := Option.some.inj (window.symm.trans hw)
          obtain rfl : o = o' := Option.some.inj (output.symm.trans ho)
          exact ⟨rfl, rfl⟩
        · rintro ⟨rfl, rfl⟩
          exact ⟨_, _, _, _, _, w, o, ⟨rfl, rfl, rfl, rfl, rfl, rfl⟩, window, output, rfl⟩

theorem StopEntry.keyDelta_length (p : Profile) (e : StopEntry) (k : Nat) (up : Bool) :
    (e.keyDelta p k up).length ≤ 1 := by
  obtain ⟨none, _⟩ | ⟨_, _, given, one, _⟩ := e.keyDelta_cases p k
  · simp [none]
  · simp [one]

/-- R15: what an entry delivers, said of its condition. -/
theorem StopEntry.mem_keyDelta {p : Profile} {e : StopEntry} {k : Nat} {up : Bool} {x : Delta} :
    x ∈ e.keyDelta p k up ↔ ∃ c, e.condition = some c ∧ p.delivers e c k up x := by
  obtain ⟨none, no⟩ | ⟨c, cond, given, one, iff⟩ := e.keyDelta_cases p k
  · simp [none, no]
  · simp [one, iff, cond]

theorem Profile.delivers.condition {p : Profile} {e : StopEntry} {c : TouchCondition} {k : Nat} {up : Bool} {x : Delta}
    (h : p.delivers e c k up x) : e.condition = some c := by
  obtain ⟨_, no⟩ | ⟨c', cond, given, _, iff⟩ := e.keyDelta_cases p k
  · exact absurd h (no _ _ _)
  · rw [((iff _ _ _).1 h).1, cond]

/-- An entry that delivers where its condition satisfies `judged`. -/
theorem StopEntry.mem_keyDelta_and {p : Profile} {e : StopEntry} {k : Nat} {up : Bool} {x : Delta}
    {judged : TouchCondition → Prop} :
    (x ∈ e.keyDelta p k up ∧ ∃ c, e.condition = some c ∧ judged c) ↔ ∃ c, judged c ∧ p.delivers e c k up x := by
  rw [StopEntry.mem_keyDelta]
  constructor
  · rintro ⟨⟨c, cond, gives⟩, c', cond', holds⟩
    obtain rfl : c = c' := Option.some.inj (cond.symm.trans cond')
    exact ⟨c, holds, gives⟩
  · rintro ⟨c, holds, gives⟩
    exact ⟨⟨c, gives.condition, gives⟩, c, gives.condition, holds⟩

/-! ### The given list -/

/-- What each entry gives, key by key, with its index. -/
def givenList (entries : List StopEntry) (f : StopEntry → List (Nat × Delta)) : List (Nat × Nat × Delta) :=
  entries.zipIdx.flatMap fun e => (f e.1).map fun x => (e.2, x.1, x.2)

theorem givenList_deltas (entries : List StopEntry) (f : StopEntry → List (Nat × Delta)) :
    (givenList entries f).map (·.2.2) = (entries.map fun e => (f e).map (·.2)).flatten := by
  have along : ∀ n, ((entries.zipIdx n).flatMap fun e => (f e.1).map fun x => (e.2, x.1, x.2)).map (·.2.2) =
      (entries.map fun e => (f e).map (·.2)).flatten := by
    induction entries with
    | nil => exact fun _ => rfl
    | cons e rest ih =>
      intro n
      rw [List.zipIdx_cons, List.flatMap_cons, List.map_append, ih]
      simp [Function.comp_def]
  exact along 0

theorem mem_givenList {entries : List StopEntry} {f : StopEntry → List (Nat × Delta)} {i k : Nat} {x : Delta} :
    (i, k, x) ∈ givenList entries f ↔ ∃ e, entries[i]? = some e ∧ (k, x) ∈ f e := by
  unfold givenList
  simp only [List.mem_flatMap, List.mem_map, Prod.exists, Prod.mk.injEq, List.mem_zipIdx_iff_getElem?]
  constructor
  · rintro ⟨e, _, at_, _, _, m, rfl, rfl, rfl⟩
    exact ⟨e, at_, m⟩
  · rintro ⟨e, at_, m⟩
    exact ⟨e, i, at_, k, x, m, rfl, rfl, rfl⟩

/-- R13: entries in ascending index, each with its keys ascending, give their deltas in entry order. -/
theorem inEntryOrder_of_keys {entries : List StopEntry} {f : StopEntry → List (Nat × Delta)}
    (ascending : ∀ e, (f e).Pairwise (fun x y => x.1 < y.1)) :
    inEntryOrder (fun i k x => ∃ e, entries[i]? = some e ∧ (k, x) ∈ f e)
      (entries.map fun e => (f e).map (·.2)).flatten := by
  refine ⟨givenList entries f, givenList_deltas entries f, ?_, fun i k x => mem_givenList⟩
  refine List.pairwise_flatMap.2 ⟨fun e _ => ?_, ?_⟩
  · exact List.pairwise_map.2 ((ascending e.1).imp fun h => .inr ⟨rfl, h⟩)
  · have indices : (entries.zipIdx.map (·.2)).Pairwise (· < ·) := by
      rw [List.zipIdx_map_snd]
      exact List.pairwise_lt_range'
    refine (List.pairwise_map.1 indices).imp fun h x mx y my => ?_
    obtain ⟨_, _, rfl⟩ := List.mem_map.1 mx
    obtain ⟨_, _, rfl⟩ := List.mem_map.1 my
    exact .inl h

theorem inEntryOrder.congr {gives gives' : Nat → Nat → Delta → Prop} {deltas : List Delta}
    (h : inEntryOrder gives deltas) (same : ∀ i k x, gives i k x ↔ gives' i k x) : inEntryOrder gives' deltas := by
  obtain ⟨given, eq, order, iff⟩ := h
  exact ⟨given, eq, order, fun i k x => (iff i k x).trans (same i k x)⟩

theorem pairwise_of_length {α : Type} {r : α → α → Prop} {l : List α} (h : l.length ≤ 1) : l.Pairwise r := by
  match l, h with
  | [], _ => exact .nil
  | [x], _ => exact List.pairwise_singleton _ _

/-- R13: at most one delta of each entry for the one key of a merged change or an expiry. -/
theorem inEntryOrder_of_key {entries : List StopEntry} (k : Nat) {f : StopEntry → List Delta}
    (one : ∀ e, (f e).length ≤ 1) :
    inEntryOrder (fun i k' x => k' = k ∧ ∃ e, entries[i]? = some e ∧ x ∈ f e) (entries.map f).flatten := by
  have order := inEntryOrder_of_keys (entries := entries) (f := fun e => (f e).map fun x => (k, x)) fun e =>
    pairwise_of_length (by rw [List.length_map]; exact one e)
  simp only [List.map_map, Function.comp_def, List.map_id'] at order
  refine order.congr fun i k' x => ?_
  simp only [List.mem_map, Prod.mk.injEq]
  constructor
  · rintro ⟨e, at_, y, m, rfl, rfl⟩; exact ⟨rfl, e, at_, m⟩
  · rintro ⟨rfl, e, at_, m⟩; exact ⟨e, at_, x, m, rfl, rfl⟩

/-! ### The deltas of a merged change, a stop change and a pizzicato expiry -/

/-- R15: what an entry gives when its condition is judged `was` before and `is` after. -/
def StopEntry.changed (p : Profile) (e : StopEntry) (k : Nat) (was is : Bool) : List Delta :=
  if was = is then [] else e.keyDelta p k is

theorem mergedDeltas_eq (p : Profile) (on : Table Bool) (d k : Nat) (old new : Touch) (before after : Bool) :
    mergedDeltas p on d k old new before after = (p.entries.map fun e =>
      if e.division = d ∧ on.get e.stop = true then e.changed p k (e.holds old before) (e.holds new after) else []).flatten := by
  unfold mergedDeltas
  congr 2
  funext e
  split
  · cases e.holds old before <;> cases e.holds new after <;> rfl
  · rfl

theorem StopEntry.changed_length (p : Profile) (e : StopEntry) (k : Nat) (was is : Bool) :
    (e.changed p k was is).length ≤ 1 := by
  unfold StopEntry.changed
  split
  · exact Nat.zero_le 1
  · exact e.keyDelta_length p k is

theorem StopEntry.holds_of_condition {e : StopEntry} {c : TouchCondition} (h : e.condition = some c) (touch : Touch)
    (pizz : Bool) : e.holds touch pizz = true ↔ c.met touch pizz := by
  rw [e.holds_iff, h]
  simp

/-- R15: what an entry gives when its condition changes with the merged touch and the pizzicato entry. -/
theorem StopEntry.mem_changed {p : Profile} {e : StopEntry} {k : Nat} {old new : Touch} {before after : Bool} {x : Delta} :
    x ∈ e.changed p k (e.holds old before) (e.holds new after) ↔ ∃ c up,
      (if up = true then ¬ c.met old before ∧ c.met new after else c.met old before ∧ ¬ c.met new after) ∧
        p.delivers e c k up x := by
  unfold StopEntry.changed
  constructor
  · intro m
    split at m
    · cases m
    · next differ =>
      obtain ⟨c, cond, gives⟩ := StopEntry.mem_keyDelta.1 m
      refine ⟨c, e.holds new after, ?_, gives⟩
      rw [← StopEntry.holds_of_condition cond, ← StopEntry.holds_of_condition cond]
      cases was : e.holds old before <;> cases is : e.holds new after <;> simp_all
  · rintro ⟨c, up, change, gives⟩
    have cond := gives.condition
    rw [← StopEntry.holds_of_condition cond, ← StopEntry.holds_of_condition cond] at change
    have is : e.holds new after = up := by cases up <;> simp_all
    rw [is, if_neg (by cases up <;> simp_all)]
    exact StopEntry.mem_keyDelta.2 ⟨c, cond, gives⟩

theorem mergedDeltas_order (p : Profile) (on : Table Bool) (d k : Nat) (old new : Touch) (before after : Bool) :
    inEntryOrder (fun i k' x => k' = k ∧ ∃ e c up, p.entries[i]? = some e ∧ e.division = d ∧ on.get e.stop = true ∧
      (if up = true then ¬ c.met old before ∧ c.met new after else c.met old before ∧ ¬ c.met new after) ∧
      p.delivers e c k up x) (mergedDeltas p on d k old new before after) := by
  rw [mergedDeltas_eq]
  refine (inEntryOrder_of_key k fun e => ?_).congr fun i k' x => and_congr_right fun _ => exists_congr fun e => ?_
  · split
    · exact e.changed_length p k _ _
    · exact Nat.zero_le 1
  · rw [List.mem_ite_nil_right, StopEntry.mem_changed]
    constructor
    · rintro ⟨at_, ⟨div, isOn⟩, c, up, change, gives⟩
      exact ⟨c, up, at_, div, isOn, change, gives⟩
    · rintro ⟨c, up, at_, div, isOn, change, gives⟩
      exact ⟨at_, ⟨div, isOn⟩, c, up, change, gives⟩

theorem pizzDeltas_order (p : Profile) (on : Table Bool) (d k : Nat) :
    inEntryOrder (fun i k' x => k' = k ∧ ∃ e, p.entries[i]? = some e ∧ e.division = d ∧ on.get e.stop = true ∧
      p.delivers e .pizz k false x ∧ ∀ f, e.kind ≠ .trap f .pizz) (pizzDeltas p on d k) := by
  unfold pizzDeltas
  refine (inEntryOrder_of_key k fun e => ?_).congr fun i k' x => and_congr_right fun _ => exists_congr fun e => ?_
  · split
    · exact e.keyDelta_length p k _
    · exact Nat.zero_le 1
  · rw [List.mem_ite_nil_right, StopEntry.mem_keyDelta]
    have isPizz : (e.isPizz = true ∧ ∃ c, e.condition = some c ∧ p.delivers e c k false x) ↔
        p.delivers e .pizz k false x ∧ ∀ f, e.kind ≠ .trap f .pizz := by
      constructor
      · rintro ⟨voice, c, cond, gives⟩
        obtain ⟨wn, offset, mode, top, bottom, kind, _⟩ := StopEntry.keyDelta_pizz p voice k
        obtain rfl : .pizz = c := by simpa [StopEntry.condition, kind] using cond
        exact ⟨gives, by simp [kind]⟩
      · rintro ⟨gives, voice⟩
        refine ⟨?_, .pizz, gives.condition, gives⟩
        have cond := gives.condition
        unfold StopEntry.condition at cond
        unfold StopEntry.isPizz
        cases kind : e.kind <;> simp_all
    rw [← isPizz]
    tauto

/-- R17: what an entry of stop `n` gives at a stop change, key by key; a TREM entry gives the one delta of its group. -/
def StopEntry.turned (p : Profile) (touch : Nat → Nat → Touch) (pizz : Nat → Nat → Bool) (up : Bool) (e : StopEntry) :
    List (Nat × Delta) :=
  match e.kind with
  | .trem g => [(0, .group g up)]
  | .voice _ _ _ _ _ _ | .trap _ _ =>
    (List.range (p.keyCount e.division)).flatMap fun k =>
      if e.holds (touch e.division k) (pizz e.division k) then (e.keyDelta p k up).map fun x => (k, x) else []

theorem stopDeltas_eq (p : Profile) (touch : Nat → Nat → Touch) (pizz : Nat → Nat → Bool) (n : Nat) (up : Bool) :
    stopDeltas p touch pizz n up =
      (p.entries.map fun e => (if e.stop = n then e.turned p touch pizz up else []).map (·.2)).flatten := by
  unfold stopDeltas
  congr 2
  funext e
  split
  · unfold StopEntry.turned
    cases e.kind with
    | trem g => rfl
    | voice _ _ _ _ _ _ | trap _ _ =>
      dsimp only
      rw [List.map_flatMap, List.flatMap_def]
      congr 2
      funext k
      split <;> simp
  · rfl

theorem StopEntry.turned_ascending (p : Profile) (touch : Nat → Nat → Touch) (pizz : Nat → Nat → Bool) (up : Bool)
    (e : StopEntry) : (e.turned p touch pizz up).Pairwise (fun x y => x.1 < y.1) := by
  have keys : ∀ f : Nat → List (Nat × Delta), (∀ k, (f k).length ≤ 1) → (∀ k x, x ∈ f k → x.1 = k) →
      ((List.range (p.keyCount e.division)).flatMap f).Pairwise (fun x y => x.1 < y.1) := by
    intro f one key
    refine List.pairwise_flatMap.2 ⟨fun k _ => pairwise_of_length (one k), List.pairwise_lt_range.imp ?_⟩
    intro k k' lt x mx y my
    rw [key k x mx, key k' y my]
    exact lt
  unfold StopEntry.turned
  cases e.kind with
  | trem g => exact List.pairwise_singleton _ _
  | voice _ _ _ _ _ _ | trap _ _ =>
    refine keys _ (fun k => ?_) fun k x m => ?_
    · split
      · rw [List.length_map]; exact e.keyDelta_length p k up
      · exact Nat.zero_le 1
    · rw [List.mem_ite_nil_right] at m
      obtain ⟨_, y, _, rfl⟩ : _ ∧ ∃ y, y ∈ e.keyDelta p k up ∧ (k, y) = x := by simpa using m
      rfl

theorem StopEntry.mem_turned {p : Profile} {touch : Nat → Nat → Touch} {pizz : Nat → Nat → Bool} {up : Bool}
    {e : StopEntry} {k : Nat} {x : Delta} :
    (k, x) ∈ e.turned p touch pizz up ↔
      (∃ c, k < p.keyCount e.division ∧ c.met (touch e.division k) (pizz e.division k) ∧ p.delivers e c k up x) ∨
        ∃ g, e.kind = .trem g ∧ k = 0 ∧ x = .group g up := by
  unfold StopEntry.turned
  have keyed : (∃ k', k' < p.keyCount e.division ∧ e.holds (touch e.division k') (pizz e.division k') = true ∧
      ∃ y ∈ e.keyDelta p k' up, (k', y) = (k, x)) ↔
      ∃ c, k < p.keyCount e.division ∧ c.met (touch e.division k) (pizz e.division k) ∧ p.delivers e c k up x := by
    simp only [Prod.mk.injEq, StopEntry.holds_iff]
    constructor
    · rintro ⟨_, low, judged, _, m, rfl, rfl⟩
      obtain ⟨c, met, gives⟩ := StopEntry.mem_keyDelta_and.1 ⟨m, judged⟩
      exact ⟨c, low, met, gives⟩
    · rintro ⟨c, low, met, gives⟩
      obtain ⟨m, judged⟩ := (StopEntry.mem_keyDelta_and
        (judged := fun c => c.met (touch e.division k) (pizz e.division k))).2 ⟨c, met, gives⟩
      exact ⟨k, low, judged, x, m, rfl, rfl⟩
  cases kind : e.kind with
  | trem g =>
    have no : ∀ c, ¬ p.delivers e c k up x := fun c gives => by
      have cond := gives.condition
      simp [StopEntry.condition, kind] at cond
    simp [no]
  | voice _ _ _ _ _ _ | trap _ _ =>
    rw [← keyed]
    simp

theorem stopDeltas_order (p : Profile) (touch : Nat → Nat → Touch) (pizz : Nat → Nat → Bool) (n : Nat) (up : Bool) :
    inEntryOrder (fun i k x => ∃ e, p.entries[i]? = some e ∧ e.stop = n ∧
      ((∃ c, k < p.keyCount e.division ∧ c.met (touch e.division k) (pizz e.division k) ∧ p.delivers e c k up x) ∨
        ∃ g, e.kind = .trem g ∧ k = 0 ∧ x = .group g up)) (stopDeltas p touch pizz n up) := by
  rw [stopDeltas_eq]
  refine (inEntryOrder_of_keys fun e => ?_).congr fun i k x => exists_congr fun e => and_congr_right fun _ => ?_
  · split
    · exact e.turned_ascending p touch pizz up
    · exact .nil
  · rw [List.mem_ite_nil_right, StopEntry.mem_turned]

end Sys2Proof.Machine
end

section
/-! What an application asks (R43 to R47, R83): the bars to strike and the effects that moved, as the log of the deltas
taken holds them, and the close. -/

namespace Sys2Proof.Machine

/-! ### Single deltas -/

/-- R43, R44, R45: a delta on a demand count. -/
theorem takeDelta_pipe (ready withhold : Bool) (s : State) (log : AppLog) (w o : Nat) :
    let n := s.dt.pipe.get o
    let counts := fun n => { s with dt := { s.dt with pipe := s.dt.pipe.set o n } }
    takeDelta ready withhold (s, log) (.count .pipe w o true) =
      (if ready = true ∧ n = 0 then paOpen o (counts 1) else counts (n + 1), log) ∧
    takeDelta ready withhold (s, log) (.count .pipe w o false) =
      (if ready = true ∧ n = 1 then paRelease o (counts 0) else counts (n - 1), log) := by
  constructor
  · by_cases opens : ready = true ∧ s.dt.pipe.get o = 0
    · simp [takeDelta, moved, opens]
    · simp [takeDelta, moved, opens]
  · by_cases leaves : ready = true ∧ s.dt.pipe.get o = 1
    · simp [takeDelta, moved, leaves]
    · simp [takeDelta, moved, leaves]

/-- R83: a TRAP delta. -/
theorem takeDelta_effect (ready up : Bool) (s : State) (log : AppLog) (e : Nat) :
    takeDelta ready true (s, log) (.effect e up) = (s, log) ∧
    (takeDelta ready false (s, log) (.effect e up)).1 = s.setTrigger e { s.trigger e with
      trap := if up = true then (s.trigger e).trap + 1 else (s.trigger e).trap - 1 } := ⟨rfl, rfl⟩

/-- R83: what a delta makes of effect `e`'s trigger. -/
def Delta.triggered (withhold : Bool) (e : Nat) (v : Trigger) : Delta → Trigger
  | .effect e' up => if withhold = false ∧ e' = e then { v with trap := moved up v.trap } else v
  | .count _ _ _ _ | .group _ _ => v

theorem takeDelta_trigger (ready withhold : Bool) (s : State) (log : AppLog) (d : Delta) (e : Nat) :
    (takeDelta ready withhold (s, log) d).1.trigger e = d.triggered withhold e (s.trigger e) := by
  match d with
  | .count .pipe w o up =>
    obtain ⟨rises, falls⟩ := takeDelta_pipe ready withhold s log w o
    have opened := paOpen_reach o { s with dt := { s.dt with pipe := s.dt.pipe.set o 1 } }
    have released := paRelease_eq o { s with dt := { s.dt with pipe := s.dt.pipe.set o 0 } }
    cases up
    · rw [falls]
      dsimp only
      split
      · rw [released]; rfl
      · rfl
    · rw [rises]
      dsimp only
      split
      · rw [opened]; rfl
      · rfl
  | .count .single w o up | .count .reiterate w o up => rfl
  | .effect e' up =>
    cases withhold
    · show (s.setTrigger e' _).trigger e = _
      rw [State.trigger_setTrigger]
      by_cases same : e = e'
      · subst same; simp [Delta.triggered]
      · simp [Delta.triggered, same, Ne.symm same]
    · simp [takeDelta, Delta.triggered]
  | .group g up =>
    show (groupDelta g up s).trigger e = s.trigger e
    rw [groupDelta_reach g up s]
    rfl

/-! ### The log -/

/-- The state and the log after the deltas of a list. -/
def takenDeltas (ready withhold : Bool) (s : State) (l : List Delta) : State × AppLog :=
  l.foldl (takeDelta ready withhold) (s, { bars := [], effects := [] })

theorem takenDeltas_snoc (ready withhold : Bool) (s : State) (l : List Delta) (d : Delta) :
    takenDeltas ready withhold s (l ++ [d]) = takeDelta ready withhold (takenDeltas ready withhold s l) d := by
  simp [takenDeltas]

/-- R46: the bar that a delta has struck at the close. -/
def Delta.strikes (dt : Dt) : Delta → Option Nat
  | .count .single _ o true => some o
  | .count .reiterate _ o true => if dt.reiterate.get o = 0 then some o else none
  | .count .pipe _ _ _ | .count .single _ _ false | .count .reiterate _ _ false | .effect _ _ | .group _ _ => none

theorem AppLog.bar_bars (log : AppLog) (o : Nat) :
    (log.bar o).bars = if o ∈ log.bars then log.bars else log.bars ++ [o] := by
  unfold AppLog.bar
  split <;> rfl

theorem AppLog.bar_effects (log : AppLog) (o : Nat) : (log.bar o).effects = log.effects := by
  unfold AppLog.bar
  split <;> rfl

theorem AppLog.effect_bars (log : AppLog) (e n : Nat) (up : Bool) : (log.effect e n up).bars = log.bars := by
  unfold AppLog.effect
  split <;> rfl

/-- R46: a bar is noted once, in the order first met. -/
theorem takeDelta_bars (ready withhold : Bool) (s : State) (log : AppLog) (d : Delta) :
    (takeDelta ready withhold (s, log) d).2.bars =
      match d.strikes s.dt with
      | some o => (log.bar o).bars
      | none => log.bars := by
  match d with
  | .count .pipe w o up =>
    obtain ⟨rises, falls⟩ := takeDelta_pipe ready withhold s log w o
    cases up
    · rw [falls]; rfl
    · rw [rises]; rfl
  | .count .single w o up => cases up <;> rfl
  | .count .reiterate w o true =>
    unfold takeDelta Delta.strikes
    by_cases zero : s.dt.reiterate.get o = 0 <;> simp [zero]
  | .count .reiterate w o false => simp [takeDelta, Delta.strikes]
  | .effect e up =>
    cases withhold
    · exact AppLog.effect_bars _ _ _ _
    · rfl
  | .group g up => rfl

/-- R46: the deltas meet bar `o`: its single count receives a +1, or its reiterate count rises from 0. -/
def meetsBar (ready withhold : Bool) (s : State) (l : List Delta) (o : Nat) : Prop :=
  ∃ before d, before ++ [d] <+: l ∧ d.strikes (takenDeltas ready withhold s before).1.dt = some o

theorem meetsBar_snoc {ready withhold : Bool} {s : State} {l : List Delta} {d : Delta} {o : Nat} :
    meetsBar ready withhold s (l ++ [d]) o ↔
      meetsBar ready withhold s l o ∨ d.strikes (takenDeltas ready withhold s l).1.dt = some o := by
  unfold meetsBar
  simp only [List.prefix_concat_iff]
  constructor
  · rintro ⟨before, x, e | m, strikes⟩
    · obtain ⟨rfl, h⟩ := List.append_inj' e rfl
      obtain rfl : x = d := by simpa using h
      exact .inr strikes
    · exact .inl ⟨before, x, m, strikes⟩
  · rintro (⟨before, x, m, strikes⟩ | strikes)
    · exact ⟨before, x, .inr m, strikes⟩
    · exact ⟨l, d, .inl rfl, strikes⟩

/-- R46: the bars noted are those met, each once. -/
theorem takenDeltas_bars (ready withhold : Bool) (s : State) (l : List Delta) :
    (takenDeltas ready withhold s l).2.bars.Nodup ∧
      ∀ o, o ∈ (takenDeltas ready withhold s l).2.bars ↔ meetsBar ready withhold s l o := by
  induction l using List.reverseRecOn with
  | nil => exact ⟨.nil, fun o => by simp [takenDeltas, meetsBar]⟩
  | append_singleton l d ih =>
    obtain ⟨once, met⟩ := ih
    have noted := takeDelta_bars ready withhold (takenDeltas ready withhold s l).1 (takenDeltas ready withhold s l).2 d
    simp only [takenDeltas_snoc, meetsBar_snoc, ← met]
    rw [noted]
    split
    · next o strikes =>
      rw [AppLog.bar_bars]
      split
      · next again => exact ⟨once, fun o' => by simp [strikes]; rintro rfl; exact again⟩
      · next fresh =>
        refine ⟨List.nodup_append.2 ⟨once, by simp, ?_⟩, fun o' => by simp [strikes, eq_comm]⟩
        rintro x m y n rfl
        exact fresh (List.mem_singleton.1 n ▸ m)
    · next idle => exact ⟨once, fun o' => by simp [idle]⟩

theorem takenDeltas_bars_prefix (ready withhold : Bool) (s : State) (l rest : List Delta) :
    (takenDeltas ready withhold s l).2.bars <+: (takenDeltas ready withhold s (l ++ rest)).2.bars := by
  induction rest using List.reverseRecOn with
  | nil => rw [List.append_nil]
  | append_singleton rest d ih =>
    rw [← List.append_assoc, takenDeltas_snoc]
    have noted := takeDelta_bars ready withhold (takenDeltas ready withhold s (l ++ rest)).1
      (takenDeltas ready withhold s (l ++ rest)).2 d
    refine ih.trans ?_
    rw [noted]
    split
    · rw [AppLog.bar_bars]
      split
      · exact List.prefix_refl _
      · exact List.prefix_append _ _
    · exact List.prefix_refl _

/-! ### The effects that moved (R83) -/

/-- R83: the effect that a delta names. -/
def Delta.effectOf : Delta → Option Nat
  | .effect e _ => some e
  | .count _ _ _ _ | .group _ _ => none

/-- R83: the effects that the deltas name, in the order first met. -/
def effectOrder (l : List Delta) : List Nat := (l.filterMap Delta.effectOf).reverse.dedup.reverse

theorem effectOrder_snoc (l : List Delta) (d : Delta) :
    effectOrder (l ++ [d]) =
      match d.effectOf with
      | some e => if e ∈ effectOrder l then effectOrder l else effectOrder l ++ [e]
      | none => effectOrder l := by
  unfold effectOrder
  rw [List.filterMap_append]
  cases named : d.effectOf with
  | none => simp [named]
  | some e =>
    simp only [List.filterMap_cons, List.filterMap_nil, named, List.reverse_append, List.reverse_cons, List.reverse_nil,
      List.nil_append, List.singleton_append, List.mem_reverse, List.mem_dedup]
    split
    · next again => rw [List.dedup_cons_of_mem (by simpa using again)]
    · next fresh => rw [List.dedup_cons_of_notMem (by simpa using fresh), List.reverse_cons]

theorem effectOrder_nodup (l : List Delta) : (effectOrder l).Nodup := by
  unfold effectOrder
  exact List.nodup_reverse.2 (List.nodup_dedup _)

theorem mem_effectOrder {l : List Delta} {e : Nat} : e ∈ effectOrder l ↔ ∃ up, Delta.effect e up ∈ l := by
  unfold effectOrder
  simp only [List.mem_reverse, List.mem_dedup, List.mem_filterMap]
  constructor
  · rintro ⟨d, m, named⟩
    match d with
    | .effect e' up =>
      obtain rfl : e' = e := by simpa [Delta.effectOf] using named
      exact ⟨up, m⟩
  · rintro ⟨up, m⟩
    exact ⟨_, m, rfl⟩

theorem effectOrder_prefix (l rest : List Delta) : effectOrder l <+: effectOrder (l ++ rest) := by
  induction rest using List.reverseRecOn with
  | nil => rw [List.append_nil]
  | append_singleton rest d ih =>
    rw [← List.append_assoc, effectOrder_snoc]
    refine ih.trans ?_
    split
    · split
      · exact List.prefix_refl _
      · exact List.prefix_append _ _
    · exact List.prefix_refl _

theorem effectOrder_of_none {l : List Delta} (h : ∀ e up, Delta.effect e up ∉ l) : effectOrder l = [] := by
  refine List.eq_nil_iff_forall_not_mem.2 fun e m => ?_
  obtain ⟨up, m⟩ := mem_effectOrder.1 m
  exact h e up m

/-- R83: an effect of which a delta is noted stands once, with its first count, and whether a +1 came. -/
theorem AppLog.effect_effects (log : AppLog) (e n : Nat) (up : Bool) :
    (log.effect e n up).effects =
      if log.effects.any (fun x => x.1 == e) = true then
        log.effects.map fun x => if x.1 = e then (x.1, x.2.1, x.2.2 || up) else x
      else log.effects ++ [(e, n, up)] := by
  unfold AppLog.effect
  split <;> rfl

/-- The delta is no delta of an effect that is taken: the effects noted stand. -/
theorem takeDelta_effects (ready withhold : Bool) (s : State) (log : AppLog) (d : Delta) :
    (takeDelta ready withhold (s, log) d).2.effects =
      match withhold, d with
      | false, .effect e up => (log.effect e (s.trigger e).count up).effects
      | _, _ => log.effects := by
  match d with
  | .count .pipe w o up =>
    obtain ⟨rises, falls⟩ := takeDelta_pipe ready withhold s log w o
    cases up
    · rw [falls]; cases withhold <;> rfl
    · rw [rises]; cases withhold <;> rfl
  | .count .single w o up =>
    cases up
    · cases withhold <;> rfl
    · cases withhold <;> exact AppLog.bar_effects log o
  | .count .reiterate w o up =>
    have stands : (if up = true ∧ s.dt.reiterate.get o = 0 then log.bar o else log).effects = log.effects := by
      split
      · exact AppLog.bar_effects log o
      · rfl
    cases withhold <;> exact stands
  | .effect e up => cases withhold <;> rfl
  | .group g up => cases withhold <;> rfl

theorem takenDeltas_effects_withheld (ready : Bool) (s : State) (l : List Delta) :
    (takenDeltas ready true s l).2.effects = [] := by
  induction l using List.reverseRecOn with
  | nil => rfl
  | append_singleton l d ih =>
    rw [takenDeltas_snoc]
    exact (takeDelta_effects ready true (takenDeltas ready true s l).1 (takenDeltas ready true s l).2 d).trans ih

/-- R83: the effects noted are those named, in the order first met, each with its count before the application and whether
a +1 came; the triggers of the others stand. -/
theorem takenDeltas_effects (ready : Bool) (s : State) (l : List Delta) :
    (takenDeltas ready false s l).2.effects =
        (effectOrder l).map (fun e => (e, (s.trigger e).count, decide (Delta.effect e true ∈ l))) ∧
      ∀ e, e ∉ effectOrder l → (takenDeltas ready false s l).1.trigger e = s.trigger e := by
  induction l using List.reverseRecOn with
  | nil => exact ⟨rfl, fun _ _ => rfl⟩
  | append_singleton l d ih =>
    obtain ⟨noted, stands⟩ := ih
    have effects := takeDelta_effects ready false (takenDeltas ready false s l).1 (takenDeltas ready false s l).2 d
    have triggers := takeDelta_trigger ready false (takenDeltas ready false s l).1 (takenDeltas ready false s l).2 d
    rw [takenDeltas_snoc, effectOrder_snoc]
    cases named : d.effectOf with
    | none =>
      have other : ∀ e up, d ≠ .effect e up := fun e up eq => by rw [eq] at named; cases named
      have still : ∀ e v, d.triggered false e v = v := fun e v => by
        match d with
        | .effect e' up => exact absurd rfl (other e' up)
        | .count _ _ _ _ | .group _ _ => rfl
      have quiet : (takeDelta ready false (takenDeltas ready false s l) d).2.effects =
          (takenDeltas ready false s l).2.effects := by
        refine effects.trans ?_
        match d with
        | .effect e' up => exact absurd rfl (other e' up)
        | .count _ _ _ _ | .group _ _ => rfl
      refine ⟨?_, fun e no => (triggers e).trans ((still _ _).trans (stands e no))⟩
      rw [quiet, noted]
      refine List.map_congr_left fun e _ => ?_
      simp [Ne.symm (other e true)]
    | some e =>
      obtain ⟨up, rfl⟩ : ∃ up, d = .effect e up := by
        match d with
        | .effect e' up => exact ⟨up, by rw [Option.some.inj named]⟩
      have known : (takenDeltas ready false s l).2.effects.any (fun x => x.1 == e) = true ↔ e ∈ effectOrder l := by
        rw [noted]; simp
      have came : ∀ e', decide (Delta.effect e' true ∈ l ++ [.effect e up]) =
          (decide (Delta.effect e' true ∈ l) || (decide (e' = e) && up)) := fun e' => by
        by_cases same : e' = e <;> cases up <;> simp [same]
      have after : (takeDelta ready false (takenDeltas ready false s l) (.effect e up)).2.effects =
          ((takenDeltas ready false s l).2.effect e ((takenDeltas ready false s l).1.trigger e).count up).effects := effects
      rw [after, AppLog.effect_effects]
      simp only [known, came]
      constructor
      · split
        · next again =>
          rw [noted, List.map_map]
          refine List.map_congr_left fun e' _ => ?_
          by_cases same : e' = e <;> simp [same]
        · next fresh =>
          have unmet : Delta.effect e true ∉ l := fun m => fresh (mem_effectOrder.2 ⟨true, m⟩)
          rw [noted, List.map_append, stands e fresh]
          congr 1
          · refine List.map_congr_left fun e' m => ?_
            have differ : e' ≠ e := fun eq => fresh (eq ▸ m)
            simp [differ]
          · simp [unmet]
      · intro e' no
        have differ : e' ≠ e ∧ e' ∉ effectOrder l := by
          split at no
          · next again => exact ⟨fun eq => no (eq ▸ again), no⟩
          · simpa [and_comm] using no
        refine (triggers e').trans ?_
        rw [stands e' differ.2]
        simp [Delta.triggered, Ne.symm differ.1]

/-! ### The close (R46, R47, R83) -/

theorem closeApplication_cases (log : AppLog) (s : State) :
    ∃ v, (v = s ∨ log.bars ≠ [] ∧ log.effects ≠ [] ∧ v = { s with choices := s.choices + 1 }) ∧
      (closeApplication true log s = forOutputs strikeBar log.bars (actOnEffects log.effects v) ∨
        closeApplication true log s = actOnEffects log.effects (forOutputs strikeBar log.bars v)) := by
  unfold closeApplication
  dsimp only
  rw [if_pos rfl]
  split
  · next both =>
    refine ⟨_, .inr ⟨both.1, both.2, rfl⟩, ?_⟩
    unfold eitherOrder
    dsimp only
    split
    · exact .inr rfl
    · exact .inl rfl
  · exact ⟨s, .inl rfl, .inr rfl⟩

/-- Outside READY the close acts on the effects alone. -/
theorem closeApplication_outside (log : AppLog) (s : State) :
    closeApplication false log s = actOnEffects log.effects s := by
  unfold closeApplication
  simp [forOutputs]

theorem application_eq (withhold : Bool) (l : List Delta) (s : State) :
    application withhold l s =
      closeApplication s.isReady (takenDeltas s.isReady withhold s l).2 (takenDeltas s.isReady withhold s l).1 := rfl

/-- Only DT's counts and sets have moved. -/
def ReachCounts (s t : State) : Prop :=
  t = { s with dt := { t.dt with tuning := s.dt.tuning, clocks := s.dt.clocks } }

theorem ReachCounts.trans {a b c : State} (h : ReachCounts a b) (k : ReachCounts b c) : ReachCounts a c := by
  unfold ReachCounts at *
  rw [k, h]

theorem takeDelta_counts (withhold : Bool) (s : State) (log : AppLog) (kind : CountKind) (w o : Nat) (up : Bool) :
    ReachCounts s (takeDelta false withhold (s, log) (.count kind w o up)).1 := by
  match kind with
  | .pipe =>
    obtain ⟨rises, falls⟩ := takeDelta_pipe false withhold s log w o
    cases up
    · rw [falls]; rfl
    · rw [rises]; rfl
  | .single | .reiterate => rfl

/-- R43: outside READY deltas of counts move DT's counts alone, and nothing is noted of an effect. -/
theorem takenDeltas_counts (withhold : Bool) (s : State) {l : List Delta}
    (counts : ∀ x ∈ l, ∃ kind w o up, x = .count kind w o up) :
    ReachCounts s (takenDeltas false withhold s l).1 ∧ (takenDeltas false withhold s l).2.effects = [] := by
  induction l using List.reverseRecOn with
  | nil => exact ⟨rfl, rfl⟩
  | append_singleton l d ih =>
    obtain ⟨frame, effects⟩ := ih fun x m => counts x (List.mem_append_left _ m)
    obtain ⟨kind, w, o, up, rfl⟩ := counts d (List.mem_append_right _ (List.mem_singleton_self d))
    rw [takenDeltas_snoc]
    constructor
    · exact frame.trans (takeDelta_counts withhold (takenDeltas false withhold s l).1 _ kind w o up)
    · refine Eq.trans ?_ effects
      refine (takeDelta_effects _ _ _ _ _).trans ?_
      cases withhold <;> rfl

/-- R85: outside READY, with no effect in play, EE acts on no effect. -/
theorem actOnEffects_hush {s : State} (h : s.hushed) (l : List (Nat × Nat × Bool)) : actOnEffects l s = s := by
  unfold actOnEffects
  induction l with
  | nil => rfl
  | cons x rest ih => rw [List.foldl_cons, countMoved_hush h, ih]

/-! ### What an application asks -/

/-- The bars met, said as the statement says it. -/
theorem meetsBar_iff (ready withhold : Bool) (s : State) (l : List Delta) (o : Nat) :
    meetsBar ready withhold s l o ↔ ∃ before w rest,
      l = before ++ .count .single w o true :: rest ∨
        l = before ++ .count .reiterate w o true :: rest ∧
          (takenDeltas ready withhold s before).1.dt.reiterate.get o = 0 := by
  constructor
  · rintro ⟨before, d, ⟨rest, rfl⟩, strikes⟩
    have split : before ++ [d] ++ rest = before ++ d :: rest := by simp
    match d with
    | .count .single w o' true =>
      obtain rfl : o' = o := by simpa [Delta.strikes] using strikes
      exact ⟨before, w, rest, .inl split⟩
    | .count .reiterate w o' true =>
      obtain ⟨zero, rfl⟩ : (takenDeltas ready withhold s before).1.dt.reiterate.get o' = 0 ∧ o' = o := by
        simpa [Delta.strikes] using strikes
      exact ⟨before, w, rest, .inr ⟨split, zero⟩⟩
  · rintro ⟨before, w, rest, rfl | ⟨rfl, zero⟩⟩
    · exact ⟨before, .count .single w o true, ⟨rest, by simp⟩, rfl⟩
    · exact ⟨before, .count .reiterate w o true, ⟨rest, by simp⟩, by simp [Delta.strikes, zero]⟩

/-- R43, R46, R47, R83: the last part of the statement, for any application. -/
theorem application_asks (withhold : Bool) (deltas : List Delta) (s : State) :
    let after := fun l : List Delta => (takenDeltas (decide (s.ch.state = .ready)) withhold s l).1
    let met := fun (l : List Delta) (o : Nat) => ∃ before w rest,
      l = before ++ .count .single w o true :: rest ∨
        l = before ++ .count .reiterate w o true :: rest ∧ (after before).dt.reiterate.get o = 0
    let struck := forOutputs strikeBar
    let acted := actOnEffects
    s.ch.state = .ready → ∃ (bars order : List Nat) (effects : List (Nat × Nat × Bool)) (v : State), bars.Nodup ∧
      order.Nodup ∧
      (∀ some_ rest, deltas = some_ ++ rest → ∃ first, first <+: order ∧
        (∀ e, e ∈ first ↔ ∃ up, Delta.effect e up ∈ some_) ∧ (rest = [] → first = order)) ∧
      (withhold = false →
        effects = order.map fun e => (e, (s.trigger e).count, decide (Delta.effect e true ∈ deltas))) ∧
      (∀ some_ rest, deltas = some_ ++ rest → ∃ first, first <+: bars ∧ (∀ o, o ∈ first ↔ met some_ o) ∧
        (rest = [] → first = bars)) ∧
      ((withhold = true ∨ ∀ e up, Delta.effect e up ∉ deltas) → effects = []) ∧
      (v = after deltas ∨ bars ≠ [] ∧ effects ≠ [] ∧ v = { after deltas with choices := (after deltas).choices + 1 }) ∧
      (application withhold deltas s = struck bars (acted effects v) ∨
        application withhold deltas s = acted effects (struck bars v)) := by
  intro after met struck acted ready
  have isReady : s.isReady = true := State.isReady_iff.2 ready
  have judged : decide (s.ch.state = .ready) = true := decide_eq_true ready
  obtain ⟨v, stands, closes⟩ := closeApplication_cases (takenDeltas true withhold s deltas).2
    (takenDeltas true withhold s deltas).1
  refine ⟨(takenDeltas true withhold s deltas).2.bars, effectOrder deltas, (takenDeltas true withhold s deltas).2.effects, v,
    (takenDeltas_bars true withhold s deltas).1, effectOrder_nodup deltas, ?order, ?effects, ?bars, ?none, ?stands, ?closes⟩
  case order =>
    rintro l rest rfl
    exact ⟨effectOrder l, effectOrder_prefix l rest, fun e => mem_effectOrder, by rintro rfl; rw [List.append_nil]⟩
  case effects =>
    rintro rfl
    exact (takenDeltas_effects true s deltas).1
  case bars =>
    rintro l rest rfl
    refine ⟨(takenDeltas true withhold s l).2.bars, takenDeltas_bars_prefix true withhold s l rest, fun o => ?_,
      by rintro rfl; rw [List.append_nil]⟩
    rw [(takenDeltas_bars true withhold s l).2, meetsBar_iff]
    dsimp only [met, after]
    rw [judged]
  case none =>
    rintro (rfl | none)
    · exact takenDeltas_effects_withheld true s deltas
    · cases withhold
      · rw [(takenDeltas_effects true s deltas).1, effectOrder_of_none none]
        rfl
      · exact takenDeltas_effects_withheld true s deltas
  case stands =>
    dsimp only [after]
    rw [judged]
    exact stands
  case closes =>
    rw [application_eq, isReady]
    exact closes

/-- R43: outside READY an application of counts moves the counts alone. -/
theorem application_counts_outside (withhold : Bool) {deltas : List Delta} {s : State} (outside : s.ch.state ≠ .ready)
    (counts : ∀ x ∈ deltas, ∃ kind w o up, x = .count kind w o up) :
    ReachCounts s (takenDeltas false withhold s deltas).1 ∧
      application withhold deltas s = (takenDeltas false withhold s deltas).1 := by
  obtain ⟨frame, effects⟩ := takenDeltas_counts withhold s counts
  have isReady : s.isReady = false := by simpa [State.isReady] using outside
  rw [application_eq, isReady, closeApplication_outside, effects]
  exact ⟨frame, rfl⟩

/-- R43, R85, R119: outside READY, where no effect is in play and no group runs, an application is its deltas alone. -/
theorem application_quiet_outside (withhold : Bool) (deltas : List Delta) {s : State} (outside : s.ch.state ≠ .ready)
    (quiet : s.QuietOutsideReady) :
    application withhold deltas s = (takenDeltas false withhold s deltas).1 ∧
      (takenDeltas false withhold s deltas).1 = { s with
        dt := { (takenDeltas false withhold s deltas).1.dt with tuning := s.dt.tuning, clocks := s.dt.clocks }
        ee := { s.ee with triggers := (takenDeltas false withhold s deltas).1.ee.triggers }
        tsu := { s.tsu with trems := (takenDeltas false withhold s deltas).1.tsu.trems } } := by
  have hushed := quiet.hushed outside
  have reach : ReachHush s (takenDeltas false withhold s deltas).1 := takeDeltas_hush withhold deltas _ hushed
  have frame := reach.frame
  have km : (takenDeltas false withhold s deltas).1.km = s.km := by
    have app : ReachApp s (takenDeltas false withhold s deltas).1 :=
      takeDeltas_reach false withhold deltas (s, { bars := [], effects := [] })
    rw [app]
  rw [km] at frame
  refine ⟨?_, frame⟩
  rw [application_eq, hushed.outside, closeApplication_outside, actOnEffects_hush (hushed.reach reach)]

/-- R19: the deltas of a TUNE between outputs of PIPE and BAR windows. -/
theorem tuneDeltas_ends (p : Profile) (old new : Option Nat)
    (held : ∀ o, old = some o ∨ new = some o →
      (p.windowOf o).map (·.kind) = some .pipe ∨ (p.windowOf o).map (·.kind) = some .bar) :
    let delta := fun up o =>
      Delta.count (if (p.windowOf o).map (·.kind) = some .bar then .single else .pipe) (p.windowIndex o) o up
    tuneDeltas p old new = (old.map (delta false)).toList ++ (new.map (delta true)).toList := by
  intro delta
  have one : ∀ o up, ((p.windowOf o).map (·.kind) = some .pipe ∨ (p.windowOf o).map (·.kind) = some .bar) →
      tuneDelta p o up = [delta up o] := by
    intro o up kind
    dsimp only [delta]
    rw [tuneDelta_eq]
    rcases kind with pipe | bar
    · rw [Profile.tuneKind_pipe.2 (by rw [pipe]; exact ⟨by simp, by simp⟩), if_neg (by rw [pipe]; simp)]
      rfl
    · rw [Profile.tuneKind_single.2 bar, if_pos bar]
      rfl
  have ends : ∀ (h : Option Nat) up,
      (∀ o, h = some o → (p.windowOf o).map (·.kind) = some .pipe ∨ (p.windowOf o).map (·.kind) = some .bar) →
      (h.map fun o => tuneDelta p o up).getD [] = (h.map (delta up)).toList := by
    intro h up kind
    cases h with
    | none => rfl
    | some o => exact one o up (kind o rfl)
  unfold tuneDeltas
  rw [ends old false fun o e => held o (.inl e), ends new true fun o e => held o (.inr e)]

end Sys2Proof.Machine
end

section
/-! What the counts speak of (R41, R48, R82, R118, R119), and that PA, the runners, EE, TSU and the lamps leave it as it
stands. -/

namespace Sys2Proof.Machine

/-! ### What the counts speak of -/

/-- R119: a group runs while its on-count is above 0 and the chamber is READY, and at no other time. -/
def State.TremsSound (s : State) : Prop :=
  ∀ g, (s.trem g).running = true ↔ s.ch.state = .ready ∧ 0 < (s.trem g).onCount

/-- What the counts speak of stands: the profile, KM, DT but for its clocks, the trigger counts, the debounced levels and
the on-counts. -/
structure State.booksStand (s t : State) : Prop where
  profile : t.profile = s.profile
  km : t.km = s.km
  dt : t.dt = { s.dt with clocks := t.dt.clocks }
  triggers : t.ee.triggers = s.ee.triggers
  debounced : ∀ l, (t.line l).debounced = (s.line l).debounced
  onCount : ∀ g, (t.trem g).onCount = (s.trem g).onCount

theorem State.booksStand.refl (s : State) : s.booksStand s := ⟨rfl, rfl, rfl, rfl, fun _ => rfl, fun _ => rfl⟩

theorem State.booksStand.trans {a b c : State} (h : a.booksStand b) (k : b.booksStand c) : a.booksStand c where
  profile := k.profile.trans h.profile
  km := k.km.trans h.km
  dt := by rw [k.dt, h.dt]
  triggers := k.triggers.trans h.triggers
  debounced l := (k.debounced l).trans (h.debounced l)
  onCount g := (k.onCount g).trans (h.onCount g)

/-- No group beyond the four has an on-count. -/
def State.fourGroups (s : State) : Prop := ∀ g, 4 ≤ g → (s.trem g).onCount = 0

theorem State.booksStand.fourGroups {s t : State} (h : s.booksStand t) (few : s.fourGroups) : t.fourGroups :=
  fun g high => (h.onCount g).trans (few g high)

/-- What the counts speak of stands, and what may run runs as R119 says. -/
structure State.countsStand (s t : State) : Prop extends s.booksStand t where
  trems : s.fourGroups → s.TremsSound → t.TremsSound

theorem State.countsStand.refl (s : State) : s.countsStand s := ⟨.refl s, fun _ h => h⟩

theorem State.countsStand.trans {a b c : State} (h : a.countsStand b) (k : b.countsStand c) : a.countsStand c :=
  ⟨h.tobooksStand.trans k.tobooksStand, fun few sound => k.trems (h.fourGroups few) (h.trems few sound)⟩

/-- An operation that leaves these blocks alone. -/
theorem State.countsStand.of_blocks {s t : State} (profile : t.profile = s.profile) (km : t.km = s.km)
    (dt : t.dt = { s.dt with clocks := t.dt.clocks }) (triggers : t.ee.triggers = s.ee.triggers) (ll : t.ll = s.ll)
    (tsu : t.tsu = s.tsu) (state : t.ch.state = s.ch.state) : s.countsStand t where
  profile := profile
  km := km
  dt := dt
  triggers := triggers
  debounced l := by unfold State.line; rw [ll]
  onCount g := by unfold State.trem; rw [tsu]
  trems _ sound g := by
    have law := sound g
    unfold State.trem at law ⊢
    rw [tsu, state]
    exact law

/-- A group that keeps its on-count and runs as before. -/
theorem setTrem_countsStand {g : Nat} {v : Trem} {s : State} (onCount : v.onCount = (s.trem g).onCount)
    (running : v.running = (s.trem g).running) : s.countsStand (s.setTrem g v) where
  profile := rfl
  km := rfl
  dt := rfl
  triggers := rfl
  debounced _ := rfl
  onCount g' := by
    rw [State.trem_setTrem]
    split
    · next same => rw [same]; exact onCount
    · rfl
  trems _ sound g' := by
    have law := sound g'
    rw [State.trem_setTrem]
    split
    · next same => rw [onCount, running, ← same]; exact law
    · exact law

/-- A line that keeps its debounced level. -/
theorem setLine_countsStand {l : Nat} {v : Line} {s : State} (debounced : v.debounced = (s.line l).debounced) :
    s.countsStand (s.setLine l v) where
  profile := rfl
  km := rfl
  dt := rfl
  triggers := rfl
  debounced l' := by
    rw [State.line_setLine]
    split
    · next same => rw [same]; exact debounced
    · rfl
  onCount _ := rfl
  trems _ sound := sound

theorem countsStand_foldl {β : Type} (f : State → β → State) (one : ∀ (s : State) x, s.countsStand (f s x)) (l : List β) (s : State) :
    s.countsStand (l.foldl f s) :=
  foldl_reach (fun s t : State => s.countsStand t) State.countsStand.refl (fun _ _ _ => State.countsStand.trans) f one l s

theorem State.countsStand.ite {p : Prop} [Decidable p] {s a b : State} (h : p → s.countsStand a) (k : ¬ p → s.countsStand b) :
    s.countsStand (if p then a else b) := by
  split
  · next holds => exact h holds
  · next fails => exact k fails

/-! ### PA, CC, LI, the runners -/

theorem ReachPa.countsStand {s t : State} (h : ReachPa s t) : s.countsStand t :=
  .of_blocks (by rw [h]) (by rw [h]) (by rw [h]) (by rw [h]) (by rw [h]) (by rw [h]) (by rw [h])

theorem ReachOut.countsStand {s t : State} (h : ReachOut s t) : s.countsStand t :=
  .of_blocks (by rw [h]) (by rw [h]) (by rw [h]) (by rw [h]) (by rw [h]) (by rw [h]) (by rw [h])

theorem handOver_countsStand (f : Frame) (s : State) : s.countsStand (handOver f s) := (handOver_reach f s).out.countsStand

theorem setRunner_countsStand (r : Nat) (v : Option Context) (s : State) : s.countsStand (s.setRunner r v) :=
  .of_blocks rfl rfl rfl rfl rfl rfl rfl

theorem setGroup_countsStand (g : Nat) (v : Group) (s : State) : s.countsStand (s.setGroup g v) :=
  .of_blocks rfl rfl rfl rfl rfl rfl rfl

theorem setShutter_countsStand (x : Nat) (v : Shutter) (s : State) : s.countsStand (s.setShutter x v) where
  profile := rfl
  km := rfl
  dt := rfl
  triggers := rfl
  debounced _ := rfl
  onCount _ := rfl
  trems _ sound := sound

/-- CH but for its state is not the counts'. -/
theorem withCh_countsStand {ch : Ch} {s : State} (state : ch.state = s.ch.state) : s.countsStand { s with ch := ch } :=
  .of_blocks rfl rfl rfl rfl rfl rfl state

theorem forOutputs_countsStand {f : Nat → State → State} (h : ∀ o s, ReachPa s (f o s)) (l : List Nat) (s : State) :
    s.countsStand (forOutputs f l s) := (forOutputs_reach h l s).countsStand

theorem offerLine_countsStand (l : Nat) (v : Bool) (s : State) : s.countsStand (offerLine l v s) := by
  unfold offerLine
  split
  · exact .ite (fun _ => setRunner_countsStand _ _ _) fun _ => .refl s
  · exact .refl s

theorem driveLine_countsStand (l : Nat) (v : Bool) (s : State) : s.countsStand (driveLine l v s) := by
  have driven : s.countsStand (s.setLine l { s.line l with driven := v }) := setLine_countsStand rfl
  unfold driveLine
  refine .ite (fun _ => ?_) fun _ => .refl s
  dsimp only
  split
  · exact driven.trans (offerLine_countsStand _ _ _)
  · exact driven

theorem driveLamps_countsStand (v : Bool) (s : State) : s.countsStand (driveLamps v s) :=
  countsStand_foldl _ (fun s l => .ite (fun _ => driveLine_countsStand l v s) fun _ => .refl s) _ s

theorem tallied_countsStand (r i : Nat) (c : Context) {s t : State} (h : s.countsStand t) :
    s.countsStand (tallied r i c t).2.2 := by
  unfold tallied
  dsimp only
  split
  · exact h
  · exact h.trans (reportFault_reach _ _ _ _).pa.countsStand

theorem takeStep_countsStand (r : Nat) (c : Context) (s : State) : s.countsStand (takeStep r c s).2.2 := by
  unfold takeStep
  dsimp only
  split
  · exact .refl s
  · exact .refl s
  · exact tallied_countsStand _ _ _ (paStrike_reach _ _ _).countsStand
  · split
    · exact tallied_countsStand _ _ _ (paHold_reach _ _).countsStand
    · split
      · exact tallied_countsStand _ _ _ (paHold_reach _ _).countsStand
      · exact tallied_countsStand _ _ _ (.refl s)
  · exact tallied_countsStand _ _ _ (paRelease_reach _ _).countsStand
  · exact tallied_countsStand _ _ _ (.refl s)
  · exact tallied_countsStand _ _ _ (handOver_countsStand _ _)
  · exact .refl s
  · split
    · exact tallied_countsStand _ _ _ (.refl s)
    · exact .refl s
  · exact tallied_countsStand _ _ _ (driveLine_countsStand _ _ _)
  · exact tallied_countsStand _ _ _ (.refl s)
  · exact .refl s

theorem takeSteps_countsStand (r n : Nat) (c : Context) (s : State) : s.countsStand (takeSteps r n c s).2.2 := by
  induction n generalizing c s with
  | zero => exact .refl s
  | succ n ih =>
    have h := takeStep_countsStand r c s
    unfold takeSteps
    split
    · next e => rw [e] at h; exact h.trans (ih _ _)
    · exact h

theorem runPass_countsStand (r : Nat) (c : Context) (s : State) : s.countsStand (runPass r c s).2.2 :=
  takeSteps_countsStand r 17 c s

/-! ### EE -/

theorem ReachClear.countsStand {s t : State} (h : ReachClear s t) : s.countsStand t := by
  obtain ⟨frame, _⟩ := h
  exact .of_blocks (by rw [frame]) (by rw [frame]) (by rw [frame]) (by rw [frame]) (by rw [frame]) (by rw [frame])
    (by rw [frame])

theorem clearGroup_countsStand (g : Nat) (s : State) : s.countsStand (clearGroup g s) :=
  (clearGroup_alike g s).2.countsStand

theorem resumeHolder_countsStand (g : Nat) (c : Context) (rest : List Context) (s : State) :
    s.countsStand (resumeHolder g c rest s).2 :=
  (setGroup_countsStand g { s.group g with holder := c.script.effect, stack := rest } s).trans
    (forOutputs_countsStand paHold_reach c.held _)

theorem becomeHolder_countsStand (e : Nat) (s : State) : s.countsStand (becomeHolder e s).2 := setGroup_countsStand _ _ s

theorem nextWork_countsStand (g : Nat) (s : State) {x : Context × State} (h : nextWork g s = some x) :
    s.countsStand x.2 := by
  have starts : ∀ g v e, s.countsStand (becomeHolder e (s.setGroup g v)).2 := fun g v e =>
    (setGroup_countsStand g v s).trans (becomeHolder_countsStand e _)
  unfold nextWork at h
  dsimp only at h
  split at h
  · cases h; exact starts _ _ _
  · split at h
    · cases h; exact starts _ _ _
    · cases h; exact resumeHolder_countsStand _ _ _ _
  · cases h; exact resumeHolder_countsStand _ _ _ _
  · obtain ⟨y, -, rfl⟩ := Option.map_eq_some_iff.1 h
    exact (setGroup_countsStand _ _ s).trans ((setGroup_countsStand _ _ _).trans (becomeHolder_countsStand _ _))

theorem endHolder_countsStand (r : Nat) (c : Context) (s : State) : s.countsStand (endHolder r c s).2 := by
  have freed : s.countsStand ((forOutputs paRelease c.held s).setRunner r none) :=
    (forOutputs_countsStand paRelease_reach c.held s).trans (setRunner_countsStand _ _ _)
  unfold endHolder
  dsimp only
  split
  · next h => exact freed.trans (nextWork_countsStand _ _ h)
  · exact freed.trans (setGroup_countsStand _ _ _)

theorem runOn_countsStand (r n : Nat) (c : Context) (s : State) : s.countsStand (runOn n r c s) := by
  induction n generalizing c s with
  | zero => exact setRunner_countsStand _ _ s
  | succ n ih =>
    have pass := (setRunner_countsStand r (some c) s).trans (runPass_countsStand r c (s.setRunner r (some c)))
    unfold runOn
    split
    · next c' s' e =>
      rw [e] at pass
      have ends := pass.trans (endHolder_countsStand r c' s')
      split
      · next e2 => rw [e2] at ends; exact ends
      · next c'' s'' e2 =>
        rw [e2] at ends
        exact .ite (fun _ => ends.trans (ih _ _)) fun _ => ends.trans (setRunner_countsStand _ _ _)
    · next e =>
      rw [e] at pass
      exact pass.trans (setRunner_countsStand _ _ _)

theorem runEffect_countsStand (r : Nat) (c : Context) (s : State) : s.countsStand (runEffect r c s) :=
  .ite (fun _ => runOn_countsStand r _ c s) fun _ => setRunner_countsStand _ _ s

theorem holderEnds_countsStand (r : Nat) (c : Context) (s : State) : s.countsStand (holderEnds r c s) := by
  have ends := endHolder_countsStand r c s
  unfold holderEnds
  split
  · next e => rw [e] at ends; exact ends
  · next e => rw [e] at ends; exact ends.trans (runEffect_countsStand _ _ _)

theorem startEffect_countsStand (e r : Nat) (s : State) : s.countsStand (startEffect e r s) :=
  (becomeHolder_countsStand e s).trans (runEffect_countsStand _ _ _)

theorem makePending_countsStand (e : Nat) (s : State) : s.countsStand (makePending e s) := by
  unfold makePending
  dsimp only
  split
  · exact setGroup_countsStand _ _ s
  · exact .ite (fun _ => setGroup_countsStand _ _ s) fun _ => .refl s

theorem preempt_countsStand (e r : Nat) (c : Context) (s : State) : s.countsStand (preempt e r c s) := by
  unfold preempt
  exact .ite (fun _ => (reportFault_reach _ _ _ _).pa.countsStand) fun _ =>
    (setGroup_countsStand _ _ s).trans ((clearGroup_countsStand _ _).trans (startEffect_countsStand _ _ _))

theorem triggerInReady_countsStand (e : Nat) (s : State) : s.countsStand (triggerInReady e s) := by
  unfold triggerInReady
  dsimp only
  split
  · exact .refl s
  · split
    · split
      · exact startEffect_countsStand _ _ _
      · exact makePending_countsStand _ _
    · split
      · exact .refl s
      · split
        · exact .refl s
        · split
          · exact .ite (fun _ => (clearGroup_countsStand _ _).trans (startEffect_countsStand _ _ _)) fun _ => .refl s
          · exact .ite (fun _ => preempt_countsStand _ _ _ _) fun _ => makePending_countsStand _ _

theorem restartRest_countsStand (s : State) : s.countsStand (restartRest s) :=
  .ite (fun _ => withCh_countsStand rfl) fun _ => .refl s

theorem trigger_countsStand (e : Nat) (s : State) : s.countsStand (trigger e s) :=
  .ite (fun _ => (restartRest_countsStand s).trans (triggerInReady_countsStand _ _)) fun _ => .refl s

theorem levelRelease_countsStand (e : Nat) (s : State) : s.countsStand (levelRelease e s) := by
  unfold levelRelease
  dsimp only
  split
  · split
    · exact .refl s
    · split
      · exact .refl s
      · split
        · split
          · exact runEffect_countsStand _ _ _
          · exact holderEnds_countsStand _ _ _
        · exact .refl s
  · exact .ite (fun _ => setGroup_countsStand _ _ s) fun _ => setGroup_countsStand _ _ s

theorem countMoved_countsStand (e b : Nat) (up : Bool) (s : State) : s.countsStand (countMoved e b up s) := by
  unfold countMoved
  split
  · exact .ite (fun _ => trigger_countsStand _ _) fun _ => .refl s
  · dsimp only
    exact .ite (fun _ => trigger_countsStand _ _) fun _ =>
      .ite (fun _ => levelRelease_countsStand _ _) fun _ => .refl s
  · exact .refl s

theorem actOnEffects_countsStand (l : List (Nat × Nat × Bool)) (s : State) : s.countsStand (actOnEffects l s) := by
  unfold actOnEffects
  exact countsStand_foldl _ (fun s x => countMoved_countsStand _ _ _ s) l s

/-! ### TSU -/

theorem phase0At_countsStand (t g : Nat) (s : State) : s.countsStand (phase0At t g s) := by
  unfold phase0At
  split
  · exact .refl s
  · next x _ =>
    dsimp only
    have held := (setTrem_countsStand (g := g) (s := s)
      (v := { s.trem g with phaseW := some (t + ms x.width), phase0 := some (t + ms x.period) }) rfl rfl).trans
      (paHold_reach x.output _).countsStand
    exact .ite (fun _ => held.trans (handOver_countsStand _ _)) fun _ => held

theorem phaseWAt_countsStand (g : Nat) (s : State) : s.countsStand (phaseWAt g s) := by
  unfold phaseWAt
  split
  · exact .refl s
  · exact (setTrem_countsStand (by rfl) (by rfl)).trans (paRelease_reach _ _).countsStand

theorem offerBeat_countsStand (a : Station) (tag : Fin 16) (s : State) : s.countsStand (offerBeat a tag s) := by
  refine countsStand_foldl _ (fun s g => ?_) _ s
  unfold takeBeat
  split
  · exact .refl s
  · exact .ite (fun _ => (setTrem_countsStand (by rfl) (by rfl)).trans (phase0At_countsStand _ _ _)) fun _ => .refl s

theorem shutterStep_countsStand (x : Nat) (s : State) : s.countsStand (shutterStep x s) := by
  unfold shutterStep
  split
  · exact .refl s
  · dsimp only
    exact .ite (fun _ => (setShutter_countsStand _ _ _).trans (paHold_reach _ _).countsStand) fun _ =>
      .ite (fun _ => (setShutter_countsStand _ _ _).trans (paRelease_reach _ _).countsStand) fun _ => .refl s

theorem stepTimerEnds_countsStand (x : Nat) (s : State) : s.countsStand (stepTimerEnds x s) :=
  .ite (fun _ => shutterStep_countsStand x s) fun _ => setShutter_countsStand _ _ s

theorem judgePosition_countsStand (x p : Nat) (cfg : ShutterSet) (s : State) :
    s.countsStand (judgePosition x p cfg s) := by
  unfold judgePosition
  dsimp only
  refine .ite (fun _ => ?_) fun _ => .refl s
  exact .ite (fun _ => (setShutter_countsStand _ _ s).trans (shutterStep_countsStand _ _)) fun _ =>
    setShutter_countsStand _ _ s

theorem takePairs_countsStand (c : Nat) (pairs : List (Fin 8 × Byte)) (s : State) :
    s.countsStand (takePairs c pairs s) := by
  refine countsStand_foldl _ (fun s pair => countsStand_foldl _ (fun s x => ?_) _ s) _ s
  unfold takePair
  split
  · exact .refl s
  · exact .ite (fun _ => (setShutter_countsStand _ _ s).trans (judgePosition_countsStand _ _ _ _)) fun _ => .refl s

theorem releaseShoes_countsStand (c : Nat) (s : State) : s.countsStand (releaseShoes c s) :=
  countsStand_foldl _ (fun s x => .ite (fun _ => setShutter_countsStand x _ s) fun _ => .refl s) _ s

end Sys2Proof.Machine
end

section
/-! What a change of the chamber state leaves of the counts (R41, R49, R52, R119): the groups stop and start, and all else
that the counts speak of stands. -/

namespace Sys2Proof.Machine

/-! ### Groups that start and stop -/

/-- The same groups run, with the same on-counts. -/
def State.groupsStand (s t : State) : Prop :=
  ∀ g, (t.trem g).onCount = (s.trem g).onCount ∧ (t.trem g).running = (s.trem g).running

theorem State.groupsStand.of_tsu {s t : State} (h : t.tsu = s.tsu) : s.groupsStand t := fun g => by
  unfold State.trem
  rw [h]
  exact ⟨rfl, rfl⟩

theorem State.groupsStand.trans {a b c : State} (h : a.groupsStand b) (k : b.groupsStand c) : a.groupsStand c :=
  fun g => ⟨(k g).1.trans (h g).1, (k g).2.trans (h g).2⟩

theorem State.groupsStand.refl (s : State) : s.groupsStand s := .of_tsu rfl

theorem setTrem_groupsStand {g : Nat} {v : Trem} {s : State} (onCount : v.onCount = (s.trem g).onCount)
    (running : v.running = (s.trem g).running) : s.groupsStand (s.setTrem g v) := fun g' => by
  rw [State.trem_setTrem]
  split
  · next same => subst same; exact ⟨onCount, running⟩
  · exact ⟨rfl, rfl⟩

theorem phase0At_groupsStand (t g : Nat) (s : State) : s.groupsStand (phase0At t g s) := by
  unfold phase0At
  split
  · exact .refl s
  · next x _ =>
    dsimp only
    have held := (setTrem_groupsStand (g := g) (s := s)
      (v := { s.trem g with phaseW := some (t + ms x.width), phase0 := some (t + ms x.period) }) rfl rfl).trans
      (.of_tsu (paHold_reach x.output _).tsu_eq)
    split
    · exact held.trans (.of_tsu (by rw [handOver_reach]))
    · exact held

theorem shutterStep_groupsStand (x : Nat) (s : State) : s.groupsStand (shutterStep x s) := by
  unfold shutterStep
  split
  · exact .refl s
  · dsimp only
    split
    · exact State.groupsStand.trans (b := s.setShutter x _) (fun _ => ⟨rfl, rfl⟩) (.of_tsu (paHold_reach _ _).tsu_eq)
    · split
      · exact State.groupsStand.trans (b := s.setShutter x _) (fun _ => ⟨rfl, rfl⟩) (.of_tsu (paRelease_reach _ _).tsu_eq)
      · exact .refl s

/-- A group written with its on-count, whatever else of it moves. -/
theorem setTrem_booksStand {g : Nat} {v : Trem} {s : State} (onCount : v.onCount = (s.trem g).onCount) :
    s.booksStand (s.setTrem g v) where
  profile := rfl
  km := rfl
  dt := rfl
  triggers := rfl
  debounced _ := rfl
  onCount g' := by
    rw [State.trem_setTrem]
    split
    · next same => rw [same]; exact onCount
    · rfl

theorem startGroup_booksStand (g : Nat) (s : State) : s.booksStand (startGroup g s) :=
  (setTrem_booksStand (by rfl)).trans (phase0At_countsStand _ _ _).tobooksStand

/-- R119: a group that starts runs; the others stand. -/
theorem startGroup_running (g : Nat) (s : State) (g' : Nat) :
    ((startGroup g s).trem g').running = if g' = g then true else (s.trem g').running := by
  refine ((phase0At_groupsStand _ _ _) g').2.trans ?_
  rw [State.trem_setTrem]
  split <;> rfl

/-- R119: a group that stops no longer runs; the others stand. -/
theorem stopGroup_running (g : Nat) (s : State) (g' : Nat) :
    ((stopGroup g s).trem g').running = if g' = g then false else (s.trem g').running := by
  have stopped : ((s.setTrem g (stoppedTrem (s.trem g))).trem g').running =
      if g' = g then false else (s.trem g').running := by
    rw [State.trem_setTrem]
    split <;> rfl
  unfold stopGroup
  dsimp only
  split
  · exact stopped
  · rw [(paRelease_reach _ _).trem]
    exact stopped

theorem stopGroup_booksStand (g : Nat) (s : State) : s.booksStand (stopGroup g s) := by
  have stopped := setTrem_booksStand (g := g) (v := stoppedTrem (s.trem g)) (s := s) rfl
  unfold stopGroup
  dsimp only
  split
  · exact stopped
  · exact stopped.trans (paRelease_reach _ _).countsStand.tobooksStand

/-! ### The exit from READY -/

theorem ReachGrant.countsStand {s t : State} (h : ReachGrant s t) : s.countsStand t := h.pa.countsStand

theorem clearAllGroups_countsStand (s : State) : s.countsStand (clearAllGroups s) :=
  countsStand_foldl _ (fun s g => clearGroup_countsStand g s) _ s

theorem stopEffects_countsStand (s : State) : s.countsStand (stopEffects s) :=
  .of_blocks rfl rfl rfl rfl rfl rfl rfl

theorem eeExit_countsStand (s : State) : s.countsStand (eeExit s) :=
  (clearAllGroups_countsStand s).trans (stopEffects_countsStand _)

theorem tsuExit_booksStand (s : State) : s.booksStand (tsuExit s) := by
  obtain ⟨-, ee, -, dt⟩ := tsuExit_alone s
  have reach := tsuExit_reach s
  exact ⟨by rw [reach], by rw [reach], by rw [dt], by rw [ee], fun l => by unfold State.line; rw [reach],
    fun g => by rw [tsuExit_trem]; split <;> rfl⟩

theorem unclocked_booksStand (s : State) : s.booksStand s.unclocked := ⟨rfl, rfl, rfl, rfl, fun _ => rfl, fun _ => rfl⟩

theorem unclocked_trem (g : Nat) (s : State) : s.unclocked.trem g = s.trem g := rfl

theorem withChamber_booksStand (st : ChamberState) (s : State) : s.booksStand (s.withChamber st) :=
  ⟨rfl, rfl, rfl, rfl, fun _ => rfl, fun _ => rfl⟩

theorem exitBlocks_booksStand (s : State) : s.booksStand (exitBlocks s) :=
  (((paExit_reach s).countsStand.trans (eeExit_countsStand _)).tobooksStand.trans (tsuExit_booksStand _)).trans
    (unclocked_booksStand _)

/-- R119: after the exit none of the four groups runs. -/
theorem exitBlocks_running (s : State) (g : Nat) :
    ((exitBlocks s).trem g).running = if g < 4 then false else (s.trem g).running := by
  have before : (eeExit (paExit s)).tsu = s.tsu := by
    have reach := (paExit_reach s).pa.ee.trans (eeExit_reach _)
    unfold ReachEe at reach
    rw [reach]
  unfold exitBlocks
  rw [unclocked_trem, tsuExit_trem]
  split
  · rfl
  · unfold State.trem
    rw [before]

/-- R52, R119, R149: a change to a state other than READY. -/
theorem moveTo_countsStand {st : ChamberState} (away : st ≠ .ready) (s : State) : s.countsStand (moveTo st s) := by
  have told : ∀ v : State, v.countsStand (handPresence v) := fun v => handOver_countsStand _ v
  have moved := withChamber_booksStand st s
  unfold moveTo
  dsimp only
  split
  · next ready =>
    refine State.countsStand.trans ⟨moved.trans (exitBlocks_booksStand _), fun few sound g => ?_⟩
      ((driveLamps_countsStand false (exitBlocks (s.withChamber st))).trans (told _))
    have state : (exitBlocks (s.withChamber st)).ch.state = st := by rw [exitBlocks_ch]; rfl
    rw [exitBlocks_running, state]
    refine iff_of_false ?_ fun h => away h.1
    split
    · simp
    · next high =>
      intro runs
      have called := ((sound g).1 runs).2
      rw [few g (by omega)] at called
      exact Nat.lt_irrefl 0 called
  · next outside =>
    refine State.countsStand.trans ⟨moved, fun _ sound g => ?_⟩ (told _)
    refine iff_of_false (fun runs => outside ?_) fun h => away h.1
    exact State.isReady_iff.2 ((sound g).1 runs).1

/-! ### The entry to READY -/

theorem enterGroup_booksStand (s : State) (g : Nat) : s.booksStand (enterGroup s g) := by
  unfold enterGroup
  split
  · exact startGroup_booksStand g s
  · exact .refl s

theorem booksStand_foldl {β : Type} (f : State → β → State) (one : ∀ (s : State) x, s.booksStand (f s x)) (l : List β)
    (s : State) : s.booksStand (l.foldl f s) :=
  foldl_reach (fun s t : State => s.booksStand t) State.booksStand.refl (fun _ _ _ => State.booksStand.trans) f one l s

/-- R119: the first groups that are called run. -/
theorem enterGroups_running (n g : Nat) (s : State) :
    (((List.range n).foldl enterGroup s).trem g).running =
      ((s.trem g).running || (decide (g < n) && decide (0 < (s.trem g).onCount))) := by
  induction n with
  | zero => simp
  | succ n ih =>
    have count := (booksStand_foldl enterGroup enterGroup_booksStand (List.range n) s).onCount n
    rw [List.range_succ, List.foldl_append, List.foldl_cons, List.foldl_nil]
    generalize (List.range n).foldl enterGroup s = v at ih count
    unfold enterGroup
    split
    · next starts =>
      rw [startGroup_running, ih]
      rw [count] at starts
      by_cases own : g = n
      · subst own; simp [starts.1]
      · rw [if_neg own, show decide (g < n + 1) = decide (g < n) by simp; omega]
    · next still =>
      rw [ih]
      rw [count, not_and] at still
      by_cases own : g = n
      · subst own
        rw [ih] at still
        by_cases called : 0 < (s.trem g).onCount
        · have runs := still called
          simp at runs
          simp [runs]
        · simp [called]
      · rw [show decide (g < n + 1) = decide (g < n) by simp; omega]

/-- R119, R131: TSU's entry to READY. -/
theorem tsuEnter_books (s : State) :
    s.booksStand (tsuEnter s) ∧
      ∀ g, ((tsuEnter s).trem g).running = ((s.trem g).running || (decide (g < 4) && decide (0 < (s.trem g).onCount))) := by
  have groups := booksStand_foldl enterGroup enterGroup_booksStand (List.range 4) s
  have sets := countsStand_foldl (fun s x => shutterStep x s) (fun s x => shutterStep_countsStand x s) (List.range 2)
    ((List.range 4).foldl enterGroup s)
  have running := foldl_reach State.groupsStand State.groupsStand.refl (fun _ _ _ => State.groupsStand.trans)
    (fun s x => shutterStep x s) (fun s x => shutterStep_groupsStand x s) (List.range 2) ((List.range 4).foldl enterGroup s)
  exact ⟨groups.trans sets.tobooksStand, fun g => (running g).2.trans (enterGroups_running 4 g s)⟩

/-- R49, R51: DT's entry to READY starts its clocks and asks PA. -/
theorem dtEnter_books (s : State) : s.booksStand (dtEnter s) ∧ (dtEnter s).tsu = s.tsu := by
  have clocks : s.booksStand (startClocks s) ∧ (startClocks s).tsu = s.tsu := by
    have fold := foldl_reach (fun s t : State => s.booksStand t ∧ t.tsu = s.tsu) (fun s => ⟨.refl s, rfl⟩)
      (fun _ _ _ h k => ⟨h.1.trans k.1, k.2.trans h.2⟩)
      (fun (s : State) i =>
        match s.prof.windows[i]? with
        | some w =>
          if w.kind = .bar then
            { s with dt := { s.dt with clocks := s.dt.clocks.set i (s.after (ms w.reiteration)) } }
          else s
        | none => s)
      (fun s i => by
        split
        · split
          · exact ⟨⟨rfl, rfl, rfl, rfl, fun _ => rfl, fun _ => rfl⟩, rfl⟩
          · exact ⟨.refl s, rfl⟩
        · exact ⟨.refl s, rfl⟩)
      (List.range s.prof.windows.length) s
    exact fold
  have asked := forOutputs_reach paOpen_reach s.calledPipes (startClocks s)
  exact ⟨clocks.1.trans asked.countsStand.tobooksStand, asked.tsu_eq.trans clocks.2⟩

/-- What an entry to READY makes of the groups, in a state that is READY already. -/
structure State.groupsEnter (s t : State) : Prop where
  books : s.booksStand t
  state : t.ch.state = s.ch.state
  running : ∀ g, (t.trem g).running = ((s.trem g).running || (decide (g < 4) && decide (0 < (s.trem g).onCount)))

theorem tsuEnter_dtEnter_groupsEnter (s : State) : s.groupsEnter (tsuEnter (dtEnter s)) where
  books := (dtEnter_books s).1.trans (tsuEnter_books _).1
  state := by
    rw [(tsuEnter_reach (dtEnter s)).app, (dtEnter_reach s)]
  running g := by
    rw [(tsuEnter_books (dtEnter s)).2 g]
    unfold State.trem
    rw [(dtEnter_books s).2]

theorem dtEnter_tsuEnter_groupsEnter (s : State) : s.groupsEnter (dtEnter (tsuEnter s)) where
  books := (tsuEnter_books s).1.trans (dtEnter_books _).1
  state := by
    rw [(dtEnter_reach (tsuEnter s)), (tsuEnter_reach s).app]
  running g := by
    rw [← (tsuEnter_books s).2 g]
    unfold State.trem
    rw [(dtEnter_books (tsuEnter s)).2]

/-- R119: once the chamber is READY and the called groups have started, a group runs exactly while it is called. -/
theorem State.groupsEnter.countsStand {s t : State} (h : (s.withChamber .ready).groupsEnter t) : s.countsStand t := by
  refine ⟨(withChamber_booksStand .ready s).trans h.books, fun few sound g => ?_⟩
  have count := h.books.onCount g
  have law := sound g
  have running := h.running g
  simp only [State.trem_withChamber_other] at count running
  rw [h.state, count, running]
  show _ ↔ ChamberState.ready = .ready ∧ _
  by_cases low : g < 4
  · by_cases called : 0 < (s.trem g).onCount
    · simp [low, called]
    · have still : (s.trem g).running = false := by
        by_contra runs
        exact called ((law.1 (by simpa using runs)).2)
      simp [called, still]
  · have none := few g (by omega)
    have still : (s.trem g).running = false := by
      by_contra runs
      have := (law.1 (by simpa using runs)).2
      omega
    simp [none, still]

theorem withChoices_countsStand (n : Nat) (s : State) : s.countsStand { s with choices := n } :=
  .of_blocks rfl rfl rfl rfl rfl rfl rfl

theorem readyNotices_countsStand (s : State) : s.countsStand (readyNotices s) := by
  have onward : ∀ v : State, v.countsStand (driveLamps true (restartRest v)) := fun v =>
    (restartRest_countsStand v).trans (driveLamps_countsStand true _)
  unfold readyNotices
  dsimp only
  split
  · refine State.countsStand.trans ?_ (onward _)
    unfold eitherOrder
    dsimp only
    have picks := withChoices_countsStand ((s.withChamber .ready).choices + 1) (s.withChamber .ready)
    have picked : ∀ t, State.groupsEnter { s.withChamber .ready with choices := (s.withChamber .ready).choices + 1 } t →
        (s.withChamber .ready).groupsEnter t := fun t h =>
      ⟨picks.tobooksStand.trans h.books, h.state, h.running⟩
    split
    · exact (picked _ (tsuEnter_dtEnter_groupsEnter _)).countsStand
    · exact (picked _ (dtEnter_tsuEnter_groupsEnter _)).countsStand
  · exact (tsuEnter_dtEnter_groupsEnter _).countsStand.trans (onward _)

theorem handPresence_countsStand (s : State) : s.countsStand (handPresence s) := handOver_countsStand _ s

theorem enterReady_countsStand (s : State) : s.countsStand (enterReady s) :=
  (readyNotices_countsStand s).trans (handPresence_countsStand _)

/-! ### The chamber's scripts -/

theorem withSync_countsStand (sync : Option Nat) (s : State) :
    s.countsStand { s with ch := { s.ch with sync := sync } } := withCh_countsStand rfl

theorem withOrigin_countsStand (origin : Origin) (s : State) :
    s.countsStand { s with ch := { s.ch with origin := origin } } := withCh_countsStand rfl

theorem enterGathering_countsStand (s : State) : s.countsStand (enterGathering s) := by
  have moved := moveTo_countsStand (st := .gathering) (by decide) s
  unfold enterGathering
  dsimp only
  split
  · exact moved.trans (enterReady_countsStand _)
  · exact moved.trans (withSync_countsStand _ _)

theorem chamberEnded_countsStand (sc : Script) (s : State) : s.countsStand (chamberEnded sc s) := by
  unfold chamberEnded
  split
  · exact .ite (fun _ => .ite (fun _ => enterGathering_countsStand s) fun _ => enterReady_countsStand s) fun _ => .refl s
  · exact .ite (fun _ => moveTo_countsStand (by decide) s) fun _ => .refl s
  · exact .ite (fun _ => (withOrigin_countsStand .dark s).trans (moveTo_countsStand (by decide) _)) fun _ => .refl s
  · exact .refl s
  · exact .refl s

theorem runChamber_countsStand (s : State) : s.countsStand (runChamber s) := by
  unfold runChamber
  split
  · exact .refl s
  · next c _ =>
    split
    · have pass := runPass_countsStand 0 c s
      split
      · next e =>
        rw [e] at pass
        exact (pass.trans (setRunner_countsStand _ _ _)).trans (chamberEnded_countsStand _ _)
      · next e =>
        rw [e] at pass
        exact pass.trans (setRunner_countsStand _ _ _)
    · exact .refl s

theorem startScript_countsStand (sc : Script) (entry : Option Nat) (s : State) :
    s.countsStand (startScript sc entry s) := by
  unfold startScript
  split
  · exact (setRunner_countsStand _ _ s).trans (chamberEnded_countsStand _ _)
  · exact (setRunner_countsStand _ _ s).trans (runChamber_countsStand _)

theorem stopSync_countsStand (s : State) : s.countsStand (stopSync s) := withSync_countsStand none s

theorem enterDarkening_countsStand (s : State) : s.countsStand (enterDarkening s) :=
  (((setRunner_countsStand _ _ s).trans (stopSync_countsStand _)).trans (moveTo_countsStand (by decide) _)).trans
    (startScript_countsStand _ _ _)

theorem admitWake_countsStand (s : State) : s.countsStand (admitWake s) := by
  unfold admitWake
  dsimp only
  generalize (if s.ch.state = .dark then Origin.dark else .other) = origin
  have idle := (setRunner_countsStand 0 none s).trans (withOrigin_countsStand origin (s.setRunner 0 none))
  exact (idle.trans (moveTo_countsStand (by decide) _)).trans (startScript_countsStand _ _ _)

theorem offerWake_countsStand (cause : WakeCause) (s : State) : s.countsStand (offerWake cause s) :=
  .ite (fun _ => admitWake_countsStand s) fun _ => .refl s

theorem enterSettling_countsStand (s : State) : s.countsStand (enterSettling s) :=
  (moveTo_countsStand (by decide) s).trans (startScript_countsStand _ _ _)

theorem reportFault_countsStand (k : FaultKind) (a b : Nat) (s : State) : s.countsStand (reportFault k a b s) :=
  (reportFault_reach k a b s).pa.countsStand

theorem wakeTimeout_countsStand (l i : Nat) (s : State) : s.countsStand (wakeTimeout l i s) :=
  (reportFault_countsStand _ _ _ s).trans (enterDarkening_countsStand _)

theorem pressureLoss_countsStand (l : Nat) (s : State) : s.countsStand (pressureLoss l s) := by
  have winding : ∀ v : State, v.countsStand (startScript .wake (moveTo .winding v).prof.wakeEntry (moveTo .winding v)) :=
    fun v => (moveTo_countsStand (by decide) v).trans (startScript_countsStand _ _ _)
  unfold pressureLoss
  dsimp only
  split
  · exact ((reportFault_countsStand _ _ _ s).trans (withOrigin_countsStand .other _)).trans (winding _)
  · split
    · exact ((reportFault_countsStand _ _ _ s).trans (stopSync_countsStand _)).trans (winding _)
    · exact .refl s

theorem syncShort_countsStand (s : State) : s.countsStand (syncShort s) := by
  unfold syncShort
  split
  · exact (stopSync_countsStand s).trans (enterReady_countsStand _)
  · exact (((stopSync_countsStand s).trans (readyNotices_countsStand _)).trans (reportFault_countsStand _ _ _ _)).trans
      (handPresence_countsStand _)

theorem judgeGathering_countsStand (s : State) : s.countsStand (judgeGathering s) :=
  .ite (fun _ => (stopSync_countsStand s).trans (enterReady_countsStand _)) fun _ => .refl s

theorem restExpires_countsStand (s : State) : s.countsStand (restExpires s) :=
  .ite (fun _ => enterSettling_countsStand s) fun _ => restartRest_countsStand s

theorem resumePass_countsStand (r : Nat) (c : Context) (s : State) : s.countsStand (resumePass r c s) :=
  .ite (fun _ => (setRunner_countsStand _ _ s).trans (runChamber_countsStand _)) fun _ => runEffect_countsStand _ _ s

theorem inAnyOrder_countsStand {f : Nat → State → State} (one : ∀ r (s : State), s.countsStand (f r s)) (n : Nat)
    (l : List Nat) (s : State) : s.countsStand (inAnyOrder f n l s) := by
  induction n generalizing l s with
  | zero =>
    match l with
    | [] => exact .refl s
    | [r] => exact one r s
    | _ :: _ :: _ => exact .refl s
  | succ n ih =>
    match l with
    | [] => exact .refl s
    | [r] => exact one r s
    | _ :: _ :: _ => exact ((withChoices_countsStand _ s).trans (one _ _)).trans (ih _ _)

theorem offerMark_countsStand (m : Fin 64) (s : State) : s.countsStand (offerMark m s) :=
  inAnyOrder_countsStand (fun r s => by
    unfold takeMark
    split
    · exact .ite (fun _ => resumePass_countsStand _ _ _) fun _ => .refl s
    · exact .refl s) _ _ s

end Sys2Proof.Machine
end

section
/-! The arithmetic of an application (R42, R44, R45, R82, R118): what each delta does to the count that it is on, and an
application as a whole. -/

namespace Sys2Proof.Machine

/-! ### The counts -/

/-- R41, R82, R118: a count that deltas move: a count of DT, the trap part of a trigger count, or an on-count. -/
inductive Counter where
  | count (kind : CountKind) (output : Nat)
  | trap (effect : Nat)
  | group (group : Nat)
  deriving DecidableEq

/-- The count that a delta is on. -/
def Delta.counter : Delta → Counter
  | .count kind _ o _ => .count kind o
  | .effect e _ => .trap e
  | .group g _ => .group g

/-- The direction of a delta. -/
def Delta.rises : Delta → Bool
  | .count _ _ _ up | .effect _ up | .group _ up => up

/-- What a delta makes of the count `c`. -/
def Delta.moves (c : Counter) (n : Nat) (d : Delta) : Nat := if d.counter = c then moved d.rises n else n

/-- The count itself. -/
def State.counter (s : State) : Counter → Nat
  | .count kind o => s.dt.count kind o
  | .trap e => (s.trigger e).trap
  | .group g => (s.trem g).onCount

/-- How many deltas of a list raise the count `c`. -/
def risesOn (c : Counter) (l : List Delta) : Nat := l.countP fun d => decide (d.counter = c) && d.rises

/-- How many deltas of a list lower the count `c`. -/
def fallsOn (c : Counter) (l : List Delta) : Nat := l.countP fun d => decide (d.counter = c) && !d.rises

/-- Deltas that bring a count from `before` to `after`, with what neither they lower nor they raise standing through. -/
def Balanced (c : Counter) (l : List Delta) (before after : Nat) : Prop :=
  ∃ base, before = base + fallsOn c l ∧ after = base + risesOn c l

theorem Balanced.nil (c : Counter) (n : Nat) : Balanced c [] n n := ⟨n, rfl, rfl⟩

theorem Balanced.append {c : Counter} {l l' : List Delta} {b a b' a' : Nat} (h : Balanced c l b a)
    (k : Balanced c l' b' a') : Balanced c (l ++ l') (b + b') (a + a') := by
  obtain ⟨base, rfl, rfl⟩ := h
  obtain ⟨base', rfl, rfl⟩ := k
  refine ⟨base + base', ?_, ?_⟩
  · simp only [fallsOn, List.countP_append]; omega
  · simp only [risesOn, List.countP_append]; omega

/-- What stands beside a count stands through its deltas. -/
theorem Balanced.beside {c : Counter} {l : List Delta} {b a : Nat} (h : Balanced c l b a) (n : Nat) :
    Balanced c l (b + n) (a + n) := by
  obtain ⟨base, rfl, rfl⟩ := h
  exact ⟨base + n, by omega, by omega⟩

theorem Balanced.flatten {c : Counter} {α : Type} {f : α → List Delta} {b a : α → Nat} (l : List α)
    (each : ∀ x ∈ l, Balanced c (f x) (b x) (a x)) : Balanced c (l.map f).flatten (l.map b).sum (l.map a).sum := by
  induction l with
  | nil => exact .nil c 0
  | cons x rest ih =>
    simp only [List.map_cons, List.flatten_cons, List.sum_cons]
    exact (each x List.mem_cons_self).append (ih fun y m => each y (List.mem_cons_of_mem _ m))

/-- R44: a count never falls below 0 on the way, and so ends at the balance. -/
theorem Balanced.moves {c : Counter} {l : List Delta} {b a : Nat} (h : Balanced c l b a) : l.foldl (Delta.moves c) b = a := by
  induction l generalizing b a with
  | nil =>
    obtain ⟨base, rfl, rfl⟩ := h
    rfl
  | cons d rest ih =>
    obtain ⟨base, rfl, rfl⟩ := h
    rw [List.foldl_cons]
    refine ih ?_
    unfold Delta.moves fallsOn risesOn
    rw [List.countP_cons, List.countP_cons]
    by_cases on : d.counter = c
    · cases up : d.rises
      · exact ⟨base, by simp [on, moved, fallsOn], by simp [on, risesOn]⟩
      · exact ⟨base + 1, by simp [on, moved, fallsOn]; omega, by simp [on, risesOn]; omega⟩
    · exact ⟨base, by simp [on, fallsOn], by simp [on, risesOn]⟩

/-! ### One delta -/

/-- R38: the delta is withheld. -/
def Delta.withheld (withhold : Bool) : Delta → Bool
  | .effect _ _ => withhold
  | .count _ _ _ _ | .group _ _ => false

/-- The sets of DT, and its counts: what the deltas move. -/
def Delta.takenDt (d : Delta) (dt : Dt) : Dt :=
  match d with
  | .count .pipe _ o up => { dt with pipe := dt.pipe.set o (moved up (dt.pipe.get o)) }
  | .count .single _ o up => { dt with single := dt.single.set o (moved up (dt.single.get o)) }
  | .count .reiterate w o up =>
    { dt with
      reiterate := dt.reiterate.set o (moved up (dt.reiterate.get o))
      sets := dt.sets.set w
        (if up then insertAscending o (dt.sets.get w)
          else if dt.reiterate.get o = 1 then (dt.sets.get w).filter (· != o) else dt.sets.get w) }
  | .effect _ _ | .group _ _ => dt

theorem takeDelta_dt (ready withhold : Bool) (s : State) (log : AppLog) (d : Delta) :
    (takeDelta ready withhold (s, log) d).1.dt = d.takenDt s.dt := by
  match d with
  | .count .pipe w o up =>
    obtain ⟨rises, falls⟩ := takeDelta_pipe ready withhold s log w o
    cases up
    · rw [falls]
      dsimp only
      split
      · next one => rw [paRelease_eq]; simp [Delta.takenDt, moved, one.2]
      · rfl
    · rw [rises]
      dsimp only
      split
      · next zero => rw [paOpen_reach]; simp [Delta.takenDt, moved, zero.2]
      · rfl
  | .count .single w o up => rfl
  | .count .reiterate w o up => rfl
  | .effect e up => cases withhold <;> rfl
  | .group g up =>
    show (groupDelta g up s).dt = s.dt
    rw [groupDelta_reach g up s]

theorem Delta.takenDt_count (d : Delta) (dt : Dt) (kind : CountKind) (o : Nat) :
    (d.takenDt dt).count kind o = d.moves (.count kind o) (dt.count kind o) := by
  unfold Delta.moves Delta.counter Delta.rises
  match d with
  | .count kind' w o' up =>
    cases kind' <;> cases kind <;> simp [Delta.takenDt, Dt.count, Table.get_set, eq_comm (a := o')] <;> split <;> simp_all
  | .effect _ _ | .group _ _ => simp [Delta.takenDt]

/-- R118, R119: a delta on an on-count moves it by one. -/
theorem groupDelta_onCount (g : Nat) (up : Bool) (s : State) (g' : Nat) :
    ((groupDelta g up s).trem g').onCount = (Delta.group g up).moves (.group g') (s.trem g').onCount := by
  have written : ∀ n, ((s.setTrem g { s.trem g with onCount := n }).trem g').onCount =
      if g' = g then n else (s.trem g').onCount := fun n => by
    rw [State.trem_setTrem]
    split <;> rfl
  have move : (Delta.group g up).moves (.group g') (s.trem g').onCount =
      if g' = g then moved up (s.trem g).onCount else (s.trem g').onCount := by
    unfold Delta.moves Delta.counter Delta.rises
    by_cases own : g' = g
    · subst own; simp
    · simp [own, Ne.symm own]
  rw [move]
  unfold groupDelta
  dsimp only
  cases up
  · rw [if_neg (by simp)]
    split
    · rw [(stopGroup_booksStand _ _).onCount, written]; rfl
    · rw [written]; rfl
  · rw [if_pos rfl]
    split
    · rw [(startGroup_booksStand _ _).onCount, written]; rfl
    · rw [written]; rfl

theorem takeDelta_counter (ready withhold : Bool) (s : State) (log : AppLog) (d : Delta) (c : Counter) :
    (takeDelta ready withhold (s, log) d).1.counter c =
      if d.withheld withhold = true then s.counter c else d.moves c (s.counter c) := by
  have keeps : ∀ {c' : Counter}, d.counter ≠ c' → ∀ n, (if d.withheld withhold = true then n else d.moves c' n) = n :=
    fun differ n => by simp [Delta.moves, differ]
  match c with
  | .count kind o =>
    show (takeDelta ready withhold (s, log) d).1.dt.count kind o = _
    rw [takeDelta_dt, Delta.takenDt_count]
    match d with
    | .count kind' w o' up => rfl
    | .effect e up => rw [keeps (by simp [Delta.counter])]; simp [Delta.moves, Delta.counter, State.counter]
    | .group g up => rfl
  | .trap e =>
    show ((takeDelta ready withhold (s, log) d).1.trigger e).trap = _
    rw [takeDelta_trigger]
    match d with
    | .count kind' w o' up => rw [keeps (by simp [Delta.counter])]; rfl
    | .effect e' up =>
      unfold Delta.triggered Delta.withheld Delta.moves Delta.counter Delta.rises State.counter
      cases withhold <;> by_cases own : e' = e <;> simp [own]
    | .group g up => rw [keeps (by simp [Delta.counter])]; rfl
  | .group g =>
    show ((takeDelta ready withhold (s, log) d).1.trem g).onCount = _
    match d with
    | .count kind' w o' up =>
      rw [keeps (by simp [Delta.counter])]
      unfold State.trem
      rw [takeDelta_tsu _ _ _ (by trivial)]
      rfl
    | .effect e' up =>
      rw [keeps (by simp [Delta.counter])]
      unfold State.trem
      rw [takeDelta_tsu _ _ _ (by trivial)]
      rfl
    | .group g' up => exact groupDelta_onCount g' up s g

/-! ### What an application leaves -/

/-- What an application leaves of what the counts speak of: all but the counts and the sets of DT, and the groups run as
R119 says. -/
structure State.movesCounts (s t : State) : Prop where
  profile : t.profile = s.profile
  km : t.km = s.km
  tuning : t.dt.tuning = s.dt.tuning
  debounced : ∀ l, (t.line l).debounced = (s.line l).debounced
  stud : ∀ e, (t.trigger e).stud = (s.trigger e).stud
  cue : ∀ e, (t.trigger e).cue = (s.trigger e).cue
  trems : s.TremsSound → t.TremsSound

theorem State.movesCounts.refl (s : State) : s.movesCounts s :=
  ⟨rfl, rfl, rfl, fun _ => rfl, fun _ => rfl, fun _ => rfl, id⟩

theorem State.movesCounts.trans {a b c : State} (h : a.movesCounts b) (k : b.movesCounts c) : a.movesCounts c where
  profile := k.profile.trans h.profile
  km := k.km.trans h.km
  tuning := k.tuning.trans h.tuning
  debounced l := (k.debounced l).trans (h.debounced l)
  stud e := (k.stud e).trans (h.stud e)
  cue e := (k.cue e).trans (h.cue e)
  trems sound := k.trems (h.trems sound)

theorem State.movesCounts.prof {s t : State} (h : s.movesCounts t) : t.prof = s.prof := by
  unfold State.prof
  rw [h.profile]

/-- R119: a group whose on-count rises starts where the chamber is READY, and one whose on-count falls to 0 stops. -/
theorem groupDelta_trems (g : Nat) (up : Bool) {s : State} (sound : s.TremsSound) : (groupDelta g up s).TremsSound := by
  intro g'
  have law := sound g
  have law' := sound g'
  have written : ∀ v : Trem, (((s.setTrem g v).trem g').running = true ↔
      s.ch.state = .ready ∧ 0 < ((s.setTrem g v).trem g').onCount) ↔
      (g' = g → (v.running = true ↔ s.ch.state = .ready ∧ 0 < v.onCount)) := fun v => by
    rw [State.trem_setTrem]
    split
    · next own => simp [own]
    · next other => simp [other, law']
  unfold groupDelta
  dsimp only
  cases up
  · rw [if_neg (by simp)]
    split
    · next stops =>
      have state : (stopGroup g (s.setTrem g { s.trem g with onCount := (s.trem g).onCount - 1 })).ch.state =
          s.ch.state := by rw [stopGroup_reach]; rfl
      rw [stopGroup_running, (stopGroup_booksStand _ _).onCount, state, State.trem_setTrem]
      split
      · have none : (s.trem g).onCount - 1 = 0 := by omega
        simp [none]
      · exact law'
    · next goes =>
      refine (written _).2 fun _ => ?_
      show (s.trem g).running = true ↔ s.ch.state = .ready ∧ 0 < (s.trem g).onCount - 1
      rw [law]
      rw [law] at goes
      exact ⟨fun h => ⟨h.1, by have := h.2; by_contra low; exact goes ⟨by omega, h⟩⟩, fun h => ⟨h.1, by omega⟩⟩
  · rw [if_pos rfl]
    split
    · next starts =>
      have ready : s.ch.state = .ready := State.isReady_iff.1 starts.2.2
      have state : (startGroup g (s.setTrem g { s.trem g with onCount := (s.trem g).onCount + 1 })).ch.state =
          s.ch.state := by rw [startGroup_reach]; rfl
      rw [startGroup_running, (startGroup_booksStand _ _).onCount, state, State.trem_setTrem]
      split
      · simp [ready]
      · exact law'
    · next stands =>
      refine (written _).2 fun _ => ?_
      show (s.trem g).running = true ↔ s.ch.state = .ready ∧ 0 < (s.trem g).onCount + 1
      rw [law]
      refine ⟨fun h => ⟨h.1, by omega⟩, fun h => ⟨h.1, ?_⟩⟩
      by_contra none
      have zero : (s.trem g).onCount = 0 := by omega
      refine stands ⟨zero, ?_, State.isReady_iff.2 h.1⟩
      by_contra runs
      have := (law.1 (by simpa using runs)).2
      omega

theorem State.TremsSound.of_same {s t : State} (sound : s.TremsSound) (tsu : t.tsu = s.tsu)
    (state : t.ch.state = s.ch.state) : t.TremsSound := fun g => by
  have law := sound g
  unfold State.trem at law ⊢
  rw [tsu, state]
  exact law

theorem takeDelta_ll (ready withhold : Bool) (s : State) (log : AppLog) (d : Delta) :
    (takeDelta ready withhold (s, log) d).1.ll = s.ll := by
  match d with
  | .count .pipe w o up =>
    obtain ⟨rises, falls⟩ := takeDelta_pipe ready withhold s log w o
    cases up
    · rw [falls]
      dsimp only
      split
      · rw [paRelease_eq]
      · rfl
    · rw [rises]
      dsimp only
      split
      · rw [paOpen_reach]
      · rfl
  | .count .single w o up => rfl
  | .count .reiterate w o up => rfl
  | .effect e up => cases withhold <;> rfl
  | .group g up =>
    show (groupDelta g up s).ll = s.ll
    rw [groupDelta_reach g up s]

theorem takeDelta_movesCounts (ready withhold : Bool) (s : State) (log : AppLog) (d : Delta) :
    s.movesCounts (takeDelta ready withhold (s, log) d).1 := by
  have reach := takeDelta_reach ready withhold (s, log) d
  have tuning : (d.takenDt s.dt).tuning = s.dt.tuning := by
    match d with
    | .count .pipe _ _ _ | .count .single _ _ _ | .count .reiterate _ _ _ | .effect _ _ | .group _ _ => rfl
  have keyParts : ∀ e v, (d.triggered withhold e v).stud = v.stud ∧ (d.triggered withhold e v).cue = v.cue := fun e v => by
    match d with
    | .effect e' up => unfold Delta.triggered; dsimp only; split <;> exact ⟨rfl, rfl⟩
    | .count _ _ _ _ | .group _ _ => exact ⟨rfl, rfl⟩
  refine ⟨by rw [reach], by rw [reach], by rw [takeDelta_dt, tuning], fun l => ?_, fun e => ?_, fun e => ?_, fun sound => ?_⟩
  · unfold State.line; rw [takeDelta_ll]
  · rw [takeDelta_trigger, (keyParts e _).1]
  · rw [takeDelta_trigger, (keyParts e _).2]
  · match d with
    | .group g up => exact groupDelta_trems g up sound
    | .count _ _ _ _ | .effect _ _ =>
      exact sound.of_same (takeDelta_tsu _ _ _ (by trivial)) (by rw [reach])

theorem takenDeltas_movesCounts (ready withhold : Bool) (s : State) (l : List Delta) :
    s.movesCounts (takenDeltas ready withhold s l).1 := by
  induction l using List.reverseRecOn with
  | nil => exact .refl s
  | append_singleton l d ih =>
    rw [takenDeltas_snoc]
    exact ih.trans (takeDelta_movesCounts ready withhold (takenDeltas ready withhold s l).1 _ d)

theorem takenDeltas_counter (ready withhold : Bool) (s : State) (l : List Delta) (c : Counter) :
    (takenDeltas ready withhold s l).1.counter c =
      (l.filter fun d => !d.withheld withhold).foldl (Delta.moves c) (s.counter c) := by
  induction l using List.reverseRecOn with
  | nil => rfl
  | append_singleton l d ih =>
    rw [takenDeltas_snoc, List.filter_append, List.foldl_append, ← ih]
    refine (takeDelta_counter ready withhold (takenDeltas ready withhold s l).1 _ d c).trans ?_
    cases held : d.withheld withhold <;> simp [held]

/-- The close of an application, or of part of one: neither counts nor groups move. -/
structure State.closes (s t : State) : Prop where
  books : s.booksStand t
  tsu : t.tsu = s.tsu
  state : t.ch.state = s.ch.state

theorem State.closes.trans {a b c : State} (h : a.closes b) (k : b.closes c) : a.closes c :=
  ⟨h.books.trans k.books, k.tsu.trans h.tsu, k.state.trans h.state⟩

theorem closeApplication_closes (ready : Bool) (log : AppLog) (s : State) : s.closes (closeApplication ready log s) := by
  have strikes : ∀ l (v : State), v.closes (forOutputs strikeBar l v) := fun l v => by
    have reach := forOutputs_reach strikeBar_reach l v
    exact ⟨reach.countsStand.tobooksStand, reach.tsu_eq, by rw [reach]⟩
  have acts : ∀ l (v : State), v.closes (actOnEffects l v) := fun l v => by
    have reach : ReachTrig v (actOnEffects l v) :=
      foldl_reach ReachTrig ReachTrig.refl (fun _ _ _ => ReachTrig.trans) _ (fun s _ => countMoved_reach _ _ _ s) l v
    exact ⟨(actOnEffects_countsStand l v).tobooksStand, reach.tsu_eq, by rw [reach]⟩
  unfold closeApplication
  dsimp only
  generalize (if ready then log.bars else []) = bars
  split
  · exact eitherOrder_reach State.closes (fun _ _ _ => State.closes.trans)
      (fun v n => ⟨(withChoices_countsStand n v).tobooksStand, rfl, rfl⟩) (strikes bars) (acts log.effects) s
  · exact (strikes _ s).trans (acts _ _)

theorem State.closes.movesCounts {s t : State} (h : s.closes t) : s.movesCounts t where
  profile := h.books.profile
  km := h.books.km
  tuning := by rw [h.books.dt]
  debounced := h.books.debounced
  stud e := by unfold State.trigger; rw [h.books.triggers]
  cue e := by unfold State.trigger; rw [h.books.triggers]
  trems sound := sound.of_same h.tsu h.state

theorem State.booksStand.counter {s t : State} (h : s.booksStand t) (c : Counter) : t.counter c = s.counter c := by
  match c with
  | .count kind o => show t.dt.count kind o = s.dt.count kind o; rw [h.dt]; cases kind <;> rfl
  | .trap e => show (t.trigger e).trap = (s.trigger e).trap; unfold State.trigger; rw [h.triggers]
  | .group g => exact h.onCount g

theorem application_movesCounts (withhold : Bool) (l : List Delta) (s : State) :
    s.movesCounts (application withhold l s) :=
  (takenDeltas_movesCounts s.isReady withhold s l).trans (closeApplication_closes _ _ _).movesCounts

theorem application_counter (withhold : Bool) (l : List Delta) (s : State) (c : Counter) :
    (application withhold l s).counter c =
      (l.filter fun d => !d.withheld withhold).foldl (Delta.moves c) (s.counter c) := by
  rw [application_eq, (closeApplication_closes _ _ _).books.counter, takenDeltas_counter]

/-- R42: an application without withheld deltas brings a count from what its deltas balance to what they balance to. -/
theorem application_balanced {l : List Delta} {s : State} {c : Counter} {after : Nat}
    (h : Balanced c l (s.counter c) after) : (application false l s).counter c = after := by
  have all : (l.filter fun d => !d.withheld false) = l :=
    List.filter_eq_self.2 fun d _ => by cases d <;> rfl
  rw [application_counter, all, h.moves]

/-- R38: withheld deltas leave the counts of DT as they would move, and the on-counts. -/
theorem application_balanced_withheld {l : List Delta} {s : State} {c : Counter} {after : Nat}
    (other : ∀ e, c ≠ .trap e) (h : Balanced c l (s.counter c) after) : (application true l s).counter c = after := by
  have skip : ∀ (l : List Delta) n, (l.filter fun d => !d.withheld true).foldl (Delta.moves c) n = l.foldl (Delta.moves c) n := by
    intro l
    induction l with
    | nil => exact fun _ => rfl
    | cons d rest ih =>
      intro n
      cases held : d.withheld true
      · simp [held, ih]
      · have still : d.moves c n = n := by
          match d with
          | .effect e up => exact if_neg (Ne.symm (other e))
        simp [held, ih, still]
  rw [application_counter, skip, h.moves]

/-! ### The reiteration sets (R40, R48) -/

/-- A reiterate delta names a window of the profile and an output of it, and a delta on an on-count one of the groups. -/
def Delta.fits (p : Profile) : Delta → Prop
  | .count .reiterate w o _ => ∃ x, p.windows[w]? = some x ∧ x.contains o = true
  | .group g _ => g < 4
  | .count .pipe _ _ _ | .count .single _ _ _ | .effect _ _ => True

/-- R40, R48: the sets of DT hold their windows' reiterating outputs, ascending. -/
structure Dt.setsSound (p : Profile) (dt : Dt) : Prop where
  member : ∀ i w o, p.windows[i]? = some w → w.contains o = true → (o ∈ dt.sets.get i ↔ 0 < dt.reiterate.get o)
  ascending : ∀ i, (dt.sets.get i).Pairwise (· < ·)

theorem mem_insertAscending {n m : Nat} {l : List Nat} : m ∈ insertAscending n l ↔ m = n ∨ m ∈ l := by
  induction l with
  | nil => simp [insertAscending]
  | cons x rest ih =>
    unfold insertAscending
    split
    · simp
    · split
      · next same => subst same; simp
      · simp only [List.mem_cons, ih]
        tauto

theorem insertAscending_pairwise {n : Nat} {l : List Nat} (h : l.Pairwise (· < ·)) :
    (insertAscending n l).Pairwise (· < ·) := by
  induction l with
  | nil => exact List.pairwise_singleton _ _
  | cons x rest ih =>
    obtain ⟨first, tail⟩ := List.pairwise_cons.1 h
    unfold insertAscending
    split
    · next low =>
      refine List.pairwise_cons.2 ⟨fun y m => ?_, h⟩
      rcases List.mem_cons.1 m with rfl | m
      · exact low
      · exact Nat.lt_trans low (first y m)
    · split
      · exact h
      · refine List.pairwise_cons.2 ⟨fun y m => ?_, ih tail⟩
        rcases mem_insertAscending.1 m with rfl | m
        · omega
        · exact first y m

/-- R2: an output lies in one window. -/
def Profile.apart (p : Profile) : Prop :=
  ∀ (i j : Nat) (v w : Window) (o : Nat), p.windows[i]? = some v → p.windows[j]? = some w → v.contains o = true → w.contains o = true → i = j

theorem Profile.InRange.apart {p : Profile} (h : p.InRange) : p.apart := by
  have order : ∀ (i j : Nat) (v w : Window) (o : Nat), i < j → p.windows[i]? = some v → p.windows[j]? = some w → v.contains o = true →
      w.contains o = true → False := by
    intro i j v w o low hv hw cv cw
    obtain ⟨li, rfl⟩ := List.getElem?_eq_some_iff.1 hv
    obtain ⟨lj, rfl⟩ := List.getElem?_eq_some_iff.1 hw
    have apart := List.pairwise_iff_getElem.1 h.disjoint i j li lj low o cv
    rw [cw] at apart
    cases apart
  intro i j v w o hv hw cv cw
  rcases Nat.lt_trichotomy i j with low | same | high
  · exact (order i j v w o low hv hw cv cw).elim
  · exact same
  · exact (order j i w v o high hw hv cw cv).elim

theorem Dt.setsSound.takenDt {p : Profile} {dt : Dt} (h : dt.setsSound p) (apart : p.apart) {d : Delta} (fits : d.fits p) :
    (d.takenDt dt).setsSound p := by
  match d with
  | .count .pipe _ _ _ | .count .single _ _ _ | .effect _ _ | .group _ _ => exact ⟨h.member, h.ascending⟩
  | .count .reiterate wn o up =>
    obtain ⟨x, window, within⟩ := fits
    have own := h.member wn x o window within
    constructor
    · intro i w o' hw cw
      have stands := h.member i w o' hw cw
      simp only [Delta.takenDt, Table.get_set]
      by_cases sameOutput : o' = o
      · subst sameOutput
        obtain rfl : i = wn := apart i wn w x o' hw window cw within
        rw [if_pos rfl, if_pos rfl]
        cases up
        · by_cases one : dt.reiterate.get o' = 1
          · simp [one, moved]
          · simp only [one, moved, Bool.false_eq_true, if_false]
            rw [stands]
            omega
        · simp [mem_insertAscending, moved]
      · rw [if_neg sameOutput, ← stands]
        split
        · next same =>
          subst same
          cases up
          · by_cases one : dt.reiterate.get o = 1 <;> simp [one, sameOutput]
          · simp [mem_insertAscending, sameOutput]
        · rfl
    · intro i
      simp only [Delta.takenDt, Table.get_set]
      split
      · cases up
        · split
          · next impossible => cases impossible
          · split
            · exact (h.ascending wn).filter _
            · exact h.ascending wn
        · exact insertAscending_pairwise (h.ascending wn)
      · exact h.ascending i

theorem State.SetsSound.dt {s : State} (h : s.SetsSound) : s.dt.setsSound s.prof := ⟨h.member, h.ascending⟩

theorem takenDeltas_sets (ready withhold : Bool) {s : State} {l : List Delta} (apart : s.prof.apart)
    (fits : ∀ d ∈ l, d.fits s.prof) (h : s.dt.setsSound s.prof) :
    (takenDeltas ready withhold s l).1.dt.setsSound s.prof := by
  induction l using List.reverseRecOn with
  | nil => exact h
  | append_singleton l d ih =>
    rw [takenDeltas_snoc]
    have taken := takeDelta_dt ready withhold (takenDeltas ready withhold s l).1 (takenDeltas ready withhold s l).2 d
    rw [taken]
    exact (ih fun x m => fits x (List.mem_append_left _ m)).takenDt apart
      (fits d (List.mem_append_right _ (List.mem_singleton_self d)))

theorem application_sets (withhold : Bool) {s : State} {l : List Delta} (apart : s.prof.apart)
    (fits : ∀ d ∈ l, d.fits s.prof) (h : s.dt.setsSound s.prof) :
    (application withhold l s).dt.setsSound s.prof := by
  have taken := takenDeltas_sets s.isReady withhold apart fits h
  rw [application_eq, (closeApplication_closes _ _ _).books.dt]
  exact ⟨taken.member, taken.ascending⟩

end Sys2Proof.Machine
end

section
/-! What the counts are to be (R41, R82, R118): the sources of every count, said in one way, and the deltas of RE as the
balance of two such sums. -/

namespace Sys2Proof.Machine

/-- Deltas that all rise. -/
theorem Balanced.rises_flatten {c : Counter} {α : Type} {f : α → List Delta} {a : α → Nat} (l : List α)
    (each : ∀ x ∈ l, Balanced c (f x) 0 (a x)) : Balanced c (l.map f).flatten 0 (l.map a).sum := by
  have flat := Balanced.flatten (b := fun _ => 0) l each
  rwa [List.map_const', List.sum_replicate, smul_zero] at flat

/-- Deltas that all fall. -/
theorem Balanced.falls_flatten {c : Counter} {α : Type} {f : α → List Delta} {b : α → Nat} (l : List α)
    (each : ∀ x ∈ l, Balanced c (f x) (b x) 0) : Balanced c (l.map f).flatten (l.map b).sum 0 := by
  have flat := Balanced.flatten (a := fun _ => 0) l each
  rwa [List.map_const', List.sum_replicate, smul_zero] at flat

/-! ### What an entry calls for -/

/-- R15: what an entry adds to the count `c` for one key whose condition holds. -/
def StopEntry.keyCalls (p : Profile) (e : StopEntry) (k : Nat) (c : Counter) : Nat := risesOn c (e.keyDelta p k true)

/-- What an entry that is ON adds to the count `c`: its keys whose condition holds, or its group. -/
def StopEntry.calls (p : Profile) (touch : Nat → Nat → Touch) (pizz : Nat → Nat → Bool) (c : Counter) (e : StopEntry) : Nat :=
  match e.kind with
  | .trem g => if c = .group g then 1 else 0
  | .voice _ _ _ _ _ _ | .trap _ _ =>
    ((List.range (p.keyCount e.division)).map fun k =>
      if e.holds (touch e.division k) (pizz e.division k) = true then e.keyCalls p k c else 0).sum

/-- What the ON entries add to the count `c`. -/
def Profile.calls (p : Profile) (on : Table Bool) (touch : Nat → Nat → Touch) (pizz : Nat → Nat → Bool) (c : Counter) : Nat :=
  (p.entries.map fun e => if on.get e.stop = true then e.calls p touch pizz c else 0).sum

/-- What the state's ON entries add to the count `c`. -/
def State.calls (s : State) (c : Counter) : Nat := s.prof.calls s.km.stopOn s.mergedTouch s.hasPizz c

/-- What a tuning hold on output `h` adds to the count `c`. -/
def Profile.heldBy (p : Profile) (h : Option Nat) : Counter → Nat
  | .count kind o => if h = some o ∧ p.tuneKind o = some kind then 1 else 0
  | .trap _ | .group _ => 0

/-- The count is what its sources give. -/
def State.Counted (s : State) (c : Counter) : Prop :=
  s.counter c = s.calls c + s.prof.heldBy (s.dt.tuning.map (·.output)) c

/-- R15: a delta of an entry for a key rises or falls as it is asked, on one and the same count. -/
theorem StopEntry.keyDelta_balanced (p : Profile) (e : StopEntry) (k : Nat) (c : Counter) :
    Balanced c (e.keyDelta p k true) 0 (e.keyCalls p k c) ∧ Balanced c (e.keyDelta p k false) (e.keyCalls p k c) 0 := by
  have turned : ∀ given : Bool → Delta, (∀ up, (given up).rises = up) → (∀ up, (given up).counter = (given true).counter) →
      fallsOn c [given true] = 0 ∧ risesOn c [given false] = 0 ∧ fallsOn c [given false] = risesOn c [given true] := by
    intro given rises same
    simp [fallsOn, risesOn, rises, same false]
  have one : (∀ up, e.keyDelta p k up = []) ∨ ∃ given : Bool → Delta, (∀ up, e.keyDelta p k up = [given up]) ∧
      (∀ up, (given up).rises = up) ∧ ∀ up, (given up).counter = (given true).counter := by
    unfold StopEntry.keyDelta
    cases e.kind with
    | trem g => exact .inl fun _ => rfl
    | trap f cond => exact .inr ⟨fun up => .effect f up, fun _ => rfl, fun _ => rfl, fun _ => rfl⟩
    | voice wn offset mode top bottom cond =>
      dsimp only
      cases p.windows[wn]? with
      | none => exact .inl fun _ => rfl
      | some w =>
        dsimp only
        cases resolve (p.baseNote e.division) k offset w top bottom with
        | none => exact .inl fun _ => rfl
        | some o =>
          exact .inr ⟨fun up => .count (countKind w.kind mode) wn o up, fun _ => rfl, fun _ => rfl, fun _ => rfl⟩
  unfold StopEntry.keyCalls
  rcases one with none | ⟨given, eq, rises, same⟩
  · rw [none, none]
    exact ⟨.nil c 0, .nil c 0⟩
  · obtain ⟨up, down, turn⟩ := turned given rises same
    rw [eq, eq]
    exact ⟨⟨0, by rw [up], by rw [Nat.zero_add]⟩, ⟨0, by rw [turn, Nat.zero_add], by rw [down]⟩⟩

/-- A sum over the keys of a division, of which one changes. -/
theorem sum_range_update {n k : Nat} (low : k < n) {f f' : Nat → Nat} (same : ∀ j, j < n → j ≠ k → f j = f' j) :
    ∃ base, ((List.range n).map f).sum = base + f k ∧ ((List.range n).map f').sum = base + f' k := by
  induction n with
  | zero => omega
  | succ n ih =>
    simp only [List.range_succ, List.map_append, List.sum_append, List.map_cons, List.map_nil, List.sum_cons, List.sum_nil]
    by_cases last : k = n
    · subst last
      refine ⟨((List.range k).map f).sum, by omega, ?_⟩
      rw [List.map_congr_left (f := f') (g := f) fun j m => by
        have := List.mem_range.1 m
        exact (same j (by omega) (by omega)).symm]
      omega
    · obtain ⟨base, e, e'⟩ := ih (by omega) fun j lj => same j (by omega)
      rw [e, e', same n (by omega) (Ne.symm last)]
      exact ⟨base + f' n, by omega, by omega⟩

/-- What an entry calls for, where one key of its division changes. -/
theorem StopEntry.calls_at {p : Profile} {e : StopEntry} {k : Nat} (low : k < p.keyCount e.division)
    {touch touch' : Nat → Nat → Touch} {pizz pizz' : Nat → Nat → Bool}
    (sameTouch : ∀ j, j < p.keyCount e.division → j ≠ k → touch e.division j = touch' e.division j)
    (samePizz : ∀ j, j < p.keyCount e.division → j ≠ k → pizz e.division j = pizz' e.division j) (c : Counter) :
    ∃ base,
      e.calls p touch pizz c =
        base + (if e.holds (touch e.division k) (pizz e.division k) = true then e.keyCalls p k c else 0) ∧
      e.calls p touch' pizz' c =
        base + (if e.holds (touch' e.division k) (pizz' e.division k) = true then e.keyCalls p k c else 0) := by
  unfold StopEntry.calls
  cases kind : e.kind with
  | trem g =>
    have none : ∀ t z, e.holds t z = false := fun t z => by unfold StopEntry.holds; rw [kind]
    exact ⟨if c = .group g then 1 else 0, by simp [none], by simp [none]⟩
  | voice _ _ _ _ _ _ | trap _ _ =>
    exact sum_range_update low (f := fun k => if e.holds (touch e.division k) (pizz e.division k) = true then
      e.keyCalls p k c else 0) (f' := fun k => if e.holds (touch' e.division k) (pizz' e.division k) = true then
      e.keyCalls p k c else 0) fun j lj other => by simp only [sameTouch j lj other, samePizz j lj other]

/-- What an entry calls for depends on its own division. -/
theorem StopEntry.calls_congr {p : Profile} {e : StopEntry} {touch touch' : Nat → Nat → Touch}
    {pizz pizz' : Nat → Nat → Bool} (same : ∀ j, j < p.keyCount e.division →
      e.holds (touch e.division j) (pizz e.division j) = e.holds (touch' e.division j) (pizz' e.division j))
    (c : Counter) : e.calls p touch pizz c = e.calls p touch' pizz' c := by
  unfold StopEntry.calls
  cases e.kind with
  | trem g => rfl
  | voice _ _ _ _ _ _ | trap _ _ =>
    exact congrArg List.sum (List.map_congr_left fun j m => by rw [same j (List.mem_range.1 m)])

/-! ### The deltas of RE balance -/

/-- One key's touch and pizzicato entry become what they are in `touch'` and `pizz'`; the other keys stand. -/
structure KeyMoves (p : Profile) (d k : Nat) (touch touch' : Nat → Nat → Touch) (pizz pizz' : Nat → Nat → Bool) : Prop where
  touch : ∀ i j, j < p.keyCount i → ¬ (i = d ∧ j = k) → touch i j = touch' i j
  pizz : ∀ i j, j < p.keyCount i → ¬ (i = d ∧ j = k) → pizz i j = pizz' i j

section
variable {p : Profile} {d k : Nat} {touch touch' : Nat → Nat → Touch} {pizz pizz' : Nat → Nat → Bool}

/-- R15: what an entry gives for the key that moves. -/
theorem KeyMoves.changed (h : KeyMoves p d k touch touch' pizz pizz') {e : StopEntry} (own : e.division = d)
    (low : k < p.keyCount d) (c : Counter) :
    Balanced c (e.changed p k (e.holds (touch d k) (pizz d k)) (e.holds (touch' d k) (pizz' d k)))
      (e.calls p touch pizz c) (e.calls p touch' pizz' c) := by
  subst own
  obtain ⟨base, before, after⟩ := StopEntry.calls_at low (fun j lj other => h.touch _ j lj fun e => other e.2)
    (fun j lj other => h.pizz _ j lj fun e => other e.2) c
  obtain ⟨rises, falls⟩ := e.keyDelta_balanced p k c
  rw [before, after, Nat.add_comm base, Nat.add_comm base]
  refine Balanced.beside ?_ base
  unfold StopEntry.changed
  cases e.holds (touch e.division k) (pizz e.division k) <;>
    cases e.holds (touch' e.division k) (pizz' e.division k)
  · exact .nil c 0
  · exact rises
  · exact falls
  · exact .nil c _

theorem KeyMoves.apart (h : KeyMoves p d k touch touch' pizz pizz') {e : StopEntry} (other : e.division ≠ d) (c : Counter) :
    e.calls p touch pizz c = e.calls p touch' pizz' c :=
  StopEntry.calls_congr (fun j lj => by
    rw [h.touch _ j lj fun e => other e.1, h.pizz _ j lj fun e => other e.1]) c

/-- R16: the deltas of a merged change. -/
theorem KeyMoves.merged (h : KeyMoves p d k touch touch' pizz pizz') (low : k < p.keyCount d) (on : Table Bool) (c : Counter) :
    Balanced c (mergedDeltas p on d k (touch d k) (touch' d k) (pizz d k) (pizz' d k)) (p.calls on touch pizz c)
      (p.calls on touch' pizz' c) := by
  rw [mergedDeltas_eq]
  refine Balanced.flatten p.entries fun e _ => ?_
  by_cases isOn : on.get e.stop = true
  · rw [if_pos isOn, if_pos isOn]
    split
    · next own => exact h.changed own.1 low c
    · next other =>
      rw [h.apart (fun own => other ⟨own, isOn⟩) c]
      exact .nil c _
  · rw [if_neg isOn, if_neg isOn, if_neg fun own => isOn own.2]
    exact .nil c 0

/-- R18: the deltas of a pizzicato expiry; no TRAP entry has the condition PIZZ (R6). -/
theorem KeyMoves.expired (h : KeyMoves p d k touch touch' pizz pizz') (low : k < p.keyCount d)
    (voices : ∀ e ∈ p.entries, ∀ f, e.kind ≠ .trap f .pizz) (second : touch d k = .second) (stays : touch' d k = .second)
    (was : pizz d k = true) (is : pizz' d k = false) (on : Table Bool) (c : Counter) :
    Balanced c (pizzDeltas p on d k) (p.calls on touch pizz c) (p.calls on touch' pizz' c) := by
  refine Balanced.flatten p.entries fun e m => ?_
  by_cases isOn : on.get e.stop = true
  · rw [if_pos isOn, if_pos isOn]
    by_cases own : e.division = d
    · have change := h.changed own low c
      rw [second, stays, was, is] at change
      by_cases pizzes : e.isPizz = true
      · rw [if_pos ⟨own, isOn, pizzes⟩]
        obtain ⟨wn, offset, mode, top, bottom, kind, _⟩ := StopEntry.keyDelta_pizz p pizzes k
        have held : e.holds .second true = true ∧ e.holds .second false = false := by
          unfold StopEntry.holds
          rw [kind]
          exact ⟨rfl, rfl⟩
        rw [held.1, held.2] at change
        exact change
      · rw [if_neg fun h => pizzes h.2.2]
        have same : e.holds .second true = e.holds .second false := by
          have no := voices e m
          unfold StopEntry.isPizz at pizzes
          unfold StopEntry.holds
          cases kind : e.kind with
          | trem g => rfl
          | voice wn offset mode top bottom cond => cases cond <;> simp_all [TouchCondition.holds]
          | trap f cond => cases cond <;> simp_all [TouchCondition.holds]
        rw [same, StopEntry.changed, if_pos rfl] at change
        exact change
    · rw [if_neg fun h => own h.1, h.apart own c]
      exact .nil c _
  · rw [if_neg isOn, if_neg isOn, if_neg fun own => isOn own.2.1]
    exact .nil c 0

end

/-- R17: the deltas of an entry of the stop that turns. -/
theorem StopEntry.turned_balanced (p : Profile) (touch : Nat → Nat → Touch) (pizz : Nat → Nat → Bool) (c : Counter)
    (e : StopEntry) :
    Balanced c ((e.turned p touch pizz true).map (·.2)) 0 (e.calls p touch pizz c) ∧
      Balanced c ((e.turned p touch pizz false).map (·.2)) (e.calls p touch pizz c) 0 := by
  unfold StopEntry.turned StopEntry.calls
  cases e.kind with
  | trem g =>
    refine ⟨⟨0, ?_, ?_⟩, ⟨0, ?_, ?_⟩⟩ <;> by_cases own : c = .group g <;>
      simp [fallsOn, risesOn, Delta.counter, Delta.rises, own, eq_comm]
  | voice _ _ _ _ _ _ | trap _ _ =>
    have keys : ∀ up, ((List.range (p.keyCount e.division)).flatMap fun k =>
        if e.holds (touch e.division k) (pizz e.division k) = true then
          (e.keyDelta p k up).map fun x => (k, x) else []).map (·.2) =
        ((List.range (p.keyCount e.division)).map fun k =>
          if e.holds (touch e.division k) (pizz e.division k) = true then e.keyDelta p k up else []).flatten := fun up => by
      rw [List.map_flatMap, List.flatMap_def]
      congr 2
      funext k
      split <;> simp
    dsimp only
    rw [keys, keys]
    refine ⟨Balanced.rises_flatten _ fun k _ => ?_, Balanced.falls_flatten _ fun k _ => ?_⟩
    · split
      · exact (e.keyDelta_balanced p k c).1
      · exact .nil c 0
    · split
      · exact (e.keyDelta_balanced p k c).2
      · exact .nil c 0

/-- R17: the deltas of a stop change. -/
theorem stopDeltas_balanced (p : Profile) {on : Table Bool} (touch : Nat → Nat → Touch) (pizz : Nat → Nat → Bool) {n : Nat}
    {up : Bool} (turns : on.get n ≠ up) (c : Counter) :
    Balanced c (stopDeltas p touch pizz n up) (p.calls on touch pizz c) (p.calls (on.set n up) touch pizz c) := by
  rw [stopDeltas_eq]
  refine Balanced.flatten p.entries fun e _ => ?_
  obtain ⟨rises, falls⟩ := e.turned_balanced p touch pizz c
  rw [Table.get_set]
  by_cases own : e.stop = n
  · rw [if_pos own, if_pos own, own]
    cases up
    · rw [if_pos (by simpa using turns), if_neg (by simp)]
      exact falls
    · rw [if_neg turns, if_pos rfl]
      exact rises
  · rw [if_neg own, if_neg own]
    exact .nil c _

/-- R19: the deltas of a TUNE. -/
theorem tuneDeltas_balanced (p : Profile) (old new : Option Nat) (c : Counter) :
    Balanced c (tuneDeltas p old new) (p.heldBy old c) (p.heldBy new c) := by
  have one : ∀ o, Balanced c (tuneDelta p o true) 0 (p.heldBy (some o) c) ∧
      Balanced c (tuneDelta p o false) (p.heldBy (some o) c) 0 := fun o => by
    rw [tuneDelta_eq, tuneDelta_eq]
    cases kind : p.tuneKind o with
    | none =>
      have zero : p.heldBy (some o) c = 0 := by
        match c with
        | .count kind' o' => exact if_neg fun h => by rw [← Option.some.inj h.1, kind] at h; cases h.2
        | .trap _ | .group _ => rfl
      rw [zero]
      exact ⟨.nil c 0, .nil c 0⟩
    | some kind' =>
      have held : p.heldBy (some o) c = if c = .count kind' o then 1 else 0 := by
        match c with
        | .count kind'' o' =>
          refine if_congr ?_ rfl rfl
          constructor
          · rintro ⟨same, named⟩
            obtain rfl : o = o' := Option.some.inj same
            rw [Option.some.inj (kind.symm.trans named)]
          · rintro ⟨rfl, rfl⟩
            exact ⟨rfl, kind⟩
        | .trap _ | .group _ => rfl
      rw [held]
      refine ⟨⟨0, ?_, ?_⟩, ⟨0, ?_, ?_⟩⟩ <;> by_cases own : c = .count kind' o <;>
        simp [fallsOn, risesOn, Delta.counter, Delta.rises, own, eq_comm]
  have none : p.heldBy none c = 0 := by
    match c with
    | .count _ _ => simp [Profile.heldBy]
    | .trap _ | .group _ => rfl
  have lower : Balanced c ((old.map fun o => tuneDelta p o false).getD []) (p.heldBy old c) 0 := by
    cases old with
    | none => rw [none]; exact .nil c 0
    | some o => exact (one o).2
  have raise : Balanced c ((new.map fun o => tuneDelta p o true).getD []) 0 (p.heldBy new c) := by
    cases new with
    | none => rw [none]; exact .nil c 0
    | some o => exact (one o).1
  have both := lower.append raise
  rw [Nat.zero_add, Nat.add_zero] at both
  exact both

end Sys2Proof.Machine
end

section
/-! The counts and their sources, as every operation keeps them (R41, R48, R82, R118, R119). -/

namespace Sys2Proof.Machine

/-! ### The sources, as the statement says them -/

theorem length_filter_eq_sum {α : Type} (l : List α) (p : α → Bool) :
    (l.filter p).length = (l.map fun x => if p x = true then 1 else 0).sum := by
  induction l with
  | nil => rfl
  | cons x rest ih =>
    rw [List.filter_cons, List.map_cons, List.sum_cons, ← ih]
    split
    · rw [List.length_cons, Nat.add_comm]
    · rw [Nat.zero_add]

theorem StopEntry.keyCalls_count (p : Profile) (e : StopEntry) (k : Nat) (kind : CountKind) (o : Nat) :
    e.keyCalls p k (.count kind o) = if (e.keyDelta p k true).any (·.hits kind o) = true then 1 else 0 := by
  unfold StopEntry.keyCalls
  obtain ⟨none, _⟩ | ⟨_, _, given, one, _⟩ := e.keyDelta_cases p k
  · rw [none]; rfl
  · have rises : (given true).rises = true := by
      have m : given true ∈ e.keyDelta p k true := by rw [one]; exact List.mem_singleton_self _
      unfold StopEntry.keyDelta at m
      split at m
      · split at m
        · cases m
        · split at m
          · cases m
          · rw [List.mem_singleton.1 m]; rfl
      · rw [List.mem_singleton.1 m]; rfl
      · cases m
    rw [one]
    have hit : (given true).hits kind o = decide ((given true).counter = .count kind o) := by
      match given true with
      | .count kind' w o' up => simp [Delta.hits, Delta.counter, beq_eq_decide]
      | .effect _ _ | .group _ _ => simp [Delta.hits, Delta.counter]
    simp only [risesOn, List.countP_singleton, rises, Bool.and_true, List.any_cons, List.any_nil, Bool.or_false, hit]

theorem State.contributions_eq (s : State) (kind : CountKind) (o : Nat) :
    s.contributions kind o = s.calls (.count kind o) := by
  unfold State.contributions State.calls Profile.calls
  refine congrArg List.sum (List.map_congr_left fun e _ => ?_)
  split
  · rw [length_filter_eq_sum]
    unfold StopEntry.calls
    cases kind' : e.kind with
    | trem g =>
      have none : ∀ t z, e.holds t z = false := fun t z => by unfold StopEntry.holds; rw [kind']
      simp [none]
    | voice _ _ _ _ _ _ | trap _ _ =>
      refine congrArg List.sum (List.map_congr_left fun k _ => ?_)
      rw [StopEntry.keyCalls_count]
      cases e.holds (s.mergedTouch e.division k) (s.hasPizz e.division k)
      · simp
      · simp only [Bool.true_and, if_true]
        rfl
  · rfl

/-- A VOICE entry adds to a demand count alone. -/
theorem StopEntry.keyCalls_voice {p : Profile} {e : StopEntry} {wn : Nat} {offset : Int} {mode : StrikeMode}
    {top bottom : Policy} {cond : TouchCondition} (h : e.kind = .voice wn offset mode top bottom cond) (k : Nat)
    {c : Counter} (other : ∀ kind o, c ≠ .count kind o) : e.keyCalls p k c = 0 := by
  unfold StopEntry.keyCalls StopEntry.keyDelta
  rw [h]
  dsimp only
  cases p.windows[wn]? with
  | none => rfl
  | some w =>
    dsimp only
    cases resolve (p.baseNote e.division) k offset w top bottom with
    | none => rfl
    | some o => simp [risesOn, Delta.counter, Ne.symm (other _ o)]

/-- A TRAP entry adds one to its effect's trap part for each key. -/
theorem StopEntry.keyCalls_trap {p : Profile} {e : StopEntry} {f : Nat} {cond : TouchCondition}
    (h : e.kind = .trap f cond) (k : Nat) (c : Counter) : e.keyCalls p k c = if c = .trap f then 1 else 0 := by
  unfold StopEntry.keyCalls StopEntry.keyDelta
  rw [h]
  by_cases own : c = .trap f <;> simp [risesOn, Delta.counter, Delta.rises, own, Ne.symm]

theorem StopEntry.calls_voice {p : Profile} {e : StopEntry} {wn : Nat} {offset : Int} {mode : StrikeMode}
    {top bottom : Policy} {cond : TouchCondition} (h : e.kind = .voice wn offset mode top bottom cond)
    (touch : Nat → Nat → Touch) (pizz : Nat → Nat → Bool) {c : Counter} (other : ∀ kind o, c ≠ .count kind o) :
    e.calls p touch pizz c = 0 := by
  unfold StopEntry.calls
  rw [h]
  simp [StopEntry.keyCalls_voice h _ other]

theorem StopEntry.calls_trap {p : Profile} {e : StopEntry} {f : Nat} {cond : TouchCondition} (h : e.kind = .trap f cond)
    (touch : Nat → Nat → Touch) (pizz : Nat → Nat → Bool) (c : Counter) :
    e.calls p touch pizz c =
      if c = .trap f then ((List.range (p.keyCount e.division)).filter fun k =>
        cond.holds (touch e.division k) (pizz e.division k)).length else 0 := by
  have holds : ∀ t z, e.holds t z = cond.holds t z := fun t z => by unfold StopEntry.holds; rw [h]
  unfold StopEntry.calls
  rw [h, length_filter_eq_sum]
  simp only [StopEntry.keyCalls_trap h, holds]
  split <;> simp

theorem StopEntry.calls_trem {p : Profile} {e : StopEntry} {g : Nat} (h : e.kind = .trem g) (touch : Nat → Nat → Touch)
    (pizz : Nat → Nat → Bool) (c : Counter) : e.calls p touch pizz c = if c = .group g then 1 else 0 := by
  unfold StopEntry.calls
  rw [h]

theorem State.trapContributions_eq (s : State) (e : Nat) : s.trapContributions e = s.calls (.trap e) := by
  unfold State.trapContributions State.calls Profile.calls
  refine congrArg List.sum (List.map_congr_left fun x _ => ?_)
  cases kind : x.kind with
  | trem g => simp [StopEntry.calls_trem kind]
  | voice wn offset mode top bottom c => simp [StopEntry.calls_voice kind]
  | trap f c =>
    rw [StopEntry.calls_trap kind]
    by_cases named : f = e
    · subst named; simp
    · simp [named, Ne.symm named]

theorem State.tremEntriesOn_eq (s : State) (g : Nat) : s.tremEntriesOn g = s.calls (.group g) := by
  unfold State.tremEntriesOn State.calls Profile.calls
  rw [length_filter_eq_sum]
  refine congrArg List.sum (List.map_congr_left fun x _ => ?_)
  cases kind : x.kind with
  | trem g' =>
    rw [StopEntry.calls_trem kind]
    by_cases named : g' = g
    · subst named; simp
    · simp [named, Ne.symm named]
  | voice wn offset mode top bottom c => simp [StopEntry.calls_voice kind]
  | trap f c => simp [StopEntry.calls_trap kind]

/-! ### The laws, one for each source -/

theorem Profile.heldBy_reiterate (p : Profile) (h : Option Nat) (o : Nat) : p.heldBy h (.count .reiterate o) = 0 :=
  if_neg fun both => p.tuneKind_not_reiterate o both.2

theorem State.demandCounted_iff {s : State} :
    s.DemandCounted ↔ (s.profile = none → s.dt.tuning = none) ∧ ∀ kind o, s.Counted (.count kind o) := by
  unfold State.Counted
  simp only [← State.contributions_eq]
  constructor
  · intro h
    refine ⟨h.unprofiled, fun kind o => ?_⟩
    cases kind with
    | pipe => exact h.pipe o
    | single => exact h.single o
    | reiterate => rw [Profile.heldBy_reiterate]; exact h.reiterate o
  · rintro ⟨unprofiled, counted⟩
    refine ⟨unprofiled, counted .pipe, counted .single, fun o => ?_⟩
    have law := counted .reiterate o
    rw [Profile.heldBy_reiterate] at law
    exact law

/-- R7: a stop that no entry names is OFF. -/
def State.StopsSound (s : State) : Prop := ∀ n, s.prof.hasStop n = false → s.km.stopOn.get n = false

/-- R28, R82: the stud part of an effect's count is what its stud's merged touch gives. -/
def State.StudSound (s : State) : Prop :=
  ∀ e, (s.trigger e).stud = true ↔ ∃ x k, s.effect e = some x ∧ x.stud = some k ∧ s.mergedTouch 7 k ≠ .up

/-- R82, R84: the cue part of an effect's count is the level of its cue line. -/
def State.CueSound (s : State) : Prop :=
  ∀ e, (s.trigger e).cue = true ↔
    ∃ x l, s.effect e = some x ∧ x.mode = .level ∧ x.cueLine = some l ∧ (s.line l).debounced = true

theorem State.callsCounted_iff {s : State} :
    s.CallsCounted ↔ s.StopsSound ∧ (∀ e, s.Counted (.trap e)) ∧ s.StudSound ∧ s.CueSound ∧
      (∀ g, s.Counted (.group g)) ∧ s.TremsSound := by
  unfold State.Counted
  simp only [← State.trapContributions_eq, ← State.tremEntriesOn_eq]
  exact ⟨fun h => ⟨h.stops, h.trap, h.stud, h.cue, h.onCount, h.running⟩,
    fun ⟨stops, trap, stud, cue, onCount, running⟩ => ⟨stops, trap, stud, cue, onCount, running⟩⟩

end Sys2Proof.Machine
end

section
/-! What an operation keeps of the counts and their sources (R40, R41, R48, R82, R118, R119), and an application of RE's. -/

namespace Sys2Proof.Machine

/-! ### What the counts ask of a profile -/

/-- R2, R4, R5, R6, R80: what the counts ask of a profile. -/
structure Profile.Fits (p : Profile) : Prop where
  apart : p.apart
  keys : ∀ d, p.keyCount d ≤ 64
  divisions : ∀ e ∈ p.entries, e.division < 8
  trems : ∀ e ∈ p.entries, ∀ g, e.kind = .trem g → g < 4
  traps : ∀ e ∈ p.entries, ∀ f c, e.kind = .trap f c → f < 32 ∧ c ≠ .pizz
  effects : p.effects.length ≤ 32
  studs : ∀ x ∈ p.effects, ∀ k, x.stud = some k → k < 64
  cues : ∀ e l, (p.effects[e]?).bind (·.cueLine) = some l ↔ p.lineFunction l = .cue ∧ p.cueEffect l = e

theorem Profile.InRange.fits {p : Profile} (h : p.InRange) : p.Fits where
  apart := h.apart
  keys d := (h.keys d).1
  divisions e m := Nat.lt_succ_of_le (h.entries.2 e m).2.1
  trems e m g kind := by
    obtain ⟨-, -, range⟩ := h.entries.2 e m
    rw [kind] at range
    exact Nat.lt_of_lt_of_le range.1 h.groups.1
  traps e m f c kind := by
    obtain ⟨-, -, range⟩ := h.entries.2 e m
    rw [kind] at range
    exact ⟨Nat.lt_of_lt_of_le range.1 h.effects.1, range.2⟩
  effects := h.effects.1
  studs x m k stud := by
    obtain ⟨-, -, -, -, low, -⟩ := h.effects.2 x m
    have := low k stud
    omega
  cues e l := by
    rw [h.cueLines]
    unfold Profile.lineFunction Profile.cueEffect
    cases p.lines[l]? with
    | none => simp
    | some r => simp

theorem Profile.fits_default : (default : Profile).Fits where
  apart i j v w o given := by cases given
  keys d := Nat.zero_le _
  divisions e m := by cases m
  trems e m := by cases m
  traps e m := by cases m
  effects := Nat.zero_le _
  studs x m := by cases m
  cues e l := by
    constructor
    · exact fun named => by cases named
    · exact fun both => by cases both.1

theorem State.ProfileSound.fits {s : State} (h : s.ProfileSound) : s.prof.Fits := by
  unfold State.prof
  cases held : s.profile with
  | none => exact Profile.fits_default
  | some p => exact (h p held).fits

/-! ### The deltas of RE fit the profile -/

theorem resolve_contains {b k : Nat} {offset : Int} {w : Window} {top bottom : Policy} {o : Nat}
    (h : resolve b k offset w top bottom = some o) : w.contains o = true := by
  have at_index : ∀ {i : Int}, w.atIndex i = some o → w.contains o = true := fun {i} e => by
    unfold Window.atIndex at e
    split at e
    · next inside =>
      cases e
      simp only [Window.contains, decide_eq_true_eq]
      omega
    · cases e
  unfold resolve at h
  dsimp only at h
  split at h
  · cases h
  · split at h
    · next inside =>
      cases h
      simp only [Window.contains, decide_eq_true_eq]
      omega
    · split at h
      · cases top with
        | silent => cases h
        | breakBack => exact at_index h
      · cases bottom with
        | silent => cases h
        | breakBack => exact at_index h

theorem StopEntry.keyDelta_fits (p : Profile) (e : StopEntry) (k : Nat) (up : Bool) : ∀ d ∈ e.keyDelta p k up, d.fits p := by
  intro d m
  unfold StopEntry.keyDelta at m
  split at m
  · next mode _ _ _ _ =>
    split at m
    · cases m
    · next w window =>
      split at m
      · cases m
      · next o output =>
        rw [List.mem_singleton.1 m]
        cases kind : countKind w.kind mode with
        | reiterate => exact ⟨w, window, resolve_contains output⟩
        | pipe | single => exact trivial
  · rw [List.mem_singleton.1 m]
    exact trivial
  · cases m

theorem mergedDeltas_fits (p : Profile) (on : Table Bool) (d k : Nat) (old new : Touch) (before after : Bool) :
    ∀ x ∈ mergedDeltas p on d k old new before after, x.fits p := by
  intro x m
  rw [mergedDeltas_eq] at m
  obtain ⟨l, ml, mx⟩ := List.mem_flatten.1 m
  obtain ⟨e, -, rfl⟩ := List.mem_map.1 ml
  split at mx
  · unfold StopEntry.changed at mx
    split at mx
    · cases mx
    · exact e.keyDelta_fits p k _ x mx
  · cases mx

theorem pizzDeltas_fits (p : Profile) (on : Table Bool) (d k : Nat) : ∀ x ∈ pizzDeltas p on d k, x.fits p := by
  intro x m
  obtain ⟨l, ml, mx⟩ := List.mem_flatten.1 m
  obtain ⟨e, -, rfl⟩ := List.mem_map.1 ml
  split at mx
  · exact e.keyDelta_fits p k _ x mx
  · cases mx

theorem stopDeltas_fits {p : Profile} (fits : p.Fits) (touch : Nat → Nat → Touch) (pizz : Nat → Nat → Bool) (n : Nat)
    (up : Bool) : ∀ x ∈ stopDeltas p touch pizz n up, x.fits p := by
  intro x m
  rw [stopDeltas_eq] at m
  obtain ⟨l, ml, mx⟩ := List.mem_flatten.1 m
  obtain ⟨e, me, rfl⟩ := List.mem_map.1 ml
  obtain ⟨y, my, rfl⟩ := List.mem_map.1 mx
  split at my
  · unfold StopEntry.turned at my
    cases kind : e.kind with
    | trem g =>
      rw [kind] at my
      rw [List.mem_singleton.1 my]
      exact fits.trems e me g kind
    | voice _ _ _ _ _ _ | trap _ _ =>
      rw [kind] at my
      obtain ⟨k, -, given⟩ := List.mem_flatMap.1 my
      split at given
      · obtain ⟨d, md, rfl⟩ := List.mem_map.1 given
        exact e.keyDelta_fits p k up d md
      · cases given
  · cases my

theorem tuneDeltas_fits (p : Profile) (old new : Option Nat) : ∀ x ∈ tuneDeltas p old new, x.fits p := by
  have one : ∀ o up, ∀ x ∈ tuneDelta p o up, x.fits p := by
    intro o up x m
    rw [tuneDelta_eq] at m
    obtain ⟨kind, mk, rfl⟩ := List.mem_map.1 m
    have named := Option.mem_toList.1 mk
    cases kind with
    | reiterate => exact absurd named (p.tuneKind_not_reiterate o)
    | pipe | single => exact trivial
  intro x m
  rcases List.mem_append.1 m with m | m
  · cases old with
    | none => cases m
    | some o => exact one o false x m
  · cases new with
    | none => cases m
    | some o => exact one o true x m

/-! ### What an operation keeps -/

/-- The demand side of the counts: what ALL-OFF keeps at each of its keys. -/
structure State.keepsDemand (s u : State) : Prop where
  sets : s.SetsSound → u.SetsSound
  untuned : (s.profile = none → s.dt.tuning = none) → u.profile = none → u.dt.tuning = none
  counted : ∀ c, (∀ e, c ≠ .trap e) → s.Counted c → u.Counted c
  stops : s.StopsSound → u.StopsSound
  few : s.fourGroups → u.fourGroups
  trems : s.fourGroups → s.TremsSound → u.TremsSound

/-- The demand side and the parts of the trigger counts that keys give: what an edge of a line keeps before its block has
taken it. -/
structure State.keepsKeyed (s u : State) : Prop extends s.keepsDemand u where
  trap : ∀ e, s.Counted (.trap e) → u.Counted (.trap e)
  stud : s.StudSound → u.StudSound

/-- Every law of the counts and their sources. -/
structure State.keepsCounts (s u : State) : Prop extends s.keepsKeyed u where
  cue : s.CueSound → u.CueSound

theorem State.keepsDemand.trans {a b c : State} (h : a.keepsDemand b) (k : b.keepsDemand c) : a.keepsDemand c where
  sets law := k.sets (h.sets law)
  untuned law := k.untuned (h.untuned law)
  counted x other law := k.counted x other (h.counted x other law)
  stops law := k.stops (h.stops law)
  few law := k.few (h.few law)
  trems few law := k.trems (h.few few) (h.trems few law)

theorem State.keepsKeyed.trans {a b c : State} (h : a.keepsKeyed b) (k : b.keepsKeyed c) : a.keepsKeyed c where
  tokeepsDemand := h.tokeepsDemand.trans k.tokeepsDemand
  trap e law := k.trap e (h.trap e law)
  stud law := k.stud (h.stud law)

theorem State.keepsCounts.trans {a b c : State} (h : a.keepsCounts b) (k : b.keepsCounts c) : a.keepsCounts c where
  tokeepsKeyed := h.tokeepsKeyed.trans k.tokeepsKeyed
  cue law := k.cue (h.cue law)

theorem State.booksStand.prof {s t : State} (h : s.booksStand t) : t.prof = s.prof := by
  unfold State.prof
  rw [h.profile]

/-- The sources are read off the profile and KM. -/
theorem State.calls_congr {s t : State} (prof : t.prof = s.prof) (km : t.km = s.km) (c : Counter) : t.calls c = s.calls c := by
  unfold State.calls State.mergedTouch State.hasPizz
  rw [prof, km]

theorem State.countsStand.keepsCounts {s t : State} (h : s.countsStand t) : s.keepsCounts t := by
  have prof := h.prof
  have tuning : t.dt.tuning = s.dt.tuning := by rw [h.dt]
  have counted : ∀ c, s.Counted c → t.Counted c := fun c law => by
    unfold State.Counted at law ⊢
    rw [h.tobooksStand.counter, prof, tuning, State.calls_congr prof h.km]
    exact law
  have trigger : ∀ e, t.trigger e = s.trigger e := fun e => by unfold State.trigger; rw [h.triggers]
  have effect : ∀ e, t.effect e = s.effect e := fun e => by unfold State.effect; rw [prof]
  refine
    { sets := fun law => ⟨fun i w o => ?member, fun i => ?ascending, fun none => ?unprofiled⟩
      untuned := fun law none => by rw [tuning]; exact law (h.profile.symm.trans none)
      counted := fun c _ => counted c
      stops := fun law n => by rw [prof, h.km]; exact law n
      cue := fun law e => by rw [trigger, effect]; simp only [h.debounced]; exact law e
      few := h.fourGroups
      trems := h.trems
      trap := fun e => counted _
      stud := fun law e => by
        rw [trigger, effect]
        have same : ∀ k, t.mergedTouch 7 k = s.mergedTouch 7 k := fun k => by unfold State.mergedTouch; rw [h.km]
        simp only [same]
        exact law e }
  case member => rw [prof, h.dt]; exact law.member i w o
  case ascending => rw [h.dt]; exact law.ascending i
  case unprofiled => rw [h.dt]; exact law.unprofiled (h.profile.symm.trans none)

theorem State.keepsCounts.refl (s : State) : s.keepsCounts s := (State.countsStand.refl s).keepsCounts

theorem State.keepsDemand.refl (s : State) : s.keepsDemand s := (State.keepsCounts.refl s).tokeepsDemand

/-- A fold of operations, each of which is as `R` says from a state that is as `P` says, and leaves one. -/
theorem keeps_foldl {β : Type} {P : State → Prop} {R : State → State → Prop} (refl : ∀ s, R s s)
    (trans : ∀ a b c, R a b → R b c → R a c) (f : State → β → State) (l : List β)
    (one : ∀ s x, x ∈ l → P s → P (f s x) ∧ R s (f s x)) : ∀ {s : State}, P s → P (l.foldl f s) ∧ R s (l.foldl f s) := by
  induction l with
  | nil => exact fun h => ⟨h, refl _⟩
  | cons x rest ih =>
    intro s h
    obtain ⟨next, keeps⟩ := one s x List.mem_cons_self h
    obtain ⟨last, keeps'⟩ := ih (fun t y m => one t y (List.mem_cons_of_mem _ m)) next
    exact ⟨last, trans _ _ _ keeps keeps'⟩

theorem keepsCounts_foldl {β : Type} {P : State → Prop} (f : State → β → State) (l : List β)
    (one : ∀ (s : State) x, x ∈ l → P s → P (f s x) ∧ s.keepsCounts (f s x)) {s : State} (h : P s) :
    P (l.foldl f s) ∧ s.keepsCounts (l.foldl f s) :=
  keeps_foldl State.keepsCounts.refl (fun _ _ _ => State.keepsCounts.trans) f l one h

/-! ### An application -/

theorem Delta.takenDt_unprofiled {p : Profile} (empty : p.windows = []) {d : Delta} (fits : d.fits p) (dt : Dt) :
    (d.takenDt dt).sets = dt.sets ∧ (d.takenDt dt).reiterate = dt.reiterate := by
  match d with
  | .count .reiterate w o up =>
    obtain ⟨x, window, _⟩ := fits
    rw [empty] at window
    cases window
  | .count .pipe _ _ _ | .count .single _ _ _ | .effect _ _ | .group _ _ => exact ⟨rfl, rfl⟩

theorem application_unprofiled (withhold : Bool) {p : Profile} (empty : p.windows = []) {l : List Delta}
    (fits : ∀ d ∈ l, d.fits p) (s : State) :
    (application withhold l s).dt.sets = s.dt.sets ∧ (application withhold l s).dt.reiterate = s.dt.reiterate := by
  have taken : (takenDeltas s.isReady withhold s l).1.dt.sets = s.dt.sets ∧
      (takenDeltas s.isReady withhold s l).1.dt.reiterate = s.dt.reiterate := by
    induction l using List.reverseRecOn with
    | nil => exact ⟨rfl, rfl⟩
    | append_singleton l d ih =>
      obtain ⟨sets, counts⟩ := ih fun x m => fits x (List.mem_append_left _ m)
      obtain ⟨sets', counts'⟩ := Delta.takenDt_unprofiled empty (fits d (List.mem_append_right _ (List.mem_singleton_self d)))
        (takenDeltas s.isReady withhold s l).1.dt
      rw [takenDeltas_snoc]
      have dt := takeDelta_dt s.isReady withhold (takenDeltas s.isReady withhold s l).1 (takenDeltas s.isReady withhold s l).2 d
      rw [dt]
      exact ⟨sets'.trans sets, counts'.trans counts⟩
  rw [application_eq, (closeApplication_closes _ _ _).books.dt]
  exact taken

/-- Deltas that fit leave the on-counts beyond the four groups. -/
theorem application_fourGroups (withhold : Bool) {p : Profile} {l : List Delta} (fits : ∀ d ∈ l, d.fits p) {s : State}
    (h : s.fourGroups) : (application withhold l s).fourGroups := by
  intro g high
  have still : ∀ d ∈ l.filter fun d => !d.withheld withhold, ∀ n, d.moves (.group g) n = n := fun d m n => by
    have low := fits d (List.mem_filter.1 m).1
    match d with
    | .group g' up =>
      refine if_neg fun same => ?_
      have : g' = g := by injection same
      have : g' < 4 := low
      omega
    | .count _ _ _ _ | .effect _ _ => exact if_neg (by simp [Delta.counter])
  have moved := application_counter withhold l s (.group g)
  generalize l.filter (fun d => !d.withheld withhold) = taken at still moved
  have stands : ∀ l : List Delta, (∀ d ∈ l, ∀ n, d.moves (.group g) n = n) → ∀ n, l.foldl (Delta.moves (.group g)) n = n := by
    intro l
    induction l with
    | nil => exact fun _ _ => rfl
    | cons d rest ih =>
      intro still n
      rw [List.foldl_cons, still d List.mem_cons_self]
      exact ih (fun x m => still x (List.mem_cons_of_mem _ m)) n
  rw [stands taken still] at moved
  exact moved.trans (h g high)

/-- KM and the tuning hold have moved, and an application is to follow: its deltas balance what the sources give before
and after. -/
structure State.prepares (s v : State) (l : List Delta) : Prop where
  frame : v = { s with km := v.km, dt := { s.dt with tuning := v.dt.tuning } }
  untuned : s.profile = none → s.dt.tuning = none → v.dt.tuning = none
  stops : s.StopsSound → v.StopsSound
  fits : ∀ d ∈ l, d.fits s.prof
  balance : ∀ c, Balanced c l (s.calls c + s.prof.heldBy (s.dt.tuning.map (·.output)) c)
    (v.calls c + v.prof.heldBy (v.dt.tuning.map (·.output)) c)

section
variable {s v : State} {l : List Delta}

theorem State.prepares.profile (h : s.prepares v l) : v.profile = s.profile := by rw [h.frame]

theorem State.prepares.prof (h : s.prepares v l) : v.prof = s.prof := by
  unfold State.prof
  rw [h.profile]

theorem State.prepares.counter (h : s.prepares v l) (c : Counter) : v.counter c = s.counter c := by
  rw [h.frame]
  cases c with
  | count kind o => cases kind <;> rfl
  | trap e => rfl
  | group g => rfl

theorem State.prepares.cue (h : s.prepares v l) (law : s.CueSound) : v.CueSound := by
  rw [h.frame]
  exact law

theorem State.prepares.trem (h : s.prepares v l) (g : Nat) : v.trem g = s.trem g := by
  rw [h.frame]
  rfl

theorem State.prepares.trems (h : s.prepares v l) (law : s.TremsSound) : v.TremsSound :=
  law.of_same (by rw [h.frame]) (by rw [h.frame])

/-- A count is what its sources give after the application, if its deltas are taken. -/
theorem State.prepares.counted (h : s.prepares v l) {withhold : Bool} {c : Counter}
    (taken : (withhold = false) ∨ ∀ e, c ≠ .trap e) (law : s.Counted c) : (application withhold l v).Counted c := by
  have moves := application_movesCounts withhold l v
  have balance := h.balance c
  rw [← show s.counter c = _ from law, ← h.counter] at balance
  have after : (application withhold l v).counter c = v.calls c + v.prof.heldBy (v.dt.tuning.map (·.output)) c := by
    cases withhold with
    | false => exact application_balanced balance
    | true => exact application_balanced_withheld (taken.resolve_left (by simp)) balance
  unfold State.Counted
  rw [after, State.calls_congr moves.prof moves.km, moves.tuning, moves.prof]

theorem State.prepares.keepsDemand (h : s.prepares v l) (apart : s.prof.apart) (withhold : Bool) :
    s.keepsDemand (application withhold l v) := by
  have moves := application_movesCounts withhold l v
  have prof : (application withhold l v).prof = s.prof := moves.prof.trans h.prof
  refine
    { sets := fun law => ?sets
      untuned := fun law lacks => ?untuned
      counted := fun c other law => h.counted (.inr other) law
      stops := fun law n => by rw [moves.prof, moves.km]; exact h.stops law n
      few := fun few => application_fourGroups withhold h.fits fun g high => by rw [h.trem]; exact few g high
      trems := fun _ law => moves.trems (h.trems law) }
  case sets =>
    have dt : v.dt.setsSound s.prof := by rw [h.frame]; exact ⟨law.member, law.ascending⟩
    have taken := application_sets withhold (s := v) (by rw [h.prof]; exact apart) (fun d m => by rw [h.prof]; exact h.fits d m)
      (by rw [h.prof]; exact dt)
    refine ⟨fun i w o => ?_, taken.ascending, fun lacks => ?_⟩
    · rw [prof, ← h.prof]; exact taken.member i w o
    · have unprofiled : s.profile = none := h.profile.symm.trans (moves.profile.symm.trans lacks)
      have empty : s.prof.windows = [] := by unfold State.prof; rw [unprofiled]; rfl
      obtain ⟨sets, counts⟩ := application_unprofiled withhold empty h.fits v
      rw [sets, counts, h.frame]
      exact law.unprofiled unprofiled
  case untuned =>
    have unprofiled : s.profile = none := h.profile.symm.trans (moves.profile.symm.trans lacks)
    rw [moves.tuning]
    exact h.untuned unprofiled (law unprofiled)

theorem State.prepares.cues (h : s.prepares v l) (withhold : Bool) (law : s.CueSound) :
    (application withhold l v).CueSound := fun e => by
  have moves := application_movesCounts withhold l v
  have law' := h.cue law e
  unfold State.effect at law' ⊢
  rw [moves.cue, moves.prof]
  simp only [moves.debounced]
  exact law'

theorem State.prepares.studs (h : s.prepares v l) (withhold : Bool)
    (same : ∀ k, k < 64 → v.mergedTouch 7 k = s.mergedTouch 7 k) (fits : s.prof.Fits) (law : s.StudSound) :
    (application withhold l v).StudSound := by
  have moves := application_movesCounts withhold l v
  intro e
  have law' := law e
  have stud : ((application withhold l v).trigger e).stud = (s.trigger e).stud := by
    rw [moves.stud, h.frame]
    rfl
  have merged : ∀ k, (application withhold l v).mergedTouch 7 k = v.mergedTouch 7 k := fun k => by
    unfold State.mergedTouch
    rw [moves.km]
  unfold State.effect at law' ⊢
  rw [stud, moves.prof, h.prof, law']
  simp only [merged]
  constructor <;> rintro ⟨x, k, found, named, up⟩ <;> refine ⟨x, k, found, named, ?_⟩
  · rwa [same k (fits.studs x (List.mem_of_getElem? found) k named)]
  · rwa [← same k (fits.studs x (List.mem_of_getElem? found) k named)]

theorem State.prepares.keepsCounts (h : s.prepares v l) (fits : s.prof.Fits)
    (same : ∀ k, k < 64 → v.mergedTouch 7 k = s.mergedTouch 7 k) : s.keepsCounts (application false l v) where
  tokeepsDemand := h.keepsDemand fits.apart false
  trap _ law := h.counted (.inl rfl) law
  stud law := h.studs false same fits law
  cue law := h.cues false law

end

end Sys2Proof.Machine
end

section
/-! The operations of KM, one application each (R13): the tuning hold, the stops, a pizzicato expiry and a merged change. -/

namespace Sys2Proof.Machine

/-! ### What KM changes beside the sources -/

/-- A change of KM that moves no source keeps the counts. -/
theorem State.keepsCounts.withKm {s : State} {km : Km} (merged : km.merged = s.km.merged) (on : km.stopOn = s.km.stopOn)
    (pizz : km.pizzicato = s.km.pizzicato) : s.keepsCounts { s with km := km } := by
  have calls : ∀ c, State.calls { s with km := km } c = s.calls c := fun c => by
    unfold State.calls
    congr 1
    · funext d k; exact congrArg (fun m : Table Touch => m.get (cell d k)) merged
    · funext d k; exact congrArg (listed d k) pizz
  have counted : ∀ c, s.Counted c → State.Counted { s with km := km } c := fun c law => by
    unfold State.Counted at law ⊢
    rw [calls]
    cases c with
    | count kind o => exact law
    | trap e => exact law
    | group g => exact law
  refine
    { sets := fun law => ⟨law.member, law.ascending, law.unprofiled⟩
      untuned := fun law => law
      counted := fun c _ => counted c
      stops := fun law n none => (congrArg (fun m : Table Bool => m.get n) on).trans (law n none)
      few := fun law => law
      trems := fun _ law => law
      trap := fun e => counted _
      stud := fun law e => ?_
      cue := fun law => law }
  have same : ∀ k, State.mergedTouch { s with km := km } 7 k = s.mergedTouch 7 k := fun k =>
    congrArg (fun m : Table Touch => m.get (cell 7 k)) merged
  simp only [same]
  exact law e

/-! ### The tuning hold -/

theorem moveHold_keepsCounts {s : State} (fits : s.prof.Fits) {new : Option Hold}
    (profiled : s.profile = none → new = none) : s.keepsCounts (moveHold new s) := by
  have ready : s.prepares { s with dt := { s.dt with tuning := new } }
      (tuneDeltas s.prof (s.dt.tuning.map (·.output)) (new.map (·.output))) :=
    { frame := rfl
      untuned := fun lacks _ => profiled lacks
      stops := fun law => law
      fits := tuneDeltas_fits _ _ _
      balance := fun c => by
        have balance := (tuneDeltas_balanced s.prof (s.dt.tuning.map (·.output)) (new.map (·.output)) c).beside (s.calls c)
        rw [Nat.add_comm, Nat.add_comm (s.prof.heldBy (new.map (·.output)) c)] at balance
        exact balance }
  exact ready.keepsCounts fits fun _ _ => rfl

theorem endHold_keepsCounts {s : State} (fits : s.prof.Fits) : s.keepsCounts (endHold s) := by
  unfold endHold
  split
  · exact .refl s
  · exact moveHold_keepsCounts fits fun _ => rfl

theorem endHoldOf_keepsCounts (a : Station) {s : State} (fits : s.prof.Fits) : s.keepsCounts (endHoldOf a s) := by
  unfold endHoldOf
  split
  · exact endHold_keepsCounts fits
  · exact .refl s

/-- R55: the output already held gets another setting station. -/
theorem resetHold_keepsCounts {s : State} {o : Nat} (held : s.dt.tuning.map (·.output) = some o) (a : Station) :
    s.keepsCounts { s with dt := { s.dt with tuning := some { output := o, setter := a } } } := by
  have counted : ∀ c, s.Counted c →
      State.Counted { s with dt := { s.dt with tuning := some { output := o, setter := a } } } c := fun c law => by
    unfold State.Counted at law ⊢
    rw [held] at law
    cases c with
    | count kind o => cases kind <;> exact law
    | trap e => exact law
    | group g => exact law
  exact
    { sets := fun law => ⟨law.member, law.ascending, law.unprofiled⟩
      untuned := fun law lacks => by rw [law lacks] at held; cases held
      counted := fun c _ => counted c
      stops := fun law => law
      few := fun law => law
      trems := fun _ law => law
      trap := fun e => counted _
      stud := fun law => law
      cue := fun law => law }

theorem takeTune_keepsCounts {s : State} (fits : s.prof.Fits) (profiled : s.profile ≠ none) (a : Station)
    (output : BitVec 16) : s.keepsCounts (takeTune a output s) := by
  unfold takeTune
  dsimp only
  split
  · exact endHold_keepsCounts fits
  · split
    · split
      · next held => exact resetHold_keepsCounts held a
      · exact moveHold_keepsCounts fits fun lacks => absurd lacks profiled
    · exact .refl s

/-! ### The stops -/

theorem stopChange_keepsCounts {s : State} (fits : s.prof.Fits) (x : Fin 1024 × Bool) :
    s.keepsCounts (stopChange s x) := by
  unfold stopChange
  dsimp only
  split
  · next turns =>
    have ready : s.prepares { s with km := { s.km with stopOn := s.km.stopOn.set x.1.val x.2 } }
        (stopDeltas s.prof s.mergedTouch s.hasPizz x.1.val x.2) :=
      { frame := rfl
        untuned := fun _ none => none
        stops := fun law n none => by
          rw [Table.get_set]
          split
          · next same =>
            have no : s.prof.hasStop n = false := none
            rw [same, turns.1] at no
            cases no
          · exact law n none
        fits := stopDeltas_fits fits _ _ _ _
        balance := fun c => (stopDeltas_balanced s.prof s.mergedTouch s.hasPizz turns.2 c).beside _ }
    exact (ready.keepsCounts fits fun _ _ => rfl).trans (restartRest_countsStand _).keepsCounts
  · exact .refl s

/-! ### A pizzicato entry leaves -/

theorem cell_apart {p : Profile} (fits : p.Fits) {d k i j : Nat} (lk : k < 64) (lj : j < p.keyCount i)
    (other : ¬ (i = d ∧ j = k)) : cell i j ≠ cell d k := fun same =>
  other ((cell_eq_iff (Nat.lt_of_lt_of_le lj (fits.keys i)) lk).1 same)

/-- R18, R32, R33: the application of an entry's end, the list being without it after. -/
theorem pizzApplication_keepsCounts {s : State} (fits : s.prof.Fits) {d k : Nat} (low : k < s.prof.keyCount d)
    (second : s.mergedTouch d k = .second) (was : s.hasPizz d k = true) :
    s.keepsCounts (application false (pizzDeltas s.prof s.km.stopOn d k)
      { s with km := { s.km with pizzicato := withoutKey d k s.km.pizzicato } }) := by
  have gone : listed d k (withoutKey d k s.km.pizzicato) = false := by
    rw [Bool.eq_false_iff]
    intro stands
    obtain ⟨e, m, own⟩ := listed_iff.1 stands
    exact (mem_withoutKey.1 m).2 own
  have moves : KeyMoves s.prof d k s.mergedTouch s.mergedTouch s.hasPizz
      (fun i j => listed i j (withoutKey d k s.km.pizzicato)) :=
    ⟨fun _ _ _ _ => rfl, fun i j _ other => (listed_withoutKey other _).symm⟩
  have ready : s.prepares { s with km := { s.km with pizzicato := withoutKey d k s.km.pizzicato } }
      (pizzDeltas s.prof s.km.stopOn d k) :=
    { frame := rfl
      untuned := fun _ none => none
      stops := fun law => law
      fits := pizzDeltas_fits _ _ _ _
      balance := fun c => (moves.expired low (fun e m f => fun kind => (fits.traps e m f _ kind).2 rfl) second second was
        gone s.km.stopOn c).beside _ }
  exact ready.keepsCounts fits fun _ _ => rfl

theorem pizzExpiry_keepsCounts {s : State} (fits : s.prof.Fits) {d k : Nat} (low : k < s.prof.keyCount d)
    (second : s.mergedTouch d k = .second) (was : s.hasPizz d k = true) : s.keepsCounts (pizzExpiry d k s) := by
  have keeps := pizzApplication_keepsCounts fits low second was
  rw [pizzApplication_withKm] at keeps
  have same : pizzExpiry d k s = { application false (pizzDeltas s.prof s.km.stopOn d k) s with
      km := { s.km with pizzicato := withoutKey d k s.km.pizzicato } } := by
    unfold pizzExpiry removePizz
    rw [application_km]
    rfl
  rw [same]
  exact keeps

/-- R24, R30: the key of an entry in the list is one that its division has. -/
theorem State.KeyboardBut.listed_low {s : State} {d k : Nat} (h : s.KeyboardBut d k) {e : PizzEntry}
    (m : e ∈ s.km.pizzicato) (other : ¬ (e.division = d ∧ e.key = k)) : e.key < s.prof.keyCount e.division := by
  obtain ⟨ld, lk, second, -⟩ := h.entries e m
  by_contra above
  rw [h.merged _ _ ld lk other, State.highest_eq_up.2 fun c l => h.keys c _ _ l ld (Nat.not_lt.1 above) lk] at second
  cases second

theorem State.KeyboardSound.listed_low {s : State} (h : s.KeyboardSound) {e : PizzEntry} (m : e ∈ s.km.pizzicato) :
    e.key < s.prof.keyCount e.division := by
  obtain ⟨ld, lk, second, -⟩ := h.entries e m
  by_contra above
  rw [h.above_up ld lk (Nat.not_lt.1 above)] at second
  cases second

/-! ### A merged change -/

/-- R32: room has been made where the merged touch is to rise to SECOND; the merged touch has not moved yet. -/
def State.withRoom (s : State) (new : Touch) : State :=
  { s.roomed new with km := { s.km with pizzicato := if new = .second then roomIn s.km.pizzicato else s.km.pizzicato } }

section
variable {s : State} {d k : Nat}

theorem State.KeyboardBut.withRoom_keepsCounts (h : s.KeyboardBut d k) (fits : s.prof.Fits) {new : Touch}
    (moved : s.mergedTouch d k ≠ new) : s.keepsCounts (s.withRoom new) := by
  unfold State.withRoom State.roomed
  by_cases rises : new = .second
  · subst rises
    rw [if_pos rfl, if_pos rfl]
    unfold State.evicted roomIn
    split
    · cases found : earliestPizz s.km.pizzicato with
      | none => exact .refl s
      | some e =>
        have m : e ∈ s.km.pizzicato := by
          rw [earliestPizz_ordered h.ordered] at found
          exact List.mem_of_head? found
        have other := h.not_listed moved e m
        have keeps := pizzApplication_keepsCounts fits (h.listed_low m other) (h.entries e m).2.2.1
          (listed_iff.2 ⟨e, m, rfl, rfl⟩)
        rw [pizzApplication_withKm] at keeps
        exact keeps
    · exact .refl s
  · rw [if_neg rises, if_neg rises]
    exact .refl s

theorem State.withRoom_prof (s : State) (new : Touch) : (s.withRoom new).prof = s.prof := (s.roomed_same new).1

/-- R30, R31, R34: what the list says of the other keys is what it said once room was made. -/
theorem State.listed_listAfter_other {i j : Nat} (other : ¬ (i = d ∧ j = k)) (s : State) (old new : Touch) :
    listed i j (s.listAfter d k old new) = (s.withRoom new).hasPizz i j := by
  have mine : listed i j [s.pizzEntry s.now d k] = false := by
    rw [Bool.eq_false_iff]
    intro stands
    obtain ⟨e, m, own⟩ := listed_iff.1 stands
    rw [List.mem_singleton.1 m] at own
    exact other ⟨own.1.symm, own.2.symm⟩
  have risen : listed i j (if new = .second then roomIn s.km.pizzicato ++ [s.pizzEntry s.now d k] else s.km.pizzicato) =
      (s.withRoom new).hasPizz i j := by
    rw [State.hasPizz_eq]
    unfold State.withRoom
    split
    · unfold listed at mine ⊢
      rw [List.any_append, mine, Bool.or_false]
    · rfl
  rw [← risen]
  unfold State.listAfter
  dsimp only
  split
  · exact listed_withoutKey other _
  · rfl

/-- R32: making room does not take the key's own entry. -/
theorem State.KeyboardBut.withRoom_own (h : s.KeyboardBut d k) {new : Touch} (moved : s.mergedTouch d k ≠ new) :
    (s.withRoom new).hasPizz d k = s.hasPizz d k := by
  rw [State.hasPizz_eq, State.hasPizz_eq]
  unfold State.withRoom
  dsimp only
  split
  · next rises =>
    subst rises
    have none : ∀ l : List PizzEntry, l.Sublist s.km.pizzicato → listed d k l = false := fun l sub => by
      rw [Bool.eq_false_iff]
      intro stands
      obtain ⟨e, m, own⟩ := listed_iff.1 stands
      exact h.not_listed moved e (sub.subset m) own
    rw [none _ (roomIn_sublist _), none _ (.refl _)]
  · rfl

theorem State.KeyboardBut.prepares_merging (h : s.KeyboardBut d k) (fits : s.prof.Fits) (low : k < s.prof.keyCount d)
    {new : Touch} (moved : s.mergedTouch d k ≠ new) :
    (s.withRoom new).prepares { s.withRoom new with km := s.kmAfter d k (s.mergedTouch d k) new }
      (mergedDeltas s.prof s.km.stopOn d k (s.mergedTouch d k) new (s.hasPizz d k)
        (listed d k (s.listAfter d k (s.mergedTouch d k) new))) := by
  have lk : k < 64 := Nat.lt_of_lt_of_le low (fits.keys d)
  have prof := s.withRoom_prof new
  have touched : ∀ i j, (s.withRoom new).mergedTouch i j = s.mergedTouch i j := fun _ _ => rfl
  have moves : KeyMoves s.prof d k (s.withRoom new).mergedTouch
      (fun i j => (s.kmAfter d k (s.mergedTouch d k) new).merged.get (cell i j)) (s.withRoom new).hasPizz
      (fun i j => listed i j (s.listAfter d k (s.mergedTouch d k) new)) :=
    { touch := fun i j lj other => (Table.get_set_ne _ (cell_apart fits lk lj other) _).symm
      pizz := fun i j lj other => (s.listed_listAfter_other other _ _).symm }
  have own : (s.kmAfter d k (s.mergedTouch d k) new).merged.get (cell d k) = new := Table.get_set_self _ _ _
  refine
    { frame := rfl
      untuned := fun _ none => none
      stops := fun law => law
      fits := by rw [prof]; exact mergedDeltas_fits _ _ _ _ _ _ _ _
      balance := fun c => ?_ }
  have balance := moves.merged low s.km.stopOn c
  rw [h.withRoom_own moved, own, touched] at balance
  rw [show State.prof { s.withRoom new with km := s.kmAfter d k (s.mergedTouch d k) new } = s.prof from prof, prof]
  refine Balanced.beside ?_ _
  unfold State.calls
  rw [prof, show State.prof { s.withRoom new with km := s.kmAfter d k (s.mergedTouch d k) new } = s.prof from prof]
  exact balance

end

end Sys2Proof.Machine
end

section
/-! Merged changes and what brings them about: stud deltas, touches, frames and the loss of a console (R23 to R36). -/

namespace Sys2Proof.Machine

/-! ### The stud part -/

/-- R28, R84: a stud delta moves one stud part; the effect may start or stop. -/
theorem studDelta_keepsDemand (e : Nat) (up : Bool) (s : State) :
    s.keepsDemand (studDelta e up s) ∧ (∀ f, s.Counted (.trap f) → (studDelta e up s).Counted (.trap f)) ∧
      (s.CueSound → (studDelta e up s).CueSound) := by
  have written : ∀ f, (s.setTrigger e { s.trigger e with stud := up }).trigger f =
      { s.trigger f with stud := if f = e then up else (s.trigger f).stud } := fun f => by
    rw [State.trigger_setTrigger]
    split
    · next own => rw [own]
    · rfl
  have first : s.keepsDemand (s.setTrigger e { s.trigger e with stud := up }) :=
    { sets := fun law => ⟨law.member, law.ascending, law.unprofiled⟩
      untuned := fun law => law
      counted := fun c other law => by
        cases c with
        | count kind o => exact law
        | trap f => exact absurd rfl (other f)
        | group g => exact law
      stops := fun law => law
      few := fun law => law
      trems := fun _ law => law }
  have acts := (countMoved_countsStand e (s.trigger e).count up (s.setTrigger e { s.trigger e with stud := up })).keepsCounts
  refine ⟨first.trans acts.tokeepsDemand, fun f law => acts.trap f ?_, fun law => acts.cue fun f => ?_⟩
  · show ((s.setTrigger e { s.trigger e with stud := up }).trigger f).trap = _
    rw [written]
    exact law
  · rw [written]
    exact law f

/-- R28: what a stud delta makes of the stud parts. -/
theorem studDelta_stud (e : Nat) (up : Bool) (s : State) (f : Nat) :
    ((studDelta e up s).trigger f).stud = if f = e then up else (s.trigger f).stud := by
  have acts := countMoved_countsStand e (s.trigger e).count up (s.setTrigger e { s.trigger e with stud := up })
  have same : (studDelta e up s).trigger f = (s.setTrigger e { s.trigger e with stud := up }).trigger f := by
    unfold State.trigger
    exact congrArg (fun m : Table Trigger => m.get f) acts.triggers
  rw [same, State.trigger_setTrigger]
  split <;> rfl

theorem studFold_stud (up : Bool) (l : List Nat) (f : Nat) : ∀ s : State,
    ((l.foldl (fun s e => studDelta e up s) s).trigger f).stud = if f ∈ l then up else (s.trigger f).stud := by
  induction l with
  | nil => exact fun _ => rfl
  | cons e rest ih =>
    intro s
    rw [List.foldl_cons, ih, studDelta_stud]
    by_cases later : f ∈ rest
    · rw [if_pos later, if_pos (List.mem_cons_of_mem _ later)]
    · rw [if_neg later]
      exact if_congr (by simp [later]) rfl rfl

/-- R28: the stud deltas of a merged change on division 7. -/
theorem studDeltas_keepsDemand (k : Nat) (old new : Touch) (s : State) :
    s.keepsDemand (studDeltas k old new s) ∧ (∀ f, s.Counted (.trap f) → (studDeltas k old new s).Counted (.trap f)) ∧
      (s.CueSound → (studDeltas k old new s).CueSound) := by
  have along : ∀ (up : Bool) (l : List Nat) (s : State), s.keepsDemand (l.foldl (fun s e => studDelta e up s) s) ∧
      (∀ f, s.Counted (.trap f) → (l.foldl (fun s e => studDelta e up s) s).Counted (.trap f)) ∧
      (s.CueSound → (l.foldl (fun s e => studDelta e up s) s).CueSound) := by
    intro up l
    induction l with
    | nil => exact fun s => ⟨.refl s, fun _ law => law, fun law => law⟩
    | cons e rest ih =>
      intro s
      obtain ⟨demand, trap, cue⟩ := studDelta_keepsDemand e up s
      obtain ⟨demand', trap', cue'⟩ := ih (studDelta e up s)
      exact ⟨demand.trans demand', fun f law => trap' f (trap f law), fun law => cue' (cue law)⟩
  unfold studDeltas
  split
  · exact along _ _ _
  · split
    · exact along _ _ _
    · exact ⟨.refl s, fun _ law => law, fun law => law⟩

/-- R28: the stud of effect `e` sounds, where the keys of division 7 have these touches. -/
def Profile.studSounds (p : Profile) (touch : Nat → Touch) (e : Nat) : Prop :=
  ∃ x k, p.effects[e]? = some x ∧ x.stud = some k ∧ touch k ≠ .up

theorem State.studSound_iff {s : State} :
    s.StudSound ↔ ∀ e, (s.trigger e).stud = true ↔ s.prof.studSounds (s.mergedTouch 7) e := Iff.rfl

theorem Profile.mem_studEffects {p : Profile} {k e : Nat} :
    e ∈ p.studEffects k ↔ ∃ x, p.effects[e]? = some x ∧ x.stud = some k := by
  unfold Profile.studEffects
  rw [List.mem_filter, List.mem_range, beq_iff_eq]
  constructor
  · rintro ⟨-, named⟩
    cases found : p.effects[e]? with
    | none => rw [found] at named; cases named
    | some x => rw [found] at named; exact ⟨x, rfl, named⟩
  · rintro ⟨x, found, named⟩
    refine ⟨(List.getElem?_eq_some_iff.1 found).1, ?_⟩
    rw [found]
    exact named

/-- R28: where the touch of key `k` moves, the studs of the effects that name it move with it, and no other. -/
theorem Profile.Fits.studSounds_moved {p : Profile} (fits : p.Fits) {k : Nat} {touch touch' : Nat → Touch}
    (same : ∀ j, j < 64 → j ≠ k → touch' j = touch j) (e : Nat) :
    (e ∈ p.studEffects k → (p.studSounds touch' e ↔ touch' k ≠ .up)) ∧
      (e ∉ p.studEffects k → (p.studSounds touch' e ↔ p.studSounds touch e)) := by
  constructor
  · intro m
    obtain ⟨x, found, named⟩ := Profile.mem_studEffects.1 m
    refine ⟨?_, fun sounds => ⟨x, k, found, named, sounds⟩⟩
    rintro ⟨y, j, found', named', sounds⟩
    obtain rfl : x = y := Option.some.inj (found.symm.trans found')
    obtain rfl : k = j := Option.some.inj (named.symm.trans named')
    exact sounds
  · intro m
    refine exists_congr fun x => exists_congr fun j => and_congr_right fun found => and_congr_right fun named => ?_
    rw [same j (fits.studs x (List.mem_of_getElem? found) j named)]
    rintro rfl
    exact m (Profile.mem_studEffects.2 ⟨x, found, named⟩)

theorem studDeltas_stud (k : Nat) (old new : Touch) (s : State) (f : Nat) :
    ((studDeltas k old new s).trigger f).stud =
      if f ∈ s.prof.studEffects k ∧ ¬ (old = .up ↔ new = .up) then decide (new ≠ .up) else (s.trigger f).stud := by
  unfold studDeltas
  by_cases rises : old = .up ∧ new ≠ .up
  · rw [if_pos rises, studFold_stud]
    simp [rises.1, rises.2]
  · rw [if_neg rises]
    by_cases falls : old ≠ .up ∧ new = .up
    · rw [if_pos falls, studFold_stud]
      simp [falls.1, falls.2]
    · rw [if_neg falls, if_neg]
      rintro ⟨-, differ⟩
      by_cases was : old = .up <;> by_cases is : new = .up <;> simp_all

/-! ### A merged change -/

section
variable {s : State} {d k : Nat}

theorem State.merging_movesCounts (s : State) (allOff : Bool) (d k : Nat) (old new : Touch) :
    State.movesCounts { s.withRoom new with km := s.kmAfter d k old new } (s.merging allOff d k old new) :=
  application_movesCounts _ _ _

theorem State.merging_mergedTouch (s : State) (allOff : Bool) (d k : Nat) (old new : Touch) (i j : Nat) :
    (s.merging allOff d k old new).mergedTouch i j = if cell i j = cell d k then new else s.mergedTouch i j := by
  unfold State.mergedTouch
  rw [(s.merging_movesCounts allOff d k old new).km]
  exact Table.get_set _ _ _ _

/-- R28: on division 7 the stud deltas bring the stud parts to what the moved touch gives. -/
theorem State.KeyboardBut.studs_follow (h : s.KeyboardBut 7 k) (fits : s.prof.Fits) (low : k < s.prof.keyCount 7)
    {new : Touch} (moved : s.mergedTouch 7 k ≠ new) (law : s.StudSound) :
    (s.studded false 7 k (s.mergedTouch 7 k) new).StudSound := by
  have lk : k < 64 := Nat.lt_of_lt_of_le low (fits.keys 7)
  have moves := s.merging_movesCounts false 7 k (s.mergedTouch 7 k) new
  have touch := s.merging_mergedTouch false 7 k (s.mergedTouch 7 k) new 7
  have prof : (s.merging false 7 k (s.mergedTouch 7 k) new).prof = s.prof := moves.prof.trans (s.withRoom_prof new)
  have before : ∀ e, ((s.merging false 7 k (s.mergedTouch 7 k) new).trigger e).stud = true ↔
      s.prof.studSounds (s.mergedTouch 7) e := fun e => by
    have roomed := State.studSound_iff.1 ((h.withRoom_keepsCounts fits moved).stud law) e
    rw [s.withRoom_prof] at roomed
    rw [moves.stud]
    exact roomed
  unfold State.studded
  rw [if_pos ⟨rfl, rfl⟩, State.studSound_iff]
  generalize s.merging false 7 k (s.mergedTouch 7 k) new = m at touch prof before
  intro e
  have after : (studDeltas k (s.mergedTouch 7 k) new m).mergedTouch 7 = m.mergedTouch 7 :=
    congrArg (fun km : Km => fun j => km.merged.get (cell 7 j)) (studDeltas_km k _ new m)
  rw [studDeltas_stud, ReachKm.prof (studDeltas_reach k _ new m), after, prof]
  obtain ⟨own, others⟩ := fits.studSounds_moved (k := k) (touch := s.mergedTouch 7) (touch' := m.mergedTouch 7)
    (fun j lj other => by rw [touch, if_neg fun same => other ((cell_eq_iff lj lk).1 same).2]) e
  by_cases names : e ∈ s.prof.studEffects k
  · rw [own names, touch, if_pos rfl]
    by_cases crosses : (s.mergedTouch 7 k = .up ↔ new = .up)
    · rw [if_neg fun both => both.2 crosses, before, (fits.studSounds_moved (fun _ _ _ => rfl) e).1 names, not_iff_not]
      exact crosses
    · rw [if_pos ⟨names, crosses⟩, decide_eq_true_eq]
  · rw [others names, if_neg fun both => names both.1]
    exact before e

/-- R27: RE's part of a merged change. -/
theorem State.KeyboardBut.merging_keeps (h : s.KeyboardBut d k) (fits : s.prof.Fits) (low : k < s.prof.keyCount d)
    (allOff : Bool) {new : Touch} (moved : s.mergedTouch d k ≠ new) :
    s.keepsDemand (s.merging allOff d k (s.mergedTouch d k) new) ∧
      (s.CueSound → (s.merging allOff d k (s.mergedTouch d k) new).CueSound) ∧
      (allOff = false → ∀ e, s.Counted (.trap e) → (s.merging allOff d k (s.mergedTouch d k) new).Counted (.trap e)) := by
  have room := h.withRoom_keepsCounts fits moved
  have ready := h.prepares_merging fits low moved
  have fits' : (s.withRoom new).prof.Fits := by rw [s.withRoom_prof]; exact fits
  exact ⟨room.tokeepsDemand.trans (ready.keepsDemand fits'.apart allOff), fun law => ready.cues allOff (room.cue law),
    fun taken e law => ready.counted (.inl taken) (room.trap e law)⟩

/-- R27, R28: RE's and EE's parts of a merged change. -/
theorem State.KeyboardBut.studded_keepsCounts (h : s.KeyboardBut d k) (fits : s.prof.Fits) (low : k < s.prof.keyCount d)
    {new : Touch} (moved : s.mergedTouch d k ≠ new) :
    s.keepsCounts (s.studded false d k (s.mergedTouch d k) new) := by
  obtain ⟨demand, cue, trap⟩ := h.merging_keeps fits low false moved
  obtain ⟨demand', trap', cue'⟩ := studDeltas_keepsDemand k (s.mergedTouch d k) new (s.merging false d k (s.mergedTouch d k) new)
  by_cases studs : d = 7
  · subst studs
    have follow := h.studs_follow fits low moved
    unfold State.studded at follow ⊢
    rw [if_pos ⟨rfl, rfl⟩] at follow ⊢
    exact ⟨⟨demand.trans demand', fun e law => trap' e (trap rfl e law), follow⟩, fun law => cue' (cue law)⟩
  · unfold State.studded
    rw [if_neg fun both => studs both.1]
    refine ⟨⟨demand, trap rfl, fun law => ?_⟩, cue⟩
    have lk : k < 64 := Nat.lt_of_lt_of_le low (fits.keys d)
    refine (h.prepares_merging fits low moved).studs false (fun j lj => ?_) (by rw [s.withRoom_prof]; exact fits)
      ((h.withRoom_keepsCounts fits moved).stud law)
    exact Table.get_set_ne _ (fun same => studs ((cell_eq_iff lj lk).1 same).1.symm) _

theorem State.KeyboardBut.remerge_keepsCounts (h : s.KeyboardBut d k) (fits : s.prof.Fits) (low : k < s.prof.keyCount d) :
    s.keepsCounts (Machine.remerge false d k s) := by
  by_cases moved : s.mergedTouch d k = s.highest d k
  · rw [remerge_still moved]
    exact .refl s
  · rw [remerge_moved moved, mergedChange_eq]
    have rested := (h.studded_keepsCounts fits low moved).trans (restartRest_countsStand _).keepsCounts
    split
    · exact rested.trans (offerWake_countsStand _ _).keepsCounts
    · exact rested

theorem State.KeyboardBut.remerge_keepsDemand (h : s.KeyboardBut d k) (fits : s.prof.Fits) (low : k < s.prof.keyCount d)
    (allOff : Bool) : s.keepsDemand (Machine.remerge allOff d k s) := by
  cases allOff with
  | false => exact (h.remerge_keepsCounts fits low).tokeepsDemand
  | true =>
    by_cases moved : s.mergedTouch d k = s.highest d k
    · rw [remerge_still moved]
      exact .refl s
    · rw [remerge_moved moved, mergedChange_eq]
      have studded : s.keepsDemand (s.studded true d k (s.mergedTouch d k) (s.highest d k)) := by
        unfold State.studded
        rw [if_neg (by simp)]
        exact (h.merging_keeps fits low true moved).1
      have rested := studded.trans (restartRest_countsStand _).keepsCounts.tokeepsDemand
      split
      · exact rested.trans (offerWake_countsStand _ _).keepsCounts.tokeepsDemand
      · exact rested

end

/-! ### Touches and frames -/

theorem setSlot_keepsCounts (c : Nat) (v : Slot) (s : State) : s.keepsCounts (s.setSlot c v) := .withKm rfl rfl rfl

theorem withRefused_keepsCounts (refused : Table Bool) (s : State) :
    s.keepsCounts { s with km := { s.km with refused := refused } } := .withKm rfl rfl rfl

theorem setSlotTouch_keepsCounts (c d k : Nat) (v : Touch) (s : State) : s.keepsCounts (s.setSlotTouch c d k v) :=
  .withKm rfl rfl rfl

theorem State.KeyboardSound.setTouch_keepsCounts {s : State} (h : s.KeyboardSound) (fits : s.prof.Fits) {c d k : Nat}
    {v : Touch} (low : k < s.prof.keyCount d) (bound : (s.slot c).station ≠ none ∨ v = .up) :
    s.keepsCounts (Machine.setTouch c d k v s) := by
  unfold Machine.setTouch
  split
  · exact .refl s
  · have but := (h.but d k).setSlotTouch (v := v) low (Nat.lt_of_lt_of_le low (fits.keys d)) bound
    exact (setSlotTouch_keepsCounts c d k v s).trans (but.remerge_keepsCounts fits low)

/-- R24: the changes of a KEYS frame. -/
theorem State.playedFrom.keyChanges_keepsCounts {c d : Nat} (ld : d < 8) (changes : List (Fin 64 × BitVec 2)) {s : State}
    (h : s.playedFrom c) (fits : s.prof.Fits) : s.keepsCounts (changes.foldl (Machine.keyChange c d) s) := by
  refine (keepsCounts_foldl (P := fun t => t.playedFrom c ∧ t.prof = s.prof) (Machine.keyChange c d) changes
    (fun t x _ ht => ⟨⟨ht.1.keyChange ld x, (keyChange_reach c d t x).prof.trans ht.2⟩, ?_⟩) ⟨h, rfl⟩).2
  unfold Machine.keyChange
  split
  · next low => exact ht.1.1.setTouch_keepsCounts (by rw [ht.2]; exact fits) low (.inl ht.1.2)
  · exact .refl t

theorem withSlot_keepsCounts {s : State} (h : s.KeyboardSound) (a : Station) (detail : Nat) {apply : Nat → State → State}
    (keeps : ∀ c (t : State), t.prof = s.prof → t.playedFrom c → t.keepsCounts (apply c t)) :
    s.keepsCounts (withSlot a detail apply s) := by
  unfold Machine.withSlot
  split
  · next c e =>
    refine keeps c s rfl ⟨h, ?_⟩
    rw [(State.slotOf_bound e).2]
    simp
  · next unbound =>
    split
    · next c e =>
      exact (setSlot_keepsCounts c _ s).trans (keeps c _ rfl ⟨h.bind unbound e, by simp⟩)
    · unfold refuseConsole
      split
      · exact .refl s
      · exact (withRefused_keepsCounts _ s).trans (reportFault_countsStand _ _ _ _).keepsCounts

theorem stopChanges_keepsCounts (changes : List (Fin 1024 × Bool)) {s : State} (fits : s.prof.Fits) :
    s.keepsCounts (changes.foldl stopChange s) :=
  (keepsCounts_foldl (P := fun t => t.prof = s.prof) stopChange changes
    (fun t x _ same => ⟨(stopChange_reach t x).prof.trans same, stopChange_keepsCounts (by rw [same]; exact fits) x⟩) rfl).2

/-! ### The loss of a console -/

theorem State.KeyboardSound.dropDivisions_keepsCounts {s : State} (h : s.KeyboardSound) (fits : s.prof.Fits) (c : Nat) :
    s.keepsCounts ((List.range 8).foldl (Machine.dropDivision c) s) := by
  refine (keepsCounts_foldl (P := fun t => t.KeyboardSound ∧ t.prof = s.prof) (Machine.dropDivision c) (List.range 8)
    (fun t d md ht => ?_) ⟨h, rfl⟩).2
  have fits' : t.prof.Fits := by rw [ht.2]; exact fits
  refine ⟨⟨ht.1.dropDivision c (List.mem_range.1 md) fits'.keys, (dropDivision_reach c t d).prof.trans ht.2⟩, ?_⟩
  refine (keepsCounts_foldl (P := fun v => v.KeyboardSound ∧ v.prof = t.prof) (fun v k => Machine.setTouch c d k .up v)
    (List.range (t.prof.keyCount d)) (fun v k mk hv => ?_) ⟨ht.1, rfl⟩).2
  have low : k < v.prof.keyCount d := by rw [hv.2]; exact List.mem_range.1 mk
  have fits'' : v.prof.Fits := by rw [hv.2]; exact fits'
  exact ⟨⟨hv.1.setTouch (List.mem_range.1 md) (Nat.lt_of_lt_of_le low (fits''.keys d)) low (.inr rfl),
    (setTouch_reach c d k .up v).prof.trans hv.2⟩, hv.1.setTouch_keepsCounts fits'' low (.inr rfl)⟩

theorem State.KeyboardSound.consoleLoss_keepsCounts {s : State} (h : s.KeyboardSound) (fits : s.prof.Fits) (a : Station)
    (c : Nat) : s.keepsCounts (Machine.consoleLoss a c s) := by
  have fallen := h.dropDivisions_keepsCounts fits c
  have prof : ((List.range 8).foldl (Machine.dropDivision c) s).prof = s.prof :=
    ReachKm.prof (foldl_reach ReachKm ReachKm.refl (fun _ _ _ => ReachKm.trans) _ (dropDivision_reach c) (List.range 8) s)
  unfold Machine.consoleLoss
  dsimp only
  generalize (List.range 8).foldl (Machine.dropDivision c) s = t at fallen prof
  have fits' : (Machine.releaseShoes c t).prof.Fits := by
    rw [(releaseShoes_reach c t).app.ch.km.prof, prof]
    exact fits
  have untuned := (fallen.trans (releaseShoes_countsStand c t).keepsCounts).trans (endHoldOf_keepsCounts a fits')
  have freed := untuned.trans (setSlot_keepsCounts c { station := none, touch := .empty } _)
  split
  · exact freed.trans (reportFault_countsStand _ _ _ _).keepsCounts
  · exact freed

theorem State.KeyboardSound.stationLost_keepsCounts {s : State} (h : s.KeyboardSound) (fits : s.prof.Fits) (a : Station) :
    s.keepsCounts (Machine.stationLost a s) := by
  have left : State.KeyboardSound { s with km := { s.km with refused := s.km.refused.set a.val false } } :=
    ⟨h.free, h.distinct, h.keys, h.merged, h.entries, h.once, h.ordered, h.capacity⟩
  have first := withRefused_keepsCounts (s.km.refused.set a.val false) s
  unfold Machine.stationLost
  dsimp only
  split
  · exact first.trans (left.consoleLoss_keepsCounts fits a _)
  · exact first.trans (endHoldOf_keepsCounts a fits)

end Sys2Proof.Machine
end

section
/-! ALL-OFF (R38, R39, R98) and the edges of the local lines (R84, R177, R178) keep the counts. -/

namespace Sys2Proof.Machine

/-! ### ALL-OFF -/

theorem withTriggers_keepsDemand (triggers : Table Trigger) (s : State) :
    s.keepsDemand { s with ee := { s.ee with triggers := triggers } } where
  sets law := ⟨law.member, law.ascending, law.unprofiled⟩
  untuned law := law
  counted c other law := by
    cases c with
    | count kind o => exact law
    | trap e => exact absurd rfl (other e)
    | group g => exact law
  stops law := law
  few law := law
  trems _ law := law

theorem eeAllOff_keepsDemand (s : State) : s.keepsDemand (eeAllOff s) :=
  ((clearAllGroups_countsStand s).trans (stopEffects_countsStand _)).keepsCounts.tokeepsDemand.trans
    (withTriggers_keepsDemand _ _)

/-- R98: what EE's stop makes of the trigger counts. -/
theorem eeAllOff_trigger (s : State) (e : Nat) :
    (eeAllOff s).trigger e = if e < 32 then { trap := 0, stud := false, cue := (s.trigger e).cue } else s.trigger e := by
  have stands := ((clearAllGroups_countsStand s).trans (stopEffects_countsStand _)).triggers
  unfold State.trigger eeAllOff zeroKeyParts
  rw [← stands]
  generalize 32 = n
  exact zeroKeyParts_get n _ e

theorem State.KeyboardSound.walkKey_keepsDemand {s : State} (h : s.KeyboardSound) (fits : s.prof.Fits) {x : Nat × Nat}
    (ld : x.1 < 8) (lk : x.2 < 64) : s.keepsDemand (Machine.walkKey s x) := by
  unfold Machine.walkKey Machine.allOffKey
  split
  · exact .refl s
  · next sounds =>
    have low : x.2 < s.prof.keyCount x.1 := by
      by_contra above
      exact sounds (h.above_up ld lk (Nat.not_lt.1 above))
    have fallen : ∀ (l : List Nat) (t : State), t.prof = s.prof → t.KeyboardBut x.1 x.2 → s.keepsDemand t →
        let u := l.foldl (fun s c => s.setSlotTouch c x.1 x.2 .up) t
        u.prof = s.prof ∧ u.KeyboardBut x.1 x.2 ∧ s.keepsDemand u := by
      intro l
      induction l with
      | nil => exact fun t same but keeps => ⟨same, but, keeps⟩
      | cons c rest ih =>
        exact fun t same but keeps => ih _ same (but.setSlotTouch (by rw [same]; exact low) lk (.inr rfl))
          (keeps.trans (setSlotTouch_keepsCounts c _ _ _ t).tokeepsDemand)
    obtain ⟨same, but, keeps⟩ := fallen (List.range 4) s rfl (h.but _ _) (.refl s)
    exact keeps.trans (but.remerge_keepsDemand (by rw [same]; exact fits) (by rw [same]; exact low) true)

/-- R38: ALL-OFF is EE's stop, the walk over every key, and the end of the tuning hold. -/
theorem State.KeyboardSound.allOff_eq {s : State} (h : s.KeyboardSound) (fits : s.prof.Fits) :
    Machine.allOff s = endHold (allKeys.foldl Machine.walkKey (eeAllOff s)) := by
  have reach := (eeAllOff_reach s).trig.app.ch
  have fit : (eeAllOff s).keysFit := fun d => by rw [reach.km.prof]; exact fits.keys d
  unfold Machine.allOff
  rw [allOffDivisions_eq (List.range 8) (fun d m => List.mem_range.1 m) (h.same reach.sameKm) fit]
  rfl

theorem State.KeyboardSound.allOff_keepsDemand {s : State} (h : s.KeyboardSound) (fits : s.prof.Fits) :
    s.keepsDemand (Machine.allOff s) := by
  have reach := (eeAllOff_reach s).trig.app.ch
  have prof : (eeAllOff s).prof = s.prof := reach.km.prof
  have walk := keeps_foldl (P := fun t => t.KeyboardSound ∧ t.prof = s.prof) (R := State.keepsDemand)
    State.keepsDemand.refl (fun _ _ _ => State.keepsDemand.trans) Machine.walkKey allKeys (fun t x m ht => by
      obtain ⟨ld, lk⟩ := mem_allKeys.1 (show (x.1, x.2) ∈ allKeys from m)
      exact ⟨⟨ht.1.walkKey ⟨ld, lk⟩, (allOffKey_walk x.1 x.2 t).prof.trans ht.2⟩,
        ht.1.walkKey_keepsDemand (by rw [ht.2]; exact fits) ld lk⟩) ⟨h.same reach.sameKm, prof⟩
  rw [h.allOff_eq fits]
  refine ((eeAllOff_keepsDemand s).trans walk.2).trans (endHold_keepsCounts ?_).tokeepsDemand
  rw [walk.1.2]
  exact fits

/-- Where every key is UP, only TREM entries call for anything. -/
theorem State.calls_up {s : State} (keys : ∀ d, s.prof.keyCount d ≤ 64) (divisions : ∀ e ∈ s.prof.entries, e.division < 8)
    (up : ∀ d k, d < 8 → k < 64 → s.mergedTouch d k = .up) {c : Counter}
    (keyed : ∀ g, c ≠ .group g) : s.calls c = 0 := by
  have none : ∀ e ∈ s.prof.entries, e.calls s.prof s.mergedTouch s.hasPizz c = 0 := fun e m => by
    unfold StopEntry.calls
    cases kind : e.kind with
    | trem g => exact if_neg (keyed g)
    | voice _ _ _ _ _ _ | trap _ _ =>
      refine List.sum_eq_zero fun n mn => ?_
      obtain ⟨k, mk, rfl⟩ := List.mem_map.1 mn
      have lk := Nat.lt_of_lt_of_le (List.mem_range.1 mk) (keys e.division)
      rw [up _ k (divisions e m) lk]
      refine if_neg fun held => ?_
      unfold StopEntry.holds TouchCondition.holds at held
      rw [kind] at held
      split at held <;> simp_all
  unfold State.calls Profile.calls
  refine List.sum_eq_zero fun n mn => ?_
  obtain ⟨e, m, rfl⟩ := List.mem_map.1 mn
  split
  · exact none e m
  · rfl

theorem State.stoppedTo.ll {s t : State} (h : s.stoppedTo t) : t.ll = s.ll := by rw [h.frame]

/-- R39, R98: what ALL-OFF leaves of the sources of the trigger counts. -/
structure State.silencedTo (s u : State) : Prop where
  prof : u.prof = s.prof
  trigger : ∀ e, u.trigger e = if e < 32 then { trap := 0, stud := false, cue := (s.trigger e).cue } else s.trigger e
  lines : u.ll = s.ll
  up : ∀ d k, d < 8 → k < 64 → u.mergedTouch d k = .up

theorem State.untunedTo.silences {s v w u : State} (prof : v.prof = s.prof) (lines : v.ll = s.ll)
    (trigger : ∀ e, v.trigger e = if e < 32 then { trap := 0, stud := false, cue := (s.trigger e).cue } else s.trigger e)
    (walk : v.walkedTo w) (ended : w.untunedTo u) : s.silencedTo u where
  prof := by
    rw [ended.frame]
    exact walk.reach.prof.trans prof
  trigger e := by
    rw [← trigger, ended.frame]
    show w.trigger e = _
    rw [walk.reach.1]
    rfl
  lines := by
    rw [ended.frame]
    show w.ll = _
    rw [← lines, walk.reach.1]
  up d k ld lk := by
    rw [ended.frame]
    exact walk.up d k ld lk

theorem State.KeyboardSound.allOff_silences {s : State} (h : s.KeyboardSound) (fits : s.prof.Fits) :
    s.silencedTo (Machine.allOff s) := by
  have reach := (eeAllOff_reach s).trig.app.ch
  have walk := (h.same reach.sameKm).walkedTo
  have ended := endHold_ended (allKeys.foldl Machine.walkKey (eeAllOff s))
  rw [← h.allOff_eq fits] at ended
  exact ended.silences reach.km.prof (eeAllOff_stopped s).ll (eeAllOff_trigger s) walk

section
variable {s u : State} (h : s.silencedTo u) (fits : s.prof.Fits)
include h fits

/-- R82, R98: no TRAP entry calls for an effect, and the effects' trap parts are 0. -/
theorem State.silencedTo.trap (e : Nat) (law : s.Counted (.trap e)) : u.Counted (.trap e) := by
  have fits' : u.prof.Fits := by rw [h.prof]; exact fits
  unfold State.Counted at law ⊢
  rw [State.calls_up fits'.keys fits'.divisions h.up (by simp)]
  show (u.trigger e).trap = 0
  rw [h.trigger]
  split
  · rfl
  · next high =>
    have calls : s.calls (.trap e) = 0 := by
      refine List.sum_eq_zero fun n mn => ?_
      obtain ⟨x, m, rfl⟩ := List.mem_map.1 mn
      split
      · cases kind : x.kind with
        | trem g => rw [StopEntry.calls_trem kind]; simp
        | voice _ _ _ _ _ _ => exact StopEntry.calls_voice kind _ _ (by simp)
        | trap f c =>
          rw [StopEntry.calls_trap kind]
          refine if_neg fun same => high ?_
          injection same with same
          rw [same]
          exact (fits.traps x m f c kind).1
      · rfl
    rw [calls] at law
    exact law

theorem State.silencedTo.stud (law : s.StudSound) : u.StudSound := by
  intro e
  have effect : u.effect e = s.effect e := by unfold State.effect; rw [h.prof]
  have silent : ¬ ∃ x k, u.effect e = some x ∧ x.stud = some k ∧ u.mergedTouch 7 k ≠ .up := by
    rintro ⟨x, k, found, named, sounds⟩
    rw [effect] at found
    exact sounds (h.up 7 k (by omega) (fits.studs x (List.mem_of_getElem? found) k named))
  refine iff_of_false ?_ silent
  rw [h.trigger]
  split
  · simp
  · next high =>
    rw [law e]
    rintro ⟨x, k, found, -⟩
    exact high (Nat.lt_of_lt_of_le (List.getElem?_eq_some_iff.1 found).1 fits.effects)

omit fits in
theorem State.silencedTo.cue (law : s.CueSound) : u.CueSound := by
  intro e
  have cue : (u.trigger e).cue = (s.trigger e).cue := by
    rw [h.trigger]
    split <;> rfl
  have effect : u.effect e = s.effect e := by unfold State.effect; rw [h.prof]
  have lines : ∀ l, u.line l = s.line l := fun l => by unfold State.line; rw [h.lines]
  rw [cue, effect]
  simp only [lines]
  exact law e

end

theorem State.KeyboardSound.allOff_keepsCounts {s : State} (h : s.KeyboardSound) (fits : s.prof.Fits) :
    s.keepsCounts (Machine.allOff s) :=
  have silenced := h.allOff_silences fits
  ⟨⟨h.allOff_keepsDemand fits, silenced.trap fits, silenced.stud fits⟩, silenced.cue⟩

end Sys2Proof.Machine
end

section
/-! The edges of the local lines keep the counts (R84, R177, R178). -/

namespace Sys2Proof.Machine

/-! ### The cue parts while an edge is on its way -/

/-- R82, R84: the cue parts are what these levels of the lines give. -/
def State.CueFollows (s : State) (levels : Nat → Bool) : Prop :=
  ∀ e, (s.trigger e).cue = true ↔ ∃ x l, s.effect e = some x ∧ x.mode = .level ∧ x.cueLine = some l ∧ levels l = true

/-- The debounced levels of the lines. -/
def State.levels (s : State) (l : Nat) : Bool := (s.line l).debounced

theorem State.cueSound_iff {s : State} : s.CueSound ↔ s.CueFollows s.levels := Iff.rfl

theorem State.countsStand.cueFollows {s t : State} (h : s.countsStand t) {levels : Nat → Bool}
    (law : s.CueFollows levels) : t.CueFollows levels := fun e => by
  have trigger : t.trigger e = s.trigger e := by unfold State.trigger; rw [h.triggers]
  have effect : t.effect e = s.effect e := by unfold State.effect; rw [h.prof]
  rw [trigger, effect]
  exact law e

theorem State.countsStand.levels {s t : State} (h : s.countsStand t) : t.levels = s.levels := funext h.debounced

/-- R80: the effect of a cue line is the one effect that names it. -/
theorem Profile.Fits.cueEffect {p : Profile} (fits : p.Fits) {l : Nat} (cue : p.lineFunction l = .cue) {e : Nat} {x : Effect}
    (found : p.effects[e]? = some x) : x.cueLine = some l ↔ e = p.cueEffect l := by
  have both := fits.cues e l
  rw [found] at both
  refine (show x.cueLine = some l ↔ _ from both).trans ⟨fun h => h.2.symm, fun h => ⟨cue, h.symm⟩⟩

/-- R176: no effect names a line of another function. -/
theorem Profile.Fits.no_cue {p : Profile} (fits : p.Fits) {l : Nat} (other : p.lineFunction l ≠ .cue) {e : Nat} {x : Effect}
    (found : p.effects[e]? = some x) : x.cueLine ≠ some l := fun named => by
  have both := fits.cues e l
  rw [found] at both
  exact other (both.1 named).1

/-! ### The edge of a cue line -/

/-- R84: the cue part of an effect is set. -/
theorem setCue_keepsKeyed (e : Nat) (v : Bool) (s : State) :
    s.keepsKeyed (s.setTrigger e { s.trigger e with cue := v }) := by
  have written : ∀ f, (s.setTrigger e { s.trigger e with cue := v }).trigger f =
      { s.trigger f with cue := if f = e then v else (s.trigger f).cue } := fun f => by
    rw [State.trigger_setTrigger]
    split
    · next own => rw [own]
    · rfl
  refine ⟨withTriggers_keepsDemand _ s, fun f law => ?_, fun law f => ?_⟩
  · show ((s.setTrigger e { s.trigger e with cue := v }).trigger f).trap = _
    rw [written]
    exact law
  · rw [written]
    exact law f

theorem cueEdge_keepsKeyed (e : Nat) (v : Bool) (s : State) : s.keepsKeyed (cueEdge e v s) := by
  unfold cueEdge
  cases s.effectMode e with
  | none => exact (State.keepsCounts.refl s).tokeepsKeyed
  | some mode =>
    cases mode with
    | edge =>
      dsimp only
      split
      · exact (trigger_countsStand e s).keepsCounts.tokeepsKeyed
      · exact (State.keepsCounts.refl s).tokeepsKeyed
    | level => exact (setCue_keepsKeyed e v s).trans (countMoved_countsStand _ _ _ _).keepsCounts.tokeepsKeyed

/-- R84: what an edge makes of the cue parts. -/
theorem cueEdge_cue (e : Nat) (v : Bool) (s : State) (f : Nat) :
    ((cueEdge e v s).trigger f).cue = if f = e ∧ s.effectMode e = some .level then v else (s.trigger f).cue := by
  have stands : ∀ {a b : State}, a.countsStand b → (b.trigger f).cue = (a.trigger f).cue := fun h => by
    unfold State.trigger
    rw [h.triggers]
  unfold cueEdge
  cases s.effectMode e with
  | none => simp
  | some mode =>
    cases mode with
    | edge =>
      have other : ¬ (f = e ∧ some EffectMode.edge = some EffectMode.level) := by simp
      rw [if_neg other]
      dsimp only
      split
      · exact stands (trigger_countsStand e s)
      · rfl
    | level =>
      dsimp only
      rw [stands (countMoved_countsStand _ _ _ _), State.trigger_setTrigger]
      by_cases own : f = e
      · rw [if_pos own, if_pos ⟨own, rfl⟩]
      · rw [if_neg own, if_neg fun both => own both.1]

theorem cueEdge_keepsStatics (e : Nat) (v : Bool) (s : State) :
    (cueEdge e v s).prof = s.prof ∧ (cueEdge e v s).levels = s.levels := by
  unfold cueEdge
  cases s.effectMode e with
  | none => exact ⟨rfl, rfl⟩
  | some mode =>
    cases mode with
    | edge =>
      dsimp only
      split
      · exact ⟨(trigger_countsStand e s).prof, (trigger_countsStand e s).levels⟩
      · exact ⟨rfl, rfl⟩
    | level => exact ⟨(countMoved_countsStand _ _ _ _).prof, (countMoved_countsStand _ _ _ _).levels⟩

/-- R84: EE takes the edge of a cue line. -/
theorem cueEdge_follows {s : State} (fits : s.prof.Fits) {l : Nat} (cue : s.prof.lineFunction l = .cue) {v : Bool}
    {levels levels' : Nat → Bool} (own : levels' l = v) (others : ∀ j, j ≠ l → levels' j = levels j)
    (law : s.CueFollows levels) : (cueEdge (s.prof.cueEffect l) v s).CueFollows levels' := by
  intro f
  have prof := (cueEdge_keepsStatics (s.prof.cueEffect l) v s).1
  have law' := law f
  rw [cueEdge_cue]
  unfold State.effect State.effectMode State.effect at *
  rw [prof]
  cases found : s.prof.effects[f]? with
  | none =>
    rw [found] at law'
    rw [if_neg]
    · simpa using law'
    · rintro ⟨same, level⟩
      rw [← same, found] at level
      cases level
  | some x =>
    rw [found] at law'
    have inner : ∀ t : Nat → Bool, (∃ y l, some x = some y ∧ y.mode = .level ∧ y.cueLine = some l ∧ t l = true) ↔
        x.mode = .level ∧ ∃ l, x.cueLine = some l ∧ t l = true := fun t =>
      ⟨fun ⟨y, l, e, mode, rest⟩ => by cases e; exact ⟨mode, l, rest⟩, fun ⟨mode, l, rest⟩ => ⟨x, l, rfl, mode, rest⟩⟩
    rw [inner] at law' ⊢
    by_cases named : x.cueLine = some l
    · have here := (fits.cueEffect cue found).1 named
      rw [← here, found, named] at *
      by_cases mode : x.mode = .level
      · rw [if_pos ⟨rfl, by rw [Option.map_some, mode]⟩]
        simp [mode, own]
      · rw [if_neg fun both => mode (Option.some.inj both.2)]
        simpa [mode] using law'
    · rw [if_neg fun both => named ((fits.cueEffect cue found).2 both.1), law']
      refine and_congr_right fun _ => exists_congr fun j => and_congr_right fun line => ?_
      rw [others j fun same => named (by rw [line, same])]

/-! ### A debounced edge -/

theorem setLine_keepsKeyed (l : Nat) (v : Line) (s : State) : s.keepsKeyed (s.setLine l v) := by
  refine
    { sets := fun law => ⟨law.member, law.ascending, law.unprofiled⟩
      untuned := fun law => law
      counted := fun c _ law => ?_
      stops := fun law => law
      few := fun law => law
      trems := fun _ law => law
      trap := fun _ law => law
      stud := fun law => law }
  cases c with
  | count kind o => exact law
  | trap e => exact law
  | group g => exact law

theorem edgeRunner_countsStand (l : Nat) (v : Bool) (s : State) : s.countsStand (edgeRunner l v s) :=
  (offerLine_countsStand l v s).trans (runChamber_countsStand _)

theorem State.KeyboardSound.edgeBlock_keepsCounts {s : State} (h : s.KeyboardSound) (fits : s.prof.Fits) {l : Nat}
    (other : s.prof.lineFunction l ≠ .cue) (v : Bool) : s.keepsCounts (Machine.edgeBlock l v s) := by
  unfold Machine.edgeBlock
  cases function : s.prof.lineFunction l with
  | pressure =>
    dsimp only
    split
    · exact .refl s
    · exact (pressureLoss_countsStand l s).keepsCounts
  | power =>
    dsimp only
    split
    · exact (offerWake_countsStand _ s).keepsCounts
    · exact .refl s
  | cue => exact absurd function other
  | alloff =>
    dsimp only
    split
    · exact h.allOff_keepsCounts fits
    · exact .refl s
  | none | blower | supply | readyLamp | general => exact .refl s

/-- R178: a debounced edge of a line of another function than CUE. -/
theorem State.KeyboardSound.edge_keepsCounts {s : State} (h : s.KeyboardSound) (fits : s.prof.Fits) {l : Nat}
    (other : s.prof.lineFunction l ≠ .cue) (v : Bool) : s.keepsCounts (Machine.debouncedEdge l v s) := by
  have first : s.keepsCounts (s.setLine l { s.line l with debounced := v, debounce := none }) := by
    refine ⟨setLine_keepsKeyed l _ s, fun law e => ?_⟩
    refine (law e).trans (exists_congr fun x => exists_congr fun j => and_congr_right fun found => ?_)
    refine and_congr_right fun _ => and_congr_right fun named => ?_
    rw [State.line_setLine, if_neg]
    rintro rfl
    exact fits.no_cue other found named
  have sound : (s.setLine l { s.line l with debounced := v, debounce := none }).KeyboardSound := h.same ⟨rfl, rfl, rfl⟩
  have prof : (s.setLine l { s.line l with debounced := v, debounce := none }).prof = s.prof := rfl
  unfold Machine.debouncedEdge
  dsimp only
  refine first.trans ?_
  generalize s.setLine l { s.line l with debounced := v, debounce := none } = t at sound prof
  have both : ∀ u : State, u.KeyboardSound → u.prof = s.prof → u.keepsCounts (Machine.edgeBlock l v u) := fun u hu same =>
    hu.edgeBlock_keepsCounts (by rw [same]; exact fits) (by rw [same]; exact other) v
  have runner : ∀ u : State, u.keepsCounts (edgeRunner l v u) := fun u => (edgeRunner_countsStand l v u).keepsCounts
  split
  · split
    · unfold eitherOrder
      dsimp only
      have counted := (withChoices_countsStand (t.choices + 1) t).keepsCounts
      have sound' : State.KeyboardSound { t with choices := t.choices + 1 } := sound.same ⟨rfl, rfl, rfl⟩
      split
      · exact (counted.trans (both _ sound' prof)).trans (runner _)
      · have run := edgeRunner_reach l v { t with choices := t.choices + 1 }
        exact (counted.trans (runner _)).trans (both _ (sound'.same run.sameKm) (run.km.prof.trans prof))
    · exact both _ sound prof
  · exact runner t

/-- R84, R178: a debounced edge of a cue line. -/
theorem cueLineEdge_keepsCounts {s : State} (fits : s.prof.Fits) {l : Nat} (cue : s.prof.lineFunction l = .cue) (v : Bool) :
    s.keepsKeyed (debouncedEdge l v s) ∧ (s.CueSound → (debouncedEdge l v s).CueSound) := by
  have first := setLine_keepsKeyed l { s.line l with debounced := v, debounce := none } s
  have own : (s.setLine l { s.line l with debounced := v, debounce := none }).levels l = v := by
    unfold State.levels
    rw [State.line_setLine, if_pos rfl]
  have others : ∀ j, j ≠ l → (s.setLine l { s.line l with debounced := v, debounce := none }).levels j = s.levels j := by
    intro j other
    unfold State.levels
    rw [State.line_setLine, if_neg other]
  have follows : s.CueSound → (s.setLine l { s.line l with debounced := v, debounce := none }).CueFollows s.levels :=
    fun law => law
  have prof : (s.setLine l { s.line l with debounced := v, debounce := none }).prof = s.prof := rfl
  unfold debouncedEdge
  dsimp only
  rw [prof, cue, if_pos (show LineFunction.cue.acts v = true from rfl)]
  generalize s.setLine l { s.line l with debounced := v, debounce := none } = t at first own others follows prof
  have block : ∀ u : State, u.prof = s.prof → edgeBlock l v u = cueEdge (u.prof.cueEffect l) v u := fun u same => by
    unfold edgeBlock
    rw [same, cue]
  have taken : ∀ u : State, t.countsStand u → u.keepsKeyed (edgeBlock l v u) ∧
      (u.CueFollows s.levels → (edgeBlock l v u).CueSound) := fun u stands => by
    have same : u.prof = s.prof := stands.prof.trans prof
    rw [block u same]
    refine ⟨cueEdge_keepsKeyed _ v u, fun law => ?_⟩
    rw [State.cueSound_iff, (cueEdge_keepsStatics _ v u).2, stands.levels]
    exact cueEdge_follows (by rw [same]; exact fits) (by rw [same]; exact cue) own others law
  have runner : ∀ u : State, u.countsStand (edgeRunner l v u) := edgeRunner_countsStand l v
  have now := taken t (.refl t)
  split
  · unfold eitherOrder
    dsimp only
    have counted := withChoices_countsStand (t.choices + 1) t
    split
    · obtain ⟨keyed, sound⟩ := taken _ counted
      have after := (runner (edgeBlock l v { t with choices := t.choices + 1 })).keepsCounts
      exact ⟨((first.trans counted.keepsCounts.tokeepsKeyed).trans keyed).trans after.tokeepsKeyed,
        fun law => after.cue (sound (counted.cueFollows (follows law)))⟩
    · have before := counted.trans (runner { t with choices := t.choices + 1 })
      obtain ⟨keyed, sound⟩ := taken _ before
      exact ⟨(first.trans before.keepsCounts.tokeepsKeyed).trans keyed, fun law => sound (before.cueFollows (follows law))⟩
  · exact ⟨first.trans now.1, fun law => now.2 (follows law)⟩

theorem State.KeyboardSound.debouncedEdge_keepsCounts {s : State} (h : s.KeyboardSound) (fits : s.prof.Fits) (l : Nat)
    (v : Bool) : s.keepsCounts (Machine.debouncedEdge l v s) := by
  by_cases cue : s.prof.lineFunction l = .cue
  · obtain ⟨keyed, sound⟩ := cueLineEdge_keepsCounts fits cue v
    exact ⟨keyed, sound⟩
  · exact h.edge_keepsCounts fits cue v

theorem setDebounce_countsStand (l : Nat) (due : Option Nat) (s : State) :
    s.countsStand (s.setLine l { s.line l with debounce := due }) := setLine_countsStand rfl

theorem State.KeyboardSound.rawChanged_keepsCounts {s : State} (h : s.KeyboardSound) (fits : s.prof.Fits) (l : Nat)
    (v : Bool) : s.keepsCounts (Machine.rawChanged l v s) := by
  unfold Machine.rawChanged
  dsimp only
  split
  · split
    · exact (setDebounce_countsStand l none s).keepsCounts
    · split
      · exact h.debouncedEdge_keepsCounts fits l v
      · exact (setDebounce_countsStand l _ s).keepsCounts
  · exact .refl s

end Sys2Proof.Machine
end

section
/-! What an image that loads keeps to (R4, R80, R176), and the counts at acceptance (R183). -/

namespace Sys2Proof.Machine

/-! ### Reading an image -/

theorem bind_ok {α β : Type} {x : Except LoadFault α} {f : α → Except LoadFault β} {r : β} (h : (x >>= f) = .ok r) :
    ∃ a, x = .ok a ∧ f a = .ok r := by
  cases x with
  | error e => cases h
  | ok a => exact ⟨a, rfl, h⟩

/-- R182: records that pass have no fault, each with those before it. -/
theorem checkRecords_ok {α : Type} {n : Nat} {fault : List α → Nat → α → Option Nat} {l : List α} : ∀ {before : List α},
    checkRecords n fault before l = .ok () → ∀ i x, l[i]? = some x → ∃ b, fault b (before.length + i) x = none := by
  induction l with
  | nil => exact fun _ i x found => by cases found
  | cons r rest ih =>
    intro before h i x found
    unfold checkRecords at h
    split at h
    · cases h
    · next none =>
      cases i with
      | zero =>
        cases found
        exact ⟨before, none⟩
      | succ i =>
        obtain ⟨b, passes⟩ := ih h i x found
        rw [List.length_append, List.length_singleton, Nat.add_assoc, Nat.add_comm 1] at passes
        exact ⟨b, passes⟩

/-- R182: what the sections of an image that loads are read from, and two of the checks that they pass. -/
theorem loadSections_ok {m : List Byte} {body : Nat} {p : Profile} (h : loadSections m body = .ok p) :
    (∃ divisions : List Record, p.divisions = divisions.mapIdx readDivision) ∧
      (∃ entries : List Record, p.entries = entries.map readEntry) ∧
      checkRecords 5 (fun _ _ x => effectFault x) [] p.effects = .ok () ∧
      checkRecords 5 (fun _ e x => cueFault p.lines e x) [] p.effects = .ok () := by
  unfold loadSections at h
  dsimp only at h
  obtain ⟨_, -, h⟩ := bind_ok h
  obtain ⟨_, -, h⟩ := bind_ok h
  obtain ⟨_, -, h⟩ := bind_ok h
  obtain ⟨_, -, h⟩ := bind_ok h
  obtain ⟨_, -, h⟩ := bind_ok h
  obtain ⟨_, effects, h⟩ := bind_ok h
  obtain ⟨_, -, h⟩ := bind_ok h
  obtain ⟨_, -, h⟩ := bind_ok h
  obtain ⟨_, -, h⟩ := bind_ok h
  obtain ⟨_, -, h⟩ := bind_ok h
  obtain ⟨_, -, h⟩ := bind_ok h
  obtain ⟨_, -, h⟩ := bind_ok h
  obtain ⟨_, -, h⟩ := bind_ok h
  obtain ⟨_, cues, h⟩ := bind_ok h
  obtain ⟨_, -, h⟩ := bind_ok h
  obtain ⟨_, -, h⟩ := bind_ok h
  obtain ⟨_, -, h⟩ := bind_ok h
  obtain ⟨_, -, h⟩ := bind_ok h
  obtain ⟨_, -, h⟩ := bind_ok h
  obtain ⟨_, -, h⟩ := bind_ok h
  cases h
  exact ⟨⟨_, rfl⟩, ⟨_, rfl⟩, effects, cues⟩

theorem loadImage_ok {m : List Byte} {p : Profile} (h : loadImage m = .ok p) : ∃ body, loadSections m body = .ok p := by
  unfold loadImage at h
  obtain ⟨_, -, h⟩ := bind_ok h
  obtain ⟨_, -, h⟩ := bind_ok h
  obtain ⟨_, -, h⟩ := bind_ok h
  exact ⟨_, h⟩

theorem codeIf_none {bad : Bool} {code : Nat} (h : codeIf bad code = none) : bad = false := by
  cases bad with
  | false => rfl
  | true => cases h

/-- R4, R5, R80: what acceptance asks of a profile. -/
structure Profile.Loaded (p : Profile) : Prop where
  keys : ∀ d, p.keyCount d ≤ 64
  divisions : ∀ e ∈ p.entries, e.division < 8
  studs : ∀ x ∈ p.effects, ∀ k, x.stud = some k → k < 64
  cues : ∀ x ∈ p.effects, ∀ l, x.cueLine = some l → p.lineFunction l = .cue

theorem loadImage_loaded {m : List Byte} {p : Profile} (h : loadImage m = .ok p) : p.Loaded := by
  obtain ⟨body, h⟩ := loadImage_ok h
  obtain ⟨⟨divisions, readDivisions⟩, ⟨entries, readEntries⟩, effects, cues⟩ := loadSections_ok h
  refine ⟨fun d => ?_, fun e me => ?_, fun x mx k stud => ?_, fun x mx l line => ?_⟩
  · unfold Profile.keyCount
    rw [readDivisions, List.getElem?_mapIdx]
    cases divisions[d]? with
    | none => exact Nat.zero_le _
    | some r =>
      simp only [Option.map_some, Option.getD_some, readDivision, clamp]
      split <;> omega
  · rw [readEntries] at me
    obtain ⟨r, -, rfl⟩ := List.mem_map.1 me
    exact Nat.mod_lt _ (by omega)
  · obtain ⟨i, found⟩ := List.getElem?_of_mem mx
    obtain ⟨_, passes⟩ := checkRecords_ok effects i x found
    have good := codeIf_none passes
    rw [stud] at good
    simp only [Option.any_some, Bool.or_eq_false_iff, decide_eq_false_iff_not] at good
    omega
  · obtain ⟨i, found⟩ := List.getElem?_of_mem mx
    obtain ⟨_, passes⟩ := checkRecords_ok cues i x found
    unfold cueFault at passes
    rw [line] at passes
    have good := codeIf_none passes
    unfold Profile.lineFunction
    cases record : p.lines[l]? with
    | none => rw [record] at good; cases good
    | some r =>
      rw [record] at good
      simp only [Bool.or_eq_false_iff, bne_eq_false_iff_eq] at good
      exact good.1

/-! ### Acceptance -/

/-- What acceptance has set before the chamber moves: the profile, the lines and the cue parts. -/
def State.loadedWith (s : State) (p : Profile) : State :=
  (List.range p.effects.length).foldl takeCueLevel ((List.range 12).foldl acceptLine { s with profile := some p })

theorem acceptProfile_eq (p : Profile) (s : State) :
    acceptProfile p s =
      offerWake .start (moveTo .dark ((List.range 4).foldl (fun s c => startShift c s) (s.loadedWith p))) := rfl

theorem acceptProfile_countsStand (p : Profile) (s : State) : (s.loadedWith p).countsStand (acceptProfile p s) := by
  rw [acceptProfile_eq]
  generalize s.loadedWith p = t
  have shifts := countsStand_foldl (fun s c => startShift c s) (fun v c => (startShift_reach c v).grant.countsStand)
    (List.range 4) t
  generalize (List.range 4).foldl (fun s c => startShift c s) t = v at shifts
  exact (shifts.trans (moveTo_countsStand (by decide) v)).trans (offerWake_countsStand _ _)

theorem acceptLines_frame (l : List Nat) (s : State) :
    l.foldl acceptLine s = { s with ll := (l.foldl acceptLine s).ll } :=
  foldl_reach (fun s t => t = { s with ll := t.ll }) (fun _ => rfl) (fun _ _ _ h k => by rw [k, h]) acceptLine
    (fun _ _ => rfl) l s

/-- R81: acceptance takes the level of an effect's cue line. -/
theorem takeCueLevel_trigger (s : State) (e f : Nat) :
    (takeCueLevel s e).trigger f = { s.trigger f with
      cue := if f = e then ((s.effect e).bind fun x => if x.mode = .level then x.cueLine.map s.lineLevel else none).getD
        (s.trigger f).cue else (s.trigger f).cue } := by
  unfold takeCueLevel
  cases s.effect e with
  | none => simp
  | some x =>
    cases mode : x.mode <;> cases line : x.cueLine <;>
      simp only [Option.bind_some, mode, line, reduceCtorEq, if_false, if_true, Option.getD_none, ite_self, Option.map_none,
        Option.map_some, Option.getD_some]
    rw [State.trigger_setTrigger]
    split
    · next own => rw [own]
    · rfl

theorem takeCueLevel_frame (s : State) (e : Nat) :
    takeCueLevel s e = { s with ee := { s.ee with triggers := (takeCueLevel s e).ee.triggers } } := by
  unfold takeCueLevel
  split
  · split <;> rfl
  · rfl

/-- R81: the trigger counts after acceptance has taken the cue levels of the first `n` effects. -/
structure State.cuedTo (s t : State) (n : Nat) : Prop where
  frame : t = { s with ee := { s.ee with triggers := t.ee.triggers } }
  trap : ∀ e, (t.trigger e).trap = (s.trigger e).trap
  stud : ∀ e, (t.trigger e).stud = (s.trigger e).stud
  cue : ∀ e, (t.trigger e).cue = true ↔
    e < n ∧ ∃ x l, s.effect e = some x ∧ x.mode = .level ∧ x.cueLine = some l ∧ s.lineLevel l = true

theorem cueLevels_taken {s : State} (none : ∀ e, (s.trigger e).cue = false) (n : Nat) :
    s.cuedTo ((List.range n).foldl takeCueLevel s) n := by
  induction n with
  | zero => exact ⟨rfl, fun _ => rfl, fun _ => rfl, fun e => by simp [none]⟩
  | succ n ih =>
    rw [List.range_succ, List.foldl_append, List.foldl_cons, List.foldl_nil]
    generalize (List.range n).foldl takeCueLevel s = t at ih
    have effect : ∀ e, t.effect e = s.effect e := fun e => by rw [ih.frame]; rfl
    have level : t.lineLevel = s.lineLevel := by rw [ih.frame]; rfl
    refine ⟨?_, fun e => ?_, fun e => ?_, fun e => ?_⟩
    · rw [takeCueLevel_frame, ih.frame]
    · rw [takeCueLevel_trigger]; exact ih.trap e
    · rw [takeCueLevel_trigger]; exact ih.stud e
    · have law := ih.cue e
      rw [takeCueLevel_trigger, effect, level]
      by_cases own : e = n
      · subst own
        have was : (t.trigger e).cue = false := by
          rw [Bool.eq_false_iff]
          exact fun set => absurd (law.1 set).1 (Nat.lt_irrefl e)
        rw [if_pos rfl, was]
        cases s.effect e with
        | none => simp
        | some x => cases mode : x.mode <;> cases line : x.cueLine <;> simp [mode, line]
      · rw [if_neg own, law]
        exact and_congr_left' (by omega)

end Sys2Proof.Machine
end

section
/-! O57: every step keeps the counts equal to what their sources give (R41, R48, R82, R118, R119). -/

namespace Sys2Proof.Machine

/-! ### The laws together -/

/-- The laws of the sets, of the demand counts and of the calls, as a step keeps them. -/
structure State.keepsLaws (s u : State) : Prop where
  sets : s.SetsSound → u.SetsSound
  demand : s.DemandCounted → u.DemandCounted
  calls : s.CallsCounted → u.CallsCounted

theorem State.keepsLaws.trans {a b c : State} (h : a.keepsLaws b) (k : b.keepsLaws c) : a.keepsLaws c :=
  ⟨fun law => k.sets (h.sets law), fun law => k.demand (h.demand law), fun law => k.calls (h.calls law)⟩

/-- R117, R118: no TREM entry names a group beyond the four. -/
theorem State.fourGroups_of_counted {s : State} (fits : s.prof.Fits) (counted : ∀ g, s.Counted (.group g)) :
    s.fourGroups := fun g high => by
  have none : s.calls (.group g) = 0 := by
    refine List.sum_eq_zero fun n mn => ?_
    obtain ⟨e, m, rfl⟩ := List.mem_map.1 mn
    split
    · cases kind : e.kind with
      | trem g' =>
        rw [StopEntry.calls_trem kind]
        refine if_neg fun same => ?_
        injection same with same
        have := fits.trems e m g' kind
        omega
      | voice _ _ _ _ _ _ => exact StopEntry.calls_voice kind _ _ (by simp)
      | trap f c => rw [StopEntry.calls_trap kind]; simp
    · rfl
  have law := counted g
  unfold State.Counted at law
  rw [none] at law
  exact law

theorem State.keepsCounts.demand {s u : State} (h : s.keepsCounts u) (law : s.DemandCounted) : u.DemandCounted := by
  obtain ⟨untuned, counted⟩ := State.demandCounted_iff.1 law
  exact State.demandCounted_iff.2 ⟨h.untuned untuned, fun kind o => h.counted _ (by simp) (counted kind o)⟩

theorem State.keepsCounts.calls {s u : State} (h : s.keepsCounts u) (few : (∀ g, s.Counted (.group g)) → s.fourGroups)
    (law : s.CallsCounted) : u.CallsCounted := by
  obtain ⟨stops, trap, stud, cue, groups, trems⟩ := State.callsCounted_iff.1 law
  exact State.callsCounted_iff.2 ⟨h.stops stops, fun e => h.trap e (trap e), h.stud stud, h.cue cue,
    fun g => h.counted _ (by simp) (groups g), h.trems (few groups) trems⟩

theorem State.keepsCounts.keepsLaws {s u : State} (h : s.keepsCounts u) (fits : s.prof.Fits) : s.keepsLaws u :=
  ⟨h.sets, h.demand, h.calls (State.fourGroups_of_counted fits)⟩

/-! ### Acceptance -/

/-- Where every stop is OFF nothing is called for. -/
theorem State.calls_off {s : State} (off : ∀ n, s.km.stopOn.get n = false) (c : Counter) : s.calls c = 0 := by
  refine List.sum_eq_zero fun n mn => ?_
  obtain ⟨e, -, rfl⟩ := List.mem_map.1 mn
  rw [if_neg]
  rw [off]
  simp

section
variable {s : State} {p : Profile}

/-- R183: what acceptance leaves as it was. -/
theorem State.loadedWith_frame (s : State) (p : Profile) :
    s.loadedWith p = { s with
      profile := some p, ll := (s.loadedWith p).ll, ee := { s.ee with triggers := (s.loadedWith p).ee.triggers } } := by
  have lines := acceptLines_frame (List.range 12) { s with profile := some p }
  have cues : ∀ (l : List Nat) (t : State), l.foldl takeCueLevel t =
      { t with ee := { t.ee with triggers := (l.foldl takeCueLevel t).ee.triggers } } :=
    foldl_reach (fun s t => t = { s with ee := { s.ee with triggers := t.ee.triggers } }) (fun _ => rfl)
      (fun _ _ _ h k => by rw [k, h]) takeCueLevel takeCueLevel_frame
  unfold State.loadedWith
  generalize (List.range 12).foldl acceptLine { s with profile := some p } = t at lines
  rw [cues, lines]

/-- R183: acceptance finds no count, no sounding key and no stop. -/
theorem State.loadedWith_sets (lacks : s.profile = none) (law : s.SetsSound) : (s.loadedWith p).SetsSound := by
  obtain ⟨sets, counts⟩ := law.unprofiled lacks
  have dt : (s.loadedWith p).dt = s.dt := by rw [State.loadedWith_frame]
  refine ⟨fun i w o _ _ => ?_, fun i => ?_, fun none => ?_⟩
  · rw [dt, sets, counts]
    exact ⟨fun m => absurd m List.not_mem_nil, fun above => absurd above (Nat.lt_irrefl 0)⟩
  · rw [dt]
    exact law.ascending i
  · rw [State.loadedWith_frame] at none
    cases none

theorem State.prof_of_none (lacks : s.profile = none) : s.prof = default := by
  unfold State.prof
  rw [lacks]
  rfl

theorem State.loadedWith_prof (s : State) (p : Profile) : (s.loadedWith p).prof = p := by
  rw [State.loadedWith_frame]
  rfl

theorem State.calls_unprofiled (lacks : s.profile = none) (c : Counter) : s.calls c = 0 := by
  unfold State.calls Profile.calls
  rw [State.prof_of_none lacks]
  rfl

theorem State.KeyboardSound.up_unprofiled (h : s.KeyboardSound) (lacks : s.profile = none) {d k : Nat} (ld : d < 8)
    (lk : k < 64) : s.mergedTouch d k = .up := by
  rw [h.merged d k ld lk]
  exact State.highest_eq_up.2 fun c l => (h.unprofiled lacks).1 c d k l ld lk

theorem Profile.heldBy_none (p : Profile) (c : Counter) : p.heldBy none c = 0 := by
  cases c with
  | count kind o => simp [Profile.heldBy]
  | trap e => rfl
  | group g => rfl

theorem State.loadedWith_mergedTouch (s : State) (p : Profile) (d k : Nat) :
    (s.loadedWith p).mergedTouch d k = s.mergedTouch d k := by
  rw [State.loadedWith_frame]
  rfl

theorem State.KeyboardSound.loadedWith_demand (h : s.KeyboardSound) (lacks : s.profile = none) (loaded : p.Loaded)
    (law : s.DemandCounted) : (s.loadedWith p).DemandCounted := by
  obtain ⟨untuned, counted⟩ := State.demandCounted_iff.1 law
  have prof := s.loadedWith_prof p
  have tuning : (s.loadedWith p).dt.tuning = none := by
    rw [State.loadedWith_frame]
    exact untuned lacks
  refine State.demandCounted_iff.2 ⟨fun none => ?_, fun kind o => ?_⟩
  · rw [State.loadedWith_frame] at none
    cases none
  · have zero := counted kind o
    unfold State.Counted at zero ⊢
    rw [State.calls_unprofiled lacks, untuned lacks, Option.map_none, Profile.heldBy_none] at zero
    rw [State.calls_up (by rw [prof]; exact loaded.keys) (by rw [prof]; exact loaded.divisions)
      (fun d k ld lk => (s.loadedWith_mergedTouch p d k).trans (h.up_unprofiled lacks ld lk)) (by simp), tuning,
      Option.map_none, Profile.heldBy_none, ← zero]
    show (s.loadedWith p).dt.count kind o = s.dt.count kind o
    rw [State.loadedWith_frame]

theorem State.loadedWith_cue (loaded : p.Loaded) (none : ∀ e, (s.trigger e).cue = false) :
    (s.loadedWith p).CueSound ∧ (∀ e, ((s.loadedWith p).trigger e).trap = (s.trigger e).trap) ∧
      ∀ e, ((s.loadedWith p).trigger e).stud = (s.trigger e).stud := by
  have lines := acceptLines_frame (List.range 12) { s with profile := some p }
  unfold State.loadedWith
  generalize (List.range 12).foldl acceptLine { s with profile := some p } = t at lines
  have trigger : ∀ e, t.trigger e = s.trigger e := fun e => by rw [lines]; rfl
  have prof : t.prof = p := by rw [lines]; rfl
  have cued := cueLevels_taken (s := t) (fun e => by rw [trigger]; exact none e) p.effects.length
  generalize (List.range p.effects.length).foldl takeCueLevel t = u at cued
  refine ⟨fun e => ?_, fun e => by rw [cued.trap, trigger], fun e => by rw [cued.stud, trigger]⟩
  have effect : u.effect e = t.effect e := by rw [cued.frame]; rfl
  have line : ∀ l, u.line l = t.line l := fun l => by rw [cued.frame]; rfl
  rw [cued.cue, effect]
  have level : ∀ x l, t.effect e = some x → x.cueLine = some l → t.lineLevel l = (t.line l).debounced := by
    intro x l found named
    unfold State.effect at found
    rw [prof] at found
    unfold State.lineLevel
    rw [prof, loaded.cues x (List.mem_of_getElem? found) l named]
    rfl
  constructor
  · rintro ⟨-, x, l, found, mode, named, high⟩
    exact ⟨x, l, found, mode, named, by rw [line, ← level x l found named]; exact high⟩
  · rintro ⟨x, l, found, mode, named, high⟩
    refine ⟨?_, x, l, found, mode, named, by rw [level x l found named, ← line]; exact high⟩
    unfold State.effect at found
    rw [prof] at found
    exact (List.getElem?_eq_some_iff.1 found).1

theorem State.KeyboardSound.loadedWith_calls (h : s.KeyboardSound) (lacks : s.profile = none) (loaded : p.Loaded)
    (law : s.CallsCounted) : (s.loadedWith p).CallsCounted ∧ ∀ g, ((s.loadedWith p).trem g).onCount = 0 := by
  obtain ⟨stops, trap, stud, cue, groups, trems⟩ := State.callsCounted_iff.1 law
  have empty := State.prof_of_none lacks
  have effect : ∀ e, s.effect e = none := fun e => by unfold State.effect; rw [empty]; rfl
  have off : ∀ n, s.km.stopOn.get n = false := fun n => stops n (by rw [empty]; rfl)
  have off' : ∀ n, (s.loadedWith p).km.stopOn.get n = false := fun n => by
    rw [State.loadedWith_frame]
    exact off n
  have silent : ∀ e, (s.trigger e).cue = false := fun e => by
    rw [Bool.eq_false_iff]
    intro set
    obtain ⟨x, l, found, -⟩ := (cue e).1 set
    rw [effect] at found
    cases found
  obtain ⟨cue', trap', stud'⟩ := State.loadedWith_cue loaded silent
  have trem : ∀ g, (s.loadedWith p).trem g = s.trem g := fun g => by
    rw [State.loadedWith_frame]
    rfl
  have onCount : ∀ g, (s.trem g).onCount = 0 := fun g => by
    have zero : (s.trem g).onCount = s.calls (.group g) := groups g
    rw [zero, State.calls_unprofiled lacks]
  refine ⟨State.callsCounted_iff.2 ⟨fun n _ => off' n, fun e => ?_, fun e => ?_, cue', fun g => ?_, ?_⟩, fun g => by
    rw [trem]; exact onCount g⟩
  · have zero : (s.trigger e).trap = s.calls (.trap e) := trap e
    unfold State.Counted
    rw [State.calls_off off']
    show ((s.loadedWith p).trigger e).trap = 0
    rw [trap', zero, State.calls_unprofiled lacks]
  · rw [stud']
    refine iff_of_false ?_ ?_
    · rw [stud e]
      rintro ⟨x, k, found, -⟩
      rw [effect] at found
      cases found
    · rintro ⟨x, k, found, named, sounds⟩
      unfold State.effect at found
      rw [State.loadedWith_prof] at found
      refine sounds ((s.loadedWith_mergedTouch p 7 k).trans (h.up_unprofiled lacks (by omega) ?_))
      exact loaded.studs x (List.mem_of_getElem? found) k named
  · unfold State.Counted
    rw [State.calls_off off']
    show ((s.loadedWith p).trem g).onCount = 0
    rw [trem]
    exact onCount g
  · exact trems.of_same (by rw [State.loadedWith_frame]) (by rw [State.loadedWith_frame])

/-- R183: acceptance, and what of the command leaves the counts and their sources. -/
theorem State.KeyboardSound.acceptProfile_keepsLaws (h : s.KeyboardSound) (lacks : s.profile = none) (loaded : p.Loaded)
    {u : State} (rest : (Machine.acceptProfile p s).countsStand u) : s.keepsLaws u := by
  have after := ((acceptProfile_countsStand p s).trans rest).keepsCounts
  refine ⟨fun law => after.sets (State.loadedWith_sets lacks law), fun law => after.demand (h.loadedWith_demand lacks loaded law),
    fun law => ?_⟩
  obtain ⟨calls, onCount⟩ := h.loadedWith_calls lacks loaded law
  exact after.calls (fun _ g _ => onCount g) calls

end

end Sys2Proof.Machine
end

section
/-! O57: every command keeps the counts equal to what their sources give, and the settlement of the obligation. -/

namespace Sys2Proof.Machine

/-! ### What single commands do -/

theorem ownFrame_countsStand (f : Frame) (s : State) : s.countsStand (ownFrame f s) := by
  cases f with
  | mark m _ => exact offerMark_countsStand m s
  | beat tag => exact offerBeat_countsStand s.pf.station tag s
  | presence _ _ _ | report _ => exact .refl s

theorem withClocks_countsStand (clocks : Table (Option Nat)) (s : State) :
    s.countsStand { s with dt := { s.dt with clocks := clocks } } := .of_blocks rfl rfl rfl rfl rfl rfl rfl

theorem withPending_countsStand (pending : List Instr) (s : State) : s.countsStand { s with pending := pending } :=
  .of_blocks rfl rfl rfl rfl rfl rfl rfl

/-- R49: an edge of a clock moves the clock and PA alone. -/
theorem clockEdge_countsStand (w : Nat) (s : State) : s.countsStand (clockEdge w s) :=
  (withClocks_countsStand _ s).trans (forOutputs_countsStand strikeBar_reach _ _)

theorem arrive_countsStand (t : Nat) (s : State) : s.countsStand (s.arrive t) := .of_blocks rfl rfl rfl rfl rfl rfl rfl

/-- R119: no group runs before READY nor after. -/
theorem refuseProfile_countsStand {s : State} (loading : s.ch.state = .loading) (x : LoadFault) :
    s.countsStand (refuseProfile x s) := by
  have moved : s.countsStand (s.withChamber .profileFault) :=
    { withChamber_booksStand .profileFault s with
      trems := fun _ law g => by
        refine (law g).trans (iff_of_false ?_ ?_) <;> rintro ⟨ready, -⟩
        · rw [loading] at ready; cases ready
        · cases ready }
  exact (moved.trans (reportFault_countsStand _ _ _ _)).trans (handPresence_countsStand _)

/-- R33: the entry whose expiry has come stands in the list. -/
theorem State.KeyboardSound.pizzDue_keepsCounts {s : State} (h : s.KeyboardSound) (fits : s.prof.Fits) {d k : Nat}
    (due : s.pizzDue d k = true) : s.keepsCounts (Machine.pizzExpiry d k s) := by
  obtain ⟨e, m, own⟩ := List.any_eq_true.1 due
  simp only [Bool.and_eq_true, beq_iff_eq] at own
  obtain ⟨⟨rfl, rfl⟩, -⟩ := own
  exact pizzExpiry_keepsCounts fits (h.listed_low m) (h.entries e m).2.2.1 (listed_iff.2 ⟨e, m, rfl, rfl⟩)

/-! ### Resets -/

/-- R185: after a reset there is nothing to count. -/
theorem resetBlocks_laws (cause : Cause) (straps : Station) (s : State) :
    (resetBlocks cause straps s).SetsSound ∧ (resetBlocks cause straps s).DemandCounted ∧
      (resetBlocks cause straps s).CallsCounted := by
  obtain ⟨unprofiled, pipe, single, reiterate⟩ := State.reset_demandCounted
  obtain ⟨stops, trap, stud, -, onCount, running⟩ := State.reset_callsCounted
  have cue : ∀ e, (State.reset.trigger e).cue = true ↔ ∃ x l, State.reset.effect e = some x ∧ x.mode = .level ∧
      x.cueLine = some l ∧ ((resetBlocks cause straps s).line l).debounced = true := fun e => by simp
  exact ⟨⟨State.reset_setsSound.member, State.reset_setsSound.ascending, State.reset_setsSound.unprofiled⟩,
    ⟨unprofiled, pipe, single, reiterate⟩, ⟨stops, trap, stud, cue, onCount, running⟩⟩

theorem resetBlocks_keepsLaws (cause : Cause) (straps : Station) (s : State) {v u : State}
    (h : (resetBlocks cause straps v).keepsCounts u) : s.keepsLaws u := by
  obtain ⟨sets, demand, calls⟩ := resetBlocks_laws cause straps v
  have kept := h.keepsLaws Profile.fits_default
  exact ⟨fun _ => kept.sets sets, fun _ => kept.demand demand, fun _ => kept.calls calls⟩

/-! ### The shape of a command -/

/-- A command that is taken, with the pass of runner 0 that follows it, or that comes while NRST is low. -/
theorem State.keepsCounts.taken {s u : State} {t : Nat} {f : State → State}
    (keeps : (s.arrive t).keepsCounts (f (s.arrive t))) (e : Machine.taken t f s = .next u) : s.keepsCounts u := by
  have arrived := (arrive_countsStand t s).keepsCounts
  unfold Machine.taken at e
  cases e
  split
  · exact arrived
  · exact (arrived.trans keeps).trans (runChamber_countsStand _).keepsCounts

/-- A checked frame: PT hears its sender, and the block takes it. -/
theorem State.KeyboardSound.frame_keepsCounts {s u : State} (h : s.KeyboardSound) {t : Nat} {a : Station} {f : State → State}
    (keeps : ∀ v : State, v.KeyboardSound → v.prof = s.prof → v.keepsCounts (f v)) (e : Machine.frame t a f s = .next u) :
    s.keepsCounts u := by
  have arrived : (s.arrive t).KeyboardSound := h.congr rfl (Nat.le_max_left _ _) rfl
  refine State.keepsCounts.taken ?_ e
  split
  · exact .refl _
  · exact (heard_out a _).countsStand.keepsCounts.trans (keeps (heard a (s.arrive t)) (arrived.same ⟨rfl, rfl, rfl⟩) rfl)

theorem State.keepsCounts.accepted {v : State} {f : State → State} (keeps : v.profile ≠ none → v.keepsCounts (f v)) :
    v.keepsCounts (Machine.accepted f v) := by
  unfold Machine.accepted
  split
  · next held =>
    exact keeps fun lacks => by
      rw [lacks] at held
      cases held
  · exact .refl v

/-- An operation taken on a condition. -/
theorem State.keepsCounts.ite {p : Prop} [Decidable p] {s t : State} (keeps : p → s.keepsCounts t) :
    s.keepsCounts (if p then t else s) := by
  split
  · next holds => exact keeps holds
  · exact .refl s

theorem exec_keepsLaws {s u : State} (h : s.KeyboardSound) (sound : s.ProfileSound)
    (loading : s.ch.state = .loading → s.profile = none) (i : Instr) (e : exec i s = .next u) : s.keepsLaws u := by
  have fits := sound.fits
  have arrived : ∀ t, (s.arrive t).KeyboardSound := fun t => h.congr rfl (Nat.le_max_left _ _) rfl
  cases i with
  | powerOn t straps =>
    cases e
    exact resetBlocks_keepsLaws .powerOn straps s
      ((withPf_out _ _).trans (endReset_out (emptyRecord _))).countsStand.keepsCounts
  | pinReset t straps =>
    cases e
    exact resetBlocks_keepsLaws _ straps s (withPf_out _ _).countsStand.keepsCounts
  | restart t a mask straps =>
    simp only [exec, execRestart, frame, taken] at e
    cases e
    have same : s.keepsCounts (s.arrive t) := (arrive_countsStand t s).keepsCounts
    have heard := same.trans (heard_out a (s.arrive t)).countsStand.keepsCounts
    split
    · exact same.keepsLaws fits
    · split
      · exact (same.trans (runChamber_countsStand _).keepsCounts).keepsLaws fits
      · split
        · exact resetBlocks_keepsLaws .line straps s
            ((endReset_out _).countsStand.trans (runChamber_countsStand _)).keepsCounts
        · exact (heard.trans (runChamber_countsStand _).keepsCounts).keepsLaws fits
  | profileLoadEnd t image =>
    simp only [exec, execProfileLoadEnd, taken] at e
    cases e
    have same : s.keepsCounts (s.arrive t) := (arrive_countsStand t s).keepsCounts
    split
    · exact same.keepsLaws fits
    · split
      · next reads =>
        have tagged := same.trans (withPf_out { (s.arrive t).pf with tag := imageTag image } (s.arrive t)).countsStand.keepsCounts
        have keyboard : State.KeyboardSound { s.arrive t with pf := { (s.arrive t).pf with tag := imageTag image } } :=
          (arrived t).same ⟨rfl, rfl, rfl⟩
        unfold loadEnds
        dsimp only
        split
        · next p loads =>
          have accepted := keyboard.acceptProfile_keepsLaws (loading reads) (loadImage_loaded loads)
            (runChamber_countsStand (acceptProfile p _))
          exact (tagged.keepsLaws fits).trans accepted
        · next x _ =>
          have refused := refuseProfile_countsStand
            (s := { s.arrive t with pf := { (s.arrive t).pf with tag := imageTag image } }) reads x
          exact ((tagged.trans refused.keepsCounts).trans (runChamber_countsStand _).keepsCounts).keepsLaws fits
      · exact (same.trans (runChamber_countsStand _).keepsCounts).keepsLaws fits
  | lineCheck t a reason =>
    simp only [exec, execLineCheck] at e
    refine (State.keepsCounts.taken ?_ e).keepsLaws fits
    split
    · exact .refl _
    · exact (reportFault_countsStand _ _ _ _).keepsCounts
  | alloff t a =>
    exact (h.frame_keepsCounts (fun v k same => .accepted fun _ => k.allOff_keepsCounts (same ▸ fits)) e).keepsLaws fits
  | keys t a d changes =>
    refine (h.frame_keepsCounts (fun v k same => .accepted fun _ => withSlot_keepsCounts k a keysDetail ?_) e).keepsLaws fits
    exact fun c w own played => played.keyChanges_keepsCounts d.isLt changes (own.trans same ▸ fits)
  | snap t a d codes =>
    refine (h.frame_keepsCounts (fun v k same => .accepted fun _ => withSlot_keepsCounts k a snapDetail ?_) e).keepsLaws fits
    intro c w own played
    have fits' : w.prof.Fits := own.trans same ▸ fits
    rw [snapKeys_eq codes (fits'.keys d.val)]
    exact played.keyChanges_keepsCounts d.isLt _ fits'
  | shoe t a pairs =>
    exact (h.frame_keepsCounts (fun v k _ => .accepted fun _ => withSlot_keepsCounts k a shoeDetail
      fun c w _ _ => (takePairs_countsStand c pairs w).keepsCounts) e).keepsLaws fits
  | beat t a tag =>
    exact (h.frame_keepsCounts (fun v _ _ => .accepted fun _ => (offerBeat_countsStand a tag v).keepsCounts) e).keepsLaws fits
  | mark t a m =>
    exact (h.frame_keepsCounts (fun v _ _ => .accepted fun _ => (offerMark_countsStand m v).keepsCounts) e).keepsLaws fits
  | stops t a changes =>
    exact (h.frame_keepsCounts (fun v k same => .accepted fun _ => withSlot_keepsCounts k a stopsDetail
      fun c w own _ => stopChanges_keepsCounts changes (own.trans same ▸ fits)) e).keepsLaws fits
  | chamberWake t a mask =>
    exact (h.frame_keepsCounts (fun v _ _ => .accepted fun _ => .ite fun _ => (offerWake_countsStand _ v).keepsCounts)
      e).keepsLaws fits
  | chamberRest t a mask =>
    exact (h.frame_keepsCounts (fun v _ _ => .accepted fun _ => .ite fun _ => (enterSettling_countsStand v).keepsCounts)
      e).keepsLaws fits
  | chamberDark t a mask =>
    exact (h.frame_keepsCounts (fun v _ _ => .accepted fun _ => .ite fun _ => (enterDarkening_countsStand v).keepsCounts)
      e).keepsLaws fits
  | tune t a station output =>
    exact (h.frame_keepsCounts (fun v _ same => .accepted fun held => .ite fun _ =>
      takeTune_keepsCounts (same ▸ fits) held a output) e).keepsLaws fits
  | clear t a mask =>
    exact (h.frame_keepsCounts (fun v _ _ => .ite fun _ => (withPf_out _ v).countsStand.keepsCounts) e).keepsLaws fits
  | ask t a station =>
    simp only [exec, execAsk] at e
    refine (State.keepsCounts.taken ?_ e).keepsLaws fits
    have told : (s.arrive t).keepsCounts
        (if (s.arrive t).ch.state = .profileFault then s.arrive t else heard a (s.arrive t)) := by
      split
      · exact .refl _
      · exact (heard_out a _).countsStand.keepsCounts
    exact told.trans (.ite fun _ => (handOver_countsStand _ _).keepsCounts)
  | presence t a role state flags tag =>
    exact (h.frame_keepsCounts (fun v _ _ => (setPeer_out a _ v).countsStand.keepsCounts.trans
      (judgeGathering_countsStand _).keepsCounts) e).keepsLaws fits
  | reportReceived t a payload => exact (h.frame_keepsCounts (fun v _ _ => .refl v) e).keepsLaws fits
  | silenceTimerExpiry t a =>
    simp only [exec, execSilenceTimerExpiry] at e
    refine (State.keepsCounts.taken ?_ e).keepsLaws fits
    split
    · exact .refl _
    · split
      · next entry _ =>
        have left : ((s.arrive t).setPeer a entry).KeyboardSound := (arrived t).same ⟨rfl, rfl, rfl⟩
        exact (setPeer_out a entry _).countsStand.keepsCounts.trans (.accepted fun _ => left.stationLost_keepsCounts fits a)
      · exact .refl _
  | pizzicatoExpiry t d k =>
    exact (State.keepsCounts.taken (.ite fun due => (arrived t).pizzDue_keepsCounts fits due) e).keepsLaws fits
  | reiterationClockEdge t w =>
    exact (State.keepsCounts.taken (.ite fun _ => (clockEdge_countsStand _ _).keepsCounts) e).keepsLaws fits
  | pullInEnd t o => exact (State.keepsCounts.taken (pullInEnds_reach _ _).countsStand.keepsCounts e).keepsLaws fits
  | strikeEnd t o => exact (State.keepsCounts.taken (strikeEnds_reach _ _).countsStand.keepsCounts e).keepsLaws fits
  | shiftEnd t c returned =>
    exact (State.keepsCounts.taken (.ite fun _ => (endShift_out _ _ _).countsStand.keepsCounts) e).keepsLaws fits
  | refreshTimerExpiry t c =>
    exact (State.keepsCounts.taken (.ite fun _ => (shiftWanted_reach _ _).grant.countsStand.keepsCounts) e).keepsLaws fits
  | waitEnd t r | awaitTimeout t r =>
    simp only [exec, execWaitEnd, execAwaitTimeout] at e
    refine (State.keepsCounts.taken ?_ e).keepsLaws fits
    split
    · exact .ite fun _ => (resumePass_countsStand _ _ _).keepsCounts
    · exact .refl _
  | awaitlineTimeout t =>
    simp only [exec, execAwaitlineTimeout] at e
    refine (State.keepsCounts.taken ?_ e).keepsLaws fits
    split
    · split
      · split
        · exact (wakeTimeout_countsStand _ _ _).keepsCounts
        · exact (resumePass_countsStand _ _ _).keepsCounts
      · exact .refl _
    · exact .refl _
  | phase0 t g =>
    simp only [exec, execPhase0] at e
    refine (State.keepsCounts.taken ?_ e).keepsLaws fits
    split
    · exact .ite fun _ => (phase0At_countsStand _ _ _).keepsCounts
    · exact .refl _
  | phaseW t g =>
    exact (State.keepsCounts.taken (.ite fun _ => (phaseWAt_countsStand _ _).keepsCounts) e).keepsLaws fits
  | followLossExpiry t g =>
    refine (State.keepsCounts.taken (.ite fun _ => ?_) e).keepsLaws fits
    exact ((setTrem_countsStand (by rfl) (by rfl)).trans (reportFault_countsStand _ _ _ _)).keepsCounts
  | ownerHoldExpiry t x =>
    exact (State.keepsCounts.taken (.ite fun _ => (setShutter_countsStand x.val _ _).keepsCounts) e).keepsLaws fits
  | stepTimerExpiry t x =>
    exact (State.keepsCounts.taken (.ite fun _ => (stepTimerEnds_countsStand _ _).keepsCounts) e).keepsLaws fits
  | syncTimeout t =>
    exact (State.keepsCounts.taken (.ite fun _ => (syncShort_countsStand _).keepsCounts) e).keepsLaws fits
  | restTimerExpiry t =>
    exact (State.keepsCounts.taken (.ite fun _ => (restExpires_countsStand _).keepsCounts) e).keepsLaws fits
  | lineRawChange t l v =>
    simp only [exec, execLineRawChange] at e
    have pinned : s.keepsCounts (pinLevel l.val v s) := (setLine_countsStand (by rfl)).keepsCounts
    split at e
    · cases e
      exact (arrive_countsStand t s).keepsCounts.keepsLaws fits
    · have keyboard : ((pinLevel l.val v s).arrive t).KeyboardSound := (arrived t).same ⟨rfl, rfl, rfl⟩
      exact (pinned.trans (State.keepsCounts.taken
        (.accepted fun _ => keyboard.rawChanged_keepsCounts fits l.val v) e)).keepsLaws fits
  | debounceExpiry t l =>
    exact (State.keepsCounts.taken (.ite fun _ => (arrived t).debouncedEdge_keepsCounts fits _ _) e).keepsLaws fits
  | presencePeriodExpiry t =>
    exact (State.keepsCounts.taken (.ite fun _ =>
      ((withLi_out _ _).countsStand.trans (handPresence_countsStand _)).keepsCounts) e).keepsLaws fits
  | txStart t =>
    simp only [exec, execTxStart] at e
    refine (State.keepsCounts.taken ?_ e).keepsLaws fits
    split
    · exact .refl _
    · exact (beginFrame_out _).countsStand.keepsCounts
  | claimLost t => exact (State.keepsCounts.taken (returnFrame_out _).countsStand.keepsCounts e).keepsLaws fits
  | txMismatch t =>
    exact (State.keepsCounts.taken (.ite fun _ => (mismatch_out _).countsStand.keepsCounts) e).keepsLaws fits
  | txComplete t =>
    simp only [exec, execTxComplete] at e
    refine (State.keepsCounts.taken ?_ e).keepsLaws fits
    split
    · exact .refl _
    · exact ((withLi_out _ _).countsStand.trans (ownFrame_countsStand _ _)).keepsCounts
  | profileHeaderRead t tag =>
    exact (State.keepsCounts.taken (.ite fun _ => (withPf_out _ _).countsStand.keepsCounts) e).keepsLaws fits
  | endOfPinReset t =>
    cases e
    refine ((arrive_countsStand t s).keepsCounts.trans ?_).keepsLaws fits
    exact .ite fun _ => ((withPf_out _ _).trans (endReset_out _)).countsStand.keepsCounts

/-- On an empty queue nothing moves, and every command keeps the laws. -/
theorem step_keepsLaws {s u : State} (chamber : s.ChamberSound) (profile : s.ProfileSound) (keyboard : s.KeyboardSound)
    (e : step s = .next u) : s.keepsLaws u := by
  unfold step at e
  split at e
  · cases e
    exact ⟨fun law => law, fun law => law, fun law => law⟩
  · next c rest _ =>
    have popped := (withPending_countsStand rest s).keepsCounts
    have taken : State.KeyboardSound { s with pending := rest } := keyboard.same ⟨rfl, rfl, rfl⟩
    exact (popped.keepsLaws profile.fits).trans
      (exec_keepsLaws taken profile (fun reads => chamber.profiled.2 (.inl reads)) c e)

/-- Settles O57: the step keeps the laws, the orders of RE's deltas are read off its lists, and an application asks what its
deltas met. -/
theorem demandFollowsTheContributions : Obligations.DemandFollowsTheContributions := by
  refine ⟨fun s u chamber profile keyboard sets e => ?step, mergedDeltas_order, stopDeltas_order, pizzDeltas_order,
    fun p old new held => ⟨p.windowIndex, tuneDeltas_ends p old new held⟩, takeDelta_pipe, takeDelta_effect,
    fun withhold deltas s => ⟨application_asks withhold deltas s, fun outside counts => ?counts, fun outside quiet _ => ?quiet⟩⟩
  case step =>
    have kept := step_keepsLaws chamber profile keyboard e
    exact ⟨kept.sets sets, kept.demand, kept.calls⟩
  case counts =>
    obtain ⟨frame, eq⟩ := application_counts_outside withhold outside counts
    rw [decide_eq_false outside]
    exact eq.trans frame
  case quiet =>
    rw [decide_eq_false outside]
    exact application_quiet_outside withhold deltas outside quiet

end Sys2Proof.Machine
end


section
/-! PA's choice (04, R71 to R73): the candidate, one grant after the other, and what the choice comes to. -/

namespace Sys2Proof.Machine

/-! ### Notices to CC -/

@[simp] theorem energizedNotice_pa (o : Nat) (s : State) : (energizedNotice o s).pa = s.pa := by
  rw [energizedNotice_reach o s]

@[simp] theorem energizedNotice_profile (o : Nat) (s : State) : (energizedNotice o s).profile = s.profile := by
  rw [energizedNotice_reach o s]

/-- R170, R172: a notice to a chain without positions does nothing. -/
theorem energizedNotice_unconfigured {o : Nat} {s : State} (still : (s.chain (o / 384)).shift = none)
    (none : s.prof.chainLength (o / 384) = 0) : energizedNotice o s = s := by
  unfold energizedNotice shiftWanted startShift chainOf
  rw [if_neg (by rw [still]; simp), if_pos none]

/-- R172, R175: a notice to a chain that stands still starts a shift. -/
theorem energizedNotice_starts {o : Nat} {s : State} (still : (s.chain (o / 384)).shift = none)
    (some_ : s.prof.chainLength (o / 384) ≠ 0) :
    energizedNotice o s = s.setChain (o / 384) { s.chain (o / 384) with
      shift := some
        { pattern := if (s.chain (o / 384)).status = .failed then [] else s.truePattern (o / 384)
          ends := s.now + (s.prof.chainLength (o / 384) / 2 + 1) }
      changeWaiting := false
      refresh := none } := by
  unfold energizedNotice shiftWanted startShift chainOf
  rw [if_neg (by rw [still]; simp), if_neg some_]
  rfl

/-- R172: a notice to a chain that shifts leaves a change waiting. -/
theorem energizedNotice_waits {o : Nat} {s : State} (shifts : (s.chain (o / 384)).shift ≠ none) :
    energizedNotice o s = s.setChain (o / 384) { s.chain (o / 384) with changeWaiting := true } := by
  unfold energizedNotice shiftWanted chainOf
  rw [if_pos (Option.isSome_iff_ne_none.2 shifts)]

/-- R172: after a notice a chain with positions shifts. -/
theorem energizedNotice_shifts {o : Nat} {s : State} (some_ : s.prof.chainLength (o / 384) ≠ 0) :
    ((energizedNotice o s).chain (o / 384)).shift.isSome = true := by
  by_cases still : (s.chain (o / 384)).shift = none
  · rw [energizedNotice_starts still some_, State.chain_setChain_self]
    rfl
  · rw [energizedNotice_waits still, State.chain_setChain_self]
    exact Option.isSome_iff_ne_none.2 still

/-! ### The candidate (R71) -/

theorem State.candidate_none {s : State} : s.candidate = none ↔ s.pa.speech = [] ∧ s.pa.action = [] := by
  unfold State.candidate
  split
  · simp_all
  · simp_all
  · simp_all
  · split <;> simp_all

theorem State.candidate_speech {s : State} {o : Nat} {rest : List Nat} (speech : s.pa.speech = o :: rest)
    (turn : s.pa.action = [] ∨ s.prof.params.actionRunLimit ≤ s.pa.runCount) : s.candidate = some (.speech o) := by
  unfold State.candidate
  rw [speech]
  cases action : s.pa.action with
  | nil => rfl
  | cons e more => exact if_neg (Nat.not_lt.2 (turn.resolve_left (by rw [action]; simp)))

theorem State.candidate_action {s : State} {e : ActionEntry} {rest : List ActionEntry} (action : s.pa.action = e :: rest)
    (turn : s.pa.speech = [] ∨ s.pa.runCount < s.prof.params.actionRunLimit) : s.candidate = some (.action e) := by
  unfold State.candidate
  rw [action]
  cases speech : s.pa.speech with
  | nil => rfl
  | cons o more => exact if_pos (turn.resolve_left (by rw [speech]; simp))

/-- R71: a candidate is the head of one queue, in its turn. -/
theorem State.candidate_cases {s : State} {c : Candidate} (h : s.candidate = some c) :
    (∃ o rest, c = .speech o ∧ s.pa.speech = o :: rest ∧
      (s.pa.action = [] ∨ s.prof.params.actionRunLimit ≤ s.pa.runCount)) ∨
    ∃ e rest, c = .action e ∧ s.pa.action = e :: rest ∧
      (s.pa.speech = [] ∨ s.pa.runCount < s.prof.params.actionRunLimit) := by
  unfold State.candidate at h
  split at h
  · cases h
  · next o rest action speech => cases h; exact .inl ⟨o, rest, rfl, speech, .inl action⟩
  · next e rest action speech => cases h; exact .inr ⟨e, rest, rfl, action, .inl speech⟩
  · next e rest o more action speech =>
    split at h
    · next below => cases h; exact .inr ⟨e, rest, rfl, action, .inr below⟩
    · next reached => cases h; exact .inl ⟨o, more, rfl, speech, .inr (Nat.not_lt.1 reached)⟩

/-! ### The choice, grant by grant (R71, R72, R73) -/

theorem chooseGrants_none {s : State} (none : s.candidate = none) : chooseGrants s = s := by
  obtain ⟨speech, action⟩ := State.candidate_none.1 none
  unfold chooseGrants
  rw [speech, action]
  rfl

theorem chooseGrants_waits {s : State} {c : Candidate} (next : s.candidate = some c)
    (tight : s.freeUnits < s.weight c.output) : chooseGrants s = s := by
  unfold chooseGrants
  generalize s.pa.speech.length + s.pa.action.length = n
  cases n with
  | zero => rfl
  | succ n =>
    unfold chooseUpTo
    rw [next]
    exact if_neg (Nat.not_le.2 tight)

/-- PA chooses nothing where no candidate fits. -/
theorem chooseGrants_settled {s : State} (settled : ∀ c, s.candidate = some c → s.freeUnits < s.weight c.output) :
    chooseGrants s = s := by
  cases next : s.candidate with
  | none => exact chooseGrants_none next
  | some c => exact chooseGrants_waits next (settled c next)

theorem chooseGrants_grant {s : State} {c : Candidate} (next : s.candidate = some c)
    (fits : s.weight c.output ≤ s.freeUnits) : chooseGrants s = chooseGrants (grant c s) := by
  have fewer := (grant_queued next).length_eq
  simp only [Pa.queued, List.length_append, List.length_map, List.length_cons] at fewer
  unfold chooseGrants
  rw [fewer]
  show (match s.candidate with
    | none => s
    | some c => if s.weight c.output ≤ s.freeUnits then chooseUpTo _ (grant c s) else s) = _
  rw [next]
  exact if_pos fits

/-- Induction along the choice: what holds where no candidate fits, and before a grant if it holds after it, holds. -/
theorem chooseGrants_cases {P : State → Prop}
    (rests : ∀ s, (∀ c, s.candidate = some c → s.freeUnits < s.weight c.output) → P s)
    (grants : ∀ s c, s.candidate = some c → s.weight c.output ≤ s.freeUnits → P (grant c s) → P s) (s : State) : P s := by
  induction depth : s.pa.queued.length using Nat.strong_induction_on generalizing s with
  | _ n ih =>
    cases next : s.candidate with
    | none => exact rests s fun c some_ => by rw [next] at some_; cases some_
    | some c =>
      by_cases fits : s.weight c.output ≤ s.freeUnits
      · refine grants s c next fits (ih _ ?_ _ rfl)
        have fewer := (grant_queued next).length_eq
        rw [List.length_cons] at fewer
        omega
      · refine rests s fun c' some_ => ?_
        cases next.symm.trans some_
        exact Nat.not_le.1 fits

/-- What every grant keeps, the choice keeps. -/
theorem chooseGrants_keeps {P : State → Prop}
    (grants : ∀ s c, s.candidate = some c → s.weight c.output ≤ s.freeUnits → P s → P (grant c s)) {s : State} (h : P s) :
    P (chooseGrants s) := by
  induction s using chooseGrants_cases with
  | rests s settled => rw [chooseGrants_settled settled]; exact h
  | grants s c next fits ih => rw [chooseGrants_grant next fits]; exact ih (grants s c next fits h)

/-- R71: the choice ends where no candidate fits. -/
theorem chooseGrants_ends (s : State) (c : Candidate) (next : (chooseGrants s).candidate = some c) :
    (chooseGrants s).freeUnits < (chooseGrants s).weight c.output := by
  induction s using chooseGrants_cases with
  | rests s settled => rw [chooseGrants_settled settled] at next ⊢; exact settled c next
  | grants s c' granted fits ih => rw [chooseGrants_grant granted fits] at next ⊢; exact ih next

@[simp] theorem chooseGrants_profile (s : State) : (chooseGrants s).profile = s.profile := by rw [chooseGrants_reach s]

@[simp] theorem chooseGrants_prof (s : State) : (chooseGrants s).prof = s.prof := by
  unfold State.prof
  rw [chooseGrants_profile]

@[simp] theorem grant_prof (c : Candidate) (s : State) : (grant c s).prof = s.prof := by
  unfold State.prof
  rw [grant_reach c s]

/-- R72: a grant takes the head of one queue. -/
theorem grant_queues (c : Candidate) (s : State) :
    (∃ i, (grant c s).pa.speech = s.pa.speech.drop i) ∧ ∃ j, (grant c s).pa.action = s.pa.action.drop j := by
  rw [grant_pa]
  cases c with
  | speech o => exact ⟨⟨1, (List.drop_one).symm⟩, 0, rfl⟩
  | action e => exact ⟨⟨0, rfl⟩, 1, (List.drop_one).symm⟩

/-- R72: a grant adds the weight to the units. -/
theorem grant_units (c : Candidate) (s : State) : (grant c s).pa.units = s.pa.units + s.weight c.output := by
  rw [grant_pa]
  cases c <;> rfl

/-- R71: the choice leaves the rest of both queues in their order. -/
theorem chooseGrants_queues (s : State) :
    (∃ i, (chooseGrants s).pa.speech = s.pa.speech.drop i) ∧ ∃ j, (chooseGrants s).pa.action = s.pa.action.drop j := by
  induction s using chooseGrants_cases with
  | rests s settled =>
    rw [chooseGrants_settled settled]
    exact ⟨⟨0, rfl⟩, 0, rfl⟩
  | grants s c next fits ih =>
    rw [chooseGrants_grant next fits]
    obtain ⟨⟨i, speech⟩, j, action⟩ := ih
    obtain ⟨⟨i', head⟩, j', head'⟩ := grant_queues c s
    rw [head, List.drop_drop] at speech
    rw [head', List.drop_drop] at action
    exact ⟨⟨_, speech⟩, _, action⟩

/-- R70: units within the budget stay within it. -/
theorem chooseGrants_budget {s : State} (within : s.pa.units ≤ s.prof.params.budget) :
    (chooseGrants s).pa.units ≤ s.prof.params.budget := by
  have kept : (chooseGrants s).pa.units ≤ (chooseGrants s).prof.params.budget := by
    refine chooseGrants_keeps (P := fun s => s.pa.units ≤ s.prof.params.budget) (fun s c _ fits within => ?_) within
    rw [grant_units, grant_prof]
    unfold State.freeUnits at fits
    omega
  rwa [chooseGrants_prof] at kept

/-- Settles O35: a notice by what the chain does, and the choice by what its candidate is. -/
theorem grantsStopAtTheFirstThatDoesNotFit : Obligations.GrantsStopAtTheFirstThatDoesNotFit := by
  refine ⟨fun o s => ⟨energizedNotice_unconfigured, energizedNotice_starts, energizedNotice_waits⟩, fun s => ?_⟩
  refine ⟨fun c => chooseGrants_ends s c, fun c next tight => chooseGrants_waits next tight, chooseGrants_none,
    fun speech action => chooseGrants_none (State.candidate_none.2 ⟨speech, action⟩),
    fun o rest speech turn tight => chooseGrants_waits (State.candidate_speech speech turn) tight,
    fun o k rest action turn tight => chooseGrants_waits (State.candidate_action action turn) tight,
    (chooseGrants_queues s).1, (chooseGrants_queues s).2, chooseGrants_reach s, chooseGrants_budget,
    fun o rest speech turn fits => ?speech, fun o k rest action turn fits => ?action⟩
  case speech =>
    rw [chooseGrants_grant (State.candidate_speech speech turn) fits]
    simp only [grant, grantPa, Candidate.output, speech, List.tail_cons]
  case action =>
    rw [chooseGrants_grant (State.candidate_action action turn) fits]
    simp only [grant, grantPa, Candidate.output, action, List.tail_cons, List.isEmpty_iff]
    cases k <;> rfl

end Sys2Proof.Machine
end


section
/-! PA's four requests by the state of their output (04, R65 to R69). -/

namespace Sys2Proof.Machine

/-! ### Outside READY, and in READY -/

theorem State.isReady_false {s : State} : s.isReady = false ↔ s.ch.state ≠ .ready := by simp [State.isReady]

/-- R65, R71: in READY PA chooses after every event. -/
theorem paEvent_ready {f : State → State} {s : State} (ready : s.isReady = true) : paEvent f s = chooseGrants (f s) :=
  if_pos ready

/-- R71: with the arbiter's laws PA has nothing to choose between two events. -/
theorem State.ArbiterSound.chosen {s : State} (h : s.ArbiterSound) : chooseGrants s = s := chooseGrants_settled h.settled

/-- R71: a mark on a strike gives PA nothing to choose. -/
theorem State.ArbiterSound.chosen_setOut {s : State} (h : s.ArbiterSound) (o : Nat) (v : OutState) :
    chooseGrants (s.setOut o v) = s.setOut o v := chooseGrants_settled (s := s.setOut o v) h.settled

/-! ### OPEN (R66) -/

theorem paOpen_off {o : Nat} {s : State} (ready : s.isReady = true) (off : s.out o = .off) :
    paOpen o s = chooseGrants { s with pa :=
      { s.pa with outs := s.pa.outs.set o .waiting, speech := s.pa.speech ++ [o] } } := by
  unfold paOpen
  rw [paEvent_ready ready, if_pos off]

theorem paOpen_called {o : Nat} {s : State} (ready : s.isReady = true) (called : s.out o ≠ .off) :
    paOpen o s = chooseGrants s := by
  unfold paOpen
  rw [paEvent_ready ready, if_neg called]

/-! ### HOLD (R67) and STRIKE (R68) -/

theorem joinAction_room {o : Nat} {k : ActionKind} {s : State} (room : s.pa.action.length < 128) :
    joinAction o k s = { s with pa :=
      { s.pa with outs := s.pa.outs.set o .waiting, action := s.pa.action ++ [{ output := o, kind := k }] } } :=
  if_pos room

theorem joinAction_full {o : Nat} {k : ActionKind} {s : State} (full : 128 ≤ s.pa.action.length) :
    joinAction o k s = reportFault .strikeOverrun o (if k = .hold then 1 else 0) s :=
  if_neg (Nat.not_lt.2 full)

theorem paStrike_off {o w : Nat} {s : State} (ready : s.isReady = true) (off : s.out o = .off) :
    paStrike o w s = chooseGrants (joinAction o (.strike w) s) := by
  unfold paStrike
  rw [paEvent_ready ready, if_pos off]

theorem paStrike_called {o w : Nat} {s : State} (ready : s.isReady = true) (called : s.out o ≠ .off) :
    paStrike o w s = chooseGrants s := by
  unfold paStrike
  rw [paEvent_ready ready, if_neg called]

/-- R67: the entries of the action queue with that of output `o`, if it stands there, made a HOLD in its place. -/
def heldInPlace (o : Nat) (l : List ActionEntry) : List ActionEntry :=
  l.map fun e => if e.output = o then { e with kind := .hold } else e

/-- R67: HOLD by the state of its output. -/
theorem paHold_eq {o : Nat} {s : State} (ready : s.isReady = true) :
    (s.out o = .off → paHold o s = chooseGrants (joinAction o .hold s)) ∧
    (s.out o = .waiting → paHold o s = chooseGrants { s with pa :=
      { s.pa with action := heldInPlace o s.pa.action } }) ∧
    (∀ m stay, s.out o = .striking m stay → paHold o s = chooseGrants (s.setOut o (.striking m true))) ∧
    ((s.out o = .holding ∨ ∃ m, s.out o = .pulling m) → paHold o s = chooseGrants s) := by
  unfold paHold
  rw [paEvent_ready ready]
  refine ⟨fun e => ?_, fun e => ?_, fun m stay e => ?_, ?_⟩
  · rw [e]
  · rw [e]; rfl
  · rw [e]
  · rintro (e | ⟨m, e⟩) <;> rw [e]

theorem heldInPlace_outputs (o : Nat) (l : List ActionEntry) : (heldInPlace o l).map (·.output) = l.map (·.output) := by
  unfold heldInPlace
  rw [List.map_map]
  refine List.map_congr_left fun e _ => ?_
  show (if e.output = o then { e with kind := .hold } else e).output = e.output
  split <;> rfl

/-- R64, R67: no output stands twice, so that one entry at the most becomes a HOLD. -/
theorem heldInPlace_split {o : Nat} {k : ActionKind} {before after : List ActionEntry}
    (once : ((before ++ { output := o, kind := k } :: after).map (·.output)).Nodup) :
    heldInPlace o (before ++ { output := o, kind := k } :: after) = before ++ { output := o, kind := .hold } :: after := by
  rw [List.map_append, List.map_cons] at once
  have alone := List.nodup_middle.1 once
  have others : ∀ l : List ActionEntry, (∀ e ∈ l, e ∈ before ∨ e ∈ after) → heldInPlace o l = l := fun l sub => by
    refine (List.map_congr_left fun e m => if_neg fun same => ?_).trans (List.map_id l)
    refine (List.nodup_cons.1 alone).1 (List.mem_append.2 ?_)
    exact (sub e m).imp (fun m => List.mem_map.2 ⟨e, m, same⟩) fun m => List.mem_map.2 ⟨e, m, same⟩
  have first := others before fun e m => .inl m
  have last := others after fun e m => .inr m
  unfold heldInPlace at first last ⊢
  rw [List.map_append, List.map_cons, first, last]
  simp

/-- R63, R64: an output with an entry in the action queue waits. -/
theorem State.ArbiterSound.entry_waits {s : State} (h : s.ArbiterSound) {e : ActionEntry} (m : e ∈ s.pa.action) :
    s.out e.output = .waiting :=
  (h.waiting _).2 (.inr (List.mem_map_of_mem m))

/-! ### RELEASE (R69) -/

/-- R69: RELEASE by the state of its output. -/
theorem paRelease_cases {o : Nat} {s : State} (ready : s.isReady = true) :
    (s.out o = .off → paRelease o s = chooseGrants s) ∧
    (s.out o = .waiting → paRelease o s = chooseGrants { s with pa := { s.pa with
      outs := s.pa.outs.set o .off, speech := s.pa.speech.filter (· != o)
      action := s.pa.action.filter (fun e => e.output != o)
      runCount := if (s.pa.speech.filter (· != o)).isEmpty then 0 else s.pa.runCount } }) ∧
    ((s.out o = .holding ∨ ∃ m, s.out o = .pulling m) → paRelease o s = chooseGrants (energizedNotice o { s with pa :=
      { s.pa with outs := s.pa.outs.set o .off, units := s.pa.units - (s.out o).unitsHeld (s.weight o) } })) ∧
    ∀ m stay, s.out o = .striking m stay → paRelease o s = chooseGrants (s.setOut o (.striking m false)) := by
  unfold paRelease releaseOut
  rw [paEvent_ready ready]
  refine ⟨fun e => ?_, fun e => ?_, ?_, fun m stay e => ?_⟩
  · rw [e]
  · rw [e]
  · rintro (e | ⟨m, e⟩) <;> rw [e] <;> rfl
  · rw [e]

/-- Settles O34: request by request, by the state of the output. -/
theorem requestsAreAnsweredByState : Obligations.RequestsAreAnsweredByState := by
  intro o w s waiting
  refine ⟨fun outside => ?outside, fun ready => ?_⟩
  case outside =>
    have ignored := State.isReady_false.2 outside
    exact ⟨paEvent_notReady ignored, paEvent_notReady ignored, paEvent_notReady ignored, paEvent_notReady ignored⟩
  have isReady := State.isReady_iff.2 ready
  obtain ⟨holdOff, holdWaiting, holdStriking, holdDrawn⟩ := paHold_eq (o := o) isReady
  obtain ⟨releaseOff, releaseWaiting, releaseOn, releaseStriking⟩ := paRelease_cases (o := o) isReady
  refine ⟨fun off => ⟨paOpen_off isReady off, fun room => ?room, fun full => ?full⟩,
    fun sound called => ⟨(paOpen_called isReady called).trans sound.chosen, (paStrike_called isReady called).trans sound.chosen⟩,
    fun sound on => (holdDrawn on).trans sound.chosen, fun sound before after k queue => ?place,
    fun sound m stay on => ⟨(holdStriking m stay on).trans (sound.chosen_setOut _ _),
      (releaseStriking m stay on).trans (sound.chosen_setOut _ _)⟩,
    fun sound off => (releaseOff off).trans sound.chosen, fun sound waits => ?waits, fun sound on => ?on⟩
  case room =>
    exact ⟨(holdOff off).trans (by rw [joinAction_room room]), (paStrike_off isReady off).trans (by rw [joinAction_room room])⟩
  case full =>
    exact ⟨(holdOff off).trans (by rw [joinAction_full full]; rfl),
      (paStrike_off isReady off).trans (by rw [joinAction_full full]; rfl)⟩
  case place =>
    have entry : s.out o = .waiting := sound.entry_waits (e := { output := o, kind := k }) (by rw [queue]; simp)
    have once := (List.nodup_append.1 sound.once).2.1
    rw [queue] at once
    rw [holdWaiting entry, queue, heldInPlace_split once]
  case waits =>
    have same : s.pa.speech.filter (· ≠ o) = s.pa.speech.filter (· != o) :=
      List.filter_congr fun x _ => by simp [bne, beq_eq_decide]
    have same' : s.pa.action.filter (fun x => decide (x.output ≠ o)) = s.pa.action.filter (fun e => e.output != o) :=
      List.filter_congr fun x _ => by simp [bne, beq_eq_decide]
    refine ⟨_, releaseWaiting waits, by rw [same, same'], ?_⟩
    simp only [List.isEmpty_iff]
  case on =>
    have units : (s.out o).unitsHeld (s.weight o) = if s.out o = .holding then 0 else s.weight o := by
      rcases on with e | ⟨m, e⟩ <;> rw [e] <;> rfl
    refine ⟨_, releaseOn on, ?_, ?_, fun configured => energizedNotice_shifts configured⟩
    · rw [← units, energizedNotice_reach o _]
    · rw [energizedNotice_pa]

end Sys2Proof.Machine
end


section
/-! The end of a pull-in and of a strike (04, R74). -/

namespace Sys2Proof.Machine

/-! ### An output that moves while the queues stand -/

/-- R62, R74: output `o` in state `v`, with PA's units at `n`; both queues and the run count stand. -/
def State.moved (o : Nat) (v : OutState) (n : Nat) (s : State) : State :=
  { s with pa := { s.pa with outs := s.pa.outs.set o v, units := n } }

theorem State.moved_out (o : Nat) (v : OutState) (n : Nat) (s : State) (o' : Nat) :
    (s.moved o v n).out o' = if o' = o then v else s.out o' := by simp [State.moved, State.out, Table.get_set]

/-- R63: an output that stands in no queue may move, but not to WAITING. -/
theorem State.QueuesSound.moved {s : State} (h : s.QueuesSound) {o : Nat} (idle : s.out o ≠ .waiting) (v : OutState) (n : Nat) :
    (s.moved o v n).QueuesSound where
  waiting o' m := by
    have waits := h.waiting o' m
    rw [State.moved_out, if_neg (fun same : o' = o => idle (same ▸ waits))]
    exact waits
  once := h.once

theorem State.QueuesSound.of_pa {s t : State} (h : s.QueuesSound) (pa : t.pa = s.pa) : t.QueuesSound := by
  obtain ⟨waiting, once⟩ := h
  constructor
  · intro o m
    unfold State.out
    rw [pa] at m ⊢
    exact waiting o m
  · rw [pa]; exact once

/-- R71: the choice leaves an output that does not wait. -/
theorem State.QueuesSound.chooseGrants_out {s : State} (h : s.QueuesSound) {o : Nat} (idle : s.out o ≠ .waiting) :
    (chooseGrants s).out o = s.out o :=
  (h.chooseUpTo _).2 o idle

/-! ### The ends, due and not due -/

theorem pullInEnds_early {o : Nat} {s : State} (early : ∀ m, s.out o = .pulling m → s.now < m) : pullInEnds o s = s := by
  refine if_neg fun isOver => ?_
  unfold State.pullInOver at isOver
  split at isOver
  · next m pulls => exact absurd (of_decide_eq_true isOver) (Nat.not_le.2 (early m pulls))
  all_goals cases isOver

theorem strikeEnds_early {o : Nat} {s : State} (early : ∀ m stay, s.out o = .striking m stay → s.now < m) :
    strikeEnds o s = s := by
  have standing : s.strikeOver o = none := by
    unfold State.strikeOver
    split
    · next m stay strikes => exact if_neg (Nat.not_le.2 (early m stay strikes))
    all_goals rfl
  unfold strikeEnds
  rw [standing]

theorem pullInEnds_due {o m : Nat} {s : State} (ready : s.isReady = true) (pulls : s.out o = .pulling m) (due : m ≤ s.now) :
    pullInEnds o s = chooseGrants (s.moved o .holding (s.pa.units - s.weight o)) := by
  have isOver : s.pullInOver o = true := by
    unfold State.pullInOver
    rw [pulls]
    exact decide_eq_true due
  unfold pullInEnds
  rw [if_pos isOver, paEvent_ready ready]
  rfl

/-- R74: the state after a strike that has run its width, before PA chooses. -/
def State.struck (o : Nat) (stay : Bool) (s : State) : State :=
  if stay then s.moved o .holding (s.pa.units - s.weight o) else energizedNotice o (s.moved o .off (s.pa.units - s.weight o))

theorem strikeEnds_due {o m : Nat} {stay : Bool} {s : State} (ready : s.isReady = true) (strikes : s.out o = .striking m stay)
    (due : m ≤ s.now) : strikeEnds o s = chooseGrants (s.struck o stay) := by
  have isOver : s.strikeOver o = some stay := by
    unfold State.strikeOver
    rw [strikes]
    exact if_pos due
  unfold strikeEnds
  rw [isOver]
  exact paEvent_ready ready

theorem State.struck_pa (o : Nat) (stay : Bool) (s : State) :
    (s.struck o stay).pa = (s.moved o (if stay then .holding else .off) (s.pa.units - s.weight o)).pa := by
  cases stay with
  | true => rfl
  | false => exact energizedNotice_pa o _

theorem State.struck_reach (o : Nat) (stay : Bool) (s : State) : ReachGrant s (s.struck o stay) := by
  cases stay with
  | true => rfl
  | false =>
    refine ReachGrant.trans (b := s.moved o .off (s.pa.units - s.weight o)) ?_ (energizedNotice_reach o _).grant
    rfl

theorem ReachPa.runner_zero {s t : State} (h : ReachPa s t) : t.runner 0 = s.runner 0 := by
  unfold ReachPa at h
  rw [h]
  rfl

/-- Settles O36: an end by whether it is due; what PA chooses then leaves the output that ended. -/
theorem pullInsAndStrikesEnd : Obligations.PullInsAndStrikesEnd := by
  intro t o s takes
  have pullIn : exec (.pullInEnd t o) s = .next (pullInEnds o.val (s.at t)) :=
    taken_run takes (pullInEnds_reach _ _).runner_zero
  have strike : exec (.strikeEnd t o) s = .next (strikeEnds o.val (s.at t)) :=
    taken_run takes (strikeEnds_reach _ _).runner_zero
  refine ⟨fun early => ?_, fun early => ?_, fun ready sound => ⟨fun m pulls due => ?pullIn, fun m stay strikes due => ?strike⟩⟩
  · rw [pullIn, pullInEnds_early (s := s.at t) early]
  · rw [strike, strikeEnds_early (s := s.at t) early]
  all_goals
    have isReady : (s.at t).isReady = true := State.isReady_iff.2 ready
    have queues : (s.at t).QueuesSound := sound.queues.of_pa rfl
  case pullIn =>
    have idle : (s.at t).out o.val ≠ .waiting := fun waits => by cases pulls.symm.trans waits
    refine ⟨_, pullIn, ?_⟩
    rw [pullInEnds_due (s := s.at t) isReady pulls due]
    generalize ended : (s.at t).moved o.val .holding ((s.at t).pa.units - (s.at t).weight o.val) = v
    have held : v.out o.val = .holding := by rw [← ended, State.moved_out, if_pos rfl]
    have stands : v.QueuesSound := ended ▸ queues.moved idle _ _
    have reach : ReachGrant (s.at t) (chooseGrants v) :=
      ReachGrant.trans (b := v) (ended ▸ rfl) (chooseGrants_reach v)
    refine ⟨?_, reach, ended ▸ rfl, fun speech action => ?_⟩
    · rw [stands.chooseGrants_out (by rw [held]; simp), held]
    · rw [chooseGrants_none (State.candidate_none.2 (ended ▸ ⟨speech, action⟩))]
      exact ended ▸ rfl
  case strike =>
    have idle : (s.at t).out o.val ≠ .waiting := fun waits => by cases strikes.symm.trans waits
    refine ⟨_, strike, ?_⟩
    rw [strikeEnds_due (s := s.at t) isReady strikes due]
    have pa := State.struck_pa o.val stay (s.at t)
    have cc : stay = true → ((s.at t).struck o.val stay).cc = s.cc := fun stays => by rw [stays]; rfl
    have reach := State.struck_reach o.val stay (s.at t)
    generalize ended : (s.at t).struck o.val stay = v at pa cc reach
    have out : v.out o.val = if stay then .holding else .off := by
      unfold State.out
      rw [pa]
      exact (State.moved_out ..).trans (if_pos rfl)
    have stands : v.QueuesSound := (queues.moved idle _ _).of_pa pa
    refine ⟨?_, reach.trans (chooseGrants_reach v), ?_, fun speech action => ?_⟩
    · rw [stands.chooseGrants_out (by rw [out]; cases stay <;> simp), out]
    · rw [← ended]
      cases stay <;> rfl
    · rw [chooseGrants_none (State.candidate_none.2 (by rw [pa]; exact ⟨speech, action⟩))]
      exact ⟨pa, cc⟩

end Sys2Proof.Machine
end


section
/-! The laws of the arbiter (04, R62 to R73) under PA's own events: what each leaves before PA chooses, and the choice. -/

namespace Sys2Proof.Machine

/-! ### A sum over a table -/

/-- The sum over a table of what its keys hold. -/
def Table.total {α : Type} (m : Table α) (f : Nat → α → Nat) : Nat := (m.entries.map fun e => f e.1 e.2).sum

section
variable {α : Type} [Inhabited α] {f : Nat → α → Nat} {k : Nat}

omit [Inhabited α] in
theorem total_putIn (v : α) (l : List (Nat × α)) :
    ((putIn k v l).map fun e => f e.1 e.2).sum = f k v + (l.map fun e => f e.1 e.2).sum := by
  induction l with
  | nil => simp [putIn]
  | cons e rest ih =>
    unfold putIn
    split
    · rfl
    · simp only [List.map_cons, List.sum_cons, ih]
      omega

theorem total_eraseIn (zero : f k default = 0) {l : List (Nat × α)} (rising : l.Pairwise (fun a b => a.1 < b.1)) :
    ((eraseIn k l).map fun e => f e.1 e.2).sum + f k (lookupIn l k) = (l.map fun e => f e.1 e.2).sum := by
  induction l with
  | nil => exact (Nat.zero_add _).trans zero
  | cons e rest ih =>
    obtain ⟨first, tail⟩ := List.pairwise_cons.1 rising
    obtain ⟨k', v⟩ := e
    by_cases own : k' = k
    · subst own
      have stands : eraseIn k' rest = rest := List.filter_eq_self.2 fun e m => by simpa using (first e m).ne'
      have skips : eraseIn k' ((k', v) :: rest) = eraseIn k' rest := by simp [eraseIn]
      rw [skips, stands]
      simp only [lookupIn, if_true, List.map_cons, List.sum_cons]
      omega
    · have keeps : eraseIn k ((k', v) :: rest) = (k', v) :: eraseIn k rest := by simp [eraseIn, own]
      rw [keeps]
      have rest_ := ih tail
      simp only [lookupIn, if_neg own, List.map_cons, List.sum_cons]
      omega

/-- A write exchanges what its key held for what it holds now. -/
theorem Table.total_set [DecidableEq α] {m : Table α} (wf : m.wf) (zero : f k default = 0) (v : α) :
    (m.set k v).total f + f k (m.get k) = m.total f + f k v := by
  have erased := total_eraseIn zero wf.1
  unfold Table.total Table.set Table.get
  split
  · next e => rw [e, zero]; exact erased
  · rw [← erased, total_putIn]
    omega

end

/-! ### The laws between a request and the choice -/

/-- R62, R63, R64, R70, R73: the laws of the arbiter but for R71's, as they stand before PA chooses. -/
structure State.ArbiterLaws (s : State) : Prop where
  waiting : ∀ o, s.out o = .waiting ↔ o ∈ s.pa.queued
  once : s.pa.queued.Nodup
  capacity : s.pa.action.length ≤ 128
  canonical : s.pa.outs.wf
  units : s.pa.units = s.pa.outs.total fun o v => v.unitsHeld (s.weight o)
  budget : s.pa.units ≤ s.prof.params.budget
  runLimit : s.pa.runCount ≤ s.prof.params.actionRunLimit
  runCount : s.pa.speech = [] → s.pa.runCount = 0

theorem State.ArbiterSound.laws {s : State} (h : s.ArbiterSound) : s.ArbiterLaws :=
  ⟨fun o => (h.waiting o).trans List.mem_append.symm, h.once, h.capacity, h.canonical, h.units, h.budget, h.runLimit, h.runCount⟩

theorem State.ArbiterLaws.sound {s : State} (h : s.ArbiterLaws)
    (settled : ∀ c, s.candidate = some c → s.freeUnits < s.weight c.output) : s.ArbiterSound :=
  ⟨fun o => (h.waiting o).trans List.mem_append, h.once, h.capacity, h.canonical, h.units, h.budget, h.runLimit, h.runCount,
    settled⟩

theorem State.ArbiterLaws.queues {s : State} (h : s.ArbiterLaws) : s.QueuesSound := ⟨fun o => (h.waiting o).2, h.once⟩

theorem State.weight_congr {s t : State} (prof : t.prof = s.prof) (o : Nat) : t.weight o = s.weight o := by
  unfold State.weight
  rw [prof]

theorem State.ArbiterLaws.of_pa {s t : State} (h : s.ArbiterLaws) (pa : t.pa = s.pa) (prof : t.prof = s.prof) :
    t.ArbiterLaws := by
  obtain ⟨waiting, once, capacity, canonical, units, budget, runLimit, runCount⟩ := h
  refine ⟨fun o => ?_, ?_, ?_, ?_, ?_, ?_, ?_, ?_⟩
  · unfold State.out
    rw [pa]
    exact waiting o
  · rw [pa]; exact once
  · rw [pa]; exact capacity
  · rw [pa]; exact canonical
  · rw [pa, units]
    refine congrArg _ (funext fun o => funext fun v => ?_)
    rw [State.weight_congr prof]
  · rw [pa, prof]; exact budget
  · rw [pa, prof]; exact runLimit
  · rw [pa]; exact runCount

theorem State.ArbiterSound.of_pa {s t : State} (h : s.ArbiterSound) (pa : t.pa = s.pa) (prof : t.prof = s.prof) :
    t.ArbiterSound := by
  refine (h.laws.of_pa pa prof).sound fun c next => ?_
  have settled := h.settled c
  unfold State.candidate State.freeUnits at *
  rw [State.weight_congr prof, pa, prof]
  rw [pa, prof] at next
  exact settled next

/-- An empty PA keeps the laws. -/
theorem State.ArbiterSound.of_cleared {s : State} (cleared : s.pa = .cleared) : s.ArbiterSound := by
  have off : ∀ o, s.out o = .off := fun o => by unfold State.out; rw [cleared]; rfl
  refine State.ArbiterLaws.sound ⟨fun o => ?_, ?_, ?_, ?_, ?_, ?_, ?_, ?_⟩ fun c next => ?_
  · rw [off, cleared]
    simp [Pa.queued, Pa.cleared]
  · rw [cleared]; exact List.nodup_nil
  · rw [cleared]; exact Nat.zero_le _
  · rw [cleared]; exact Table.wf_empty
  · rw [cleared]; rfl
  · rw [cleared]; exact Nat.zero_le _
  · rw [cleared]; exact Nat.zero_le _
  · rw [cleared]; exact fun _ => rfl
  · rw [State.candidate_none.2 (by rw [cleared]; exact ⟨rfl, rfl⟩)] at next
    cases next

/-- R70: what an output draws is among the units in use. -/
theorem State.ArbiterLaws.unitsHeld_le {s : State} (h : s.ArbiterLaws) (o : Nat) :
    (s.out o).unitsHeld (s.weight o) ≤ s.pa.units := by
  have exchanged := Table.total_set (f := fun o v => v.unitsHeld (s.weight o)) (k := o) h.canonical rfl .off
  have none : OutState.unitsHeld .off (s.weight o) = 0 := rfl
  rw [h.units]
  unfold State.out
  omega

/-- One output moves, and with it the queues, the units and the run count: what the laws ask of the move. -/
theorem State.ArbiterLaws.move {s : State} (h : s.ArbiterLaws) {o : Nat} {v : OutState} {pa : Pa}
    (outs : pa.outs = s.pa.outs.set o v) (queued : ∀ o', o' ∈ pa.queued ↔ if o' = o then v = .waiting else o' ∈ s.pa.queued)
    (once : pa.queued.Nodup) (capacity : pa.action.length ≤ 128)
    (units : pa.units + (s.out o).unitsHeld (s.weight o) = s.pa.units + v.unitsHeld (s.weight o))
    (budget : pa.units ≤ s.prof.params.budget) (runLimit : pa.runCount ≤ s.prof.params.actionRunLimit)
    (runCount : pa.speech = [] → pa.runCount = 0) : State.ArbiterLaws { s with pa := pa } where
  waiting o' := by
    show pa.outs.get o' = .waiting ↔ o' ∈ pa.queued
    rw [outs, Table.get_set, queued]
    split
    · rfl
    · exact h.waiting o'
  once := once
  capacity := capacity
  canonical := by
    show pa.outs.wf
    rw [outs]
    exact Table.wf_set h.canonical o v
  units := by
    show pa.units = pa.outs.total fun o v => v.unitsHeld (s.weight o)
    have exchanged := Table.total_set (f := fun o v => v.unitsHeld (s.weight o)) (k := o) h.canonical rfl v
    have before := h.units
    unfold State.out at units
    rw [outs]
    omega
  budget := budget
  runLimit := runLimit
  runCount := runCount

/-- R63: the laws of an output that moves while it stands in no queue, with the units that it draws. -/
theorem State.ArbiterLaws.moved {s : State} (h : s.ArbiterLaws) {o : Nat} {v : OutState} {n : Nat} (idle : s.out o ≠ .waiting)
    (apart : v ≠ .waiting) (units : n + (s.out o).unitsHeld (s.weight o) = s.pa.units + v.unitsHeld (s.weight o))
    (less : n ≤ s.pa.units) : (s.moved o v n).ArbiterLaws := by
  refine h.move rfl (fun o' => ?_) h.once h.capacity units (less.trans h.budget) h.runLimit h.runCount
  show o' ∈ s.pa.queued ↔ _
  split
  · next own =>
    subst own
    rw [← h.waiting]
    exact iff_of_false idle apart
  · rfl

/-! ### The choice -/

/-- R72: a grant sets its output to a state that draws its weight. -/
theorem grantPa_drawn (c : Candidate) (s : State) : ∃ v : OutState, (grantPa s c).outs = s.pa.outs.set c.output v ∧
    v ≠ .waiting ∧ v.unitsHeld (s.weight c.output) = s.weight c.output := by
  cases c with
  | speech o => exact ⟨.pulling _, rfl, by simp, rfl⟩
  | action e =>
    refine ⟨_, rfl, ?_, ?_⟩
    · cases e.kind <;> simp
    · cases e.kind <;> rfl

theorem grantPa_units (c : Candidate) (s : State) : (grantPa s c).units = s.pa.units + s.weight c.output := by
  cases c <;> rfl

/-- R70, R72, R73: a grant that fits keeps the laws. -/
theorem State.ArbiterLaws.grant {s : State} (h : s.ArbiterLaws) {c : Candidate} (next : s.candidate = some c)
    (fits : s.weight c.output ≤ s.freeUnits) : (grant c s).ArbiterLaws := by
  have perm := grant_queued next
  rw [grant_pa] at perm
  obtain ⟨gone, once⟩ := List.nodup_cons.1 (perm.nodup_iff.1 h.once)
  have waits : s.out c.output = .waiting := (h.waiting _).2 (State.candidate_queued next)
  have none : (s.out c.output).unitsHeld (s.weight c.output) = 0 := by rw [waits]; rfl
  have queued : ∀ (v : OutState), v ≠ .waiting → ∀ o', o' ∈ (grantPa s c).queued ↔
      if o' = c.output then v = .waiting else o' ∈ s.pa.queued := fun v apart o' => by
    split
    · next own => exact iff_of_false (own ▸ gone) apart
    · next other => rw [perm.mem_iff, List.mem_cons, or_iff_right other]
  have free : s.pa.units + s.weight c.output ≤ s.prof.params.budget := by
    have := h.budget
    unfold State.freeUnits at fits
    omega
  obtain ⟨v, outs, apart, draws⟩ := grantPa_drawn c s
  suffices laws : State.ArbiterLaws { s with pa := grantPa s c } from laws.of_pa (grant_pa c s) (grant_prof c s)
  refine h.move outs (queued v apart) once ?capacity ?units ?budget ?runLimit ?runCount
  case units => rw [none, draws, grantPa_units, Nat.add_zero]
  case budget => rw [grantPa_units]; exact free
  all_goals obtain ⟨o, _, rfl, -, -⟩ | ⟨e, _, rfl, action, turn⟩ := State.candidate_cases next
  case capacity.inl => exact h.capacity
  case capacity.inr =>
    have := h.capacity
    rw [action, List.length_cons] at this
    show s.pa.action.tail.length ≤ 128
    rw [action, List.tail_cons]
    omega
  case runLimit.inl => exact Nat.zero_le _
  case runLimit.inr =>
    show (if s.pa.speech.isEmpty then 0 else s.pa.runCount + 1) ≤ _
    split
    · exact Nat.zero_le _
    · next some_ => exact turn.resolve_left fun empty => some_ (by rw [empty]; rfl)
  case runCount.inl => exact fun _ => rfl
  case runCount.inr => exact fun empty => if_pos (by rw [show s.pa.speech = [] from empty]; rfl)

/-- R71: after PA has chosen, the laws hold and nothing that waits could be granted. -/
theorem State.ArbiterLaws.chosen {s : State} (h : s.ArbiterLaws) : (chooseGrants s).ArbiterSound :=
  (chooseGrants_keeps (P := State.ArbiterLaws) (fun _ _ next fits laws => laws.grant next fits) h).sound (chooseGrants_ends s)

/-- R65, R71: an event at PA. -/
theorem State.ArbiterSound.paEvent {f : State → State} {s : State} (h : s.ArbiterSound)
    (keeps : s.isReady = true → (f s).ArbiterLaws) : (paEvent f s).ArbiterSound := by
  unfold Machine.paEvent
  split
  · next ready => exact (keeps ready).chosen
  · exact h

/-! ### The requests and the ends -/

/-- R66: an OFF output joins the speech queue. -/
theorem State.ArbiterLaws.joinSpeech {s : State} (h : s.ArbiterLaws) {o : Nat} (off : s.out o = .off) :
    State.ArbiterLaws { s with pa := { s.pa with outs := s.pa.outs.set o .waiting, speech := s.pa.speech ++ [o] } } := by
  have absent : o ∉ s.pa.queued := fun m => by have := (h.waiting o).2 m; rw [off] at this; cases this
  have perm : ((s.pa.speech ++ [o]) ++ s.pa.action.map (·.output)).Perm (o :: s.pa.queued) := by
    rw [List.append_assoc]
    exact List.perm_middle
  refine h.move (v := .waiting) rfl (fun o' => ?_) (perm.nodup_iff.2 (List.nodup_cons.2 ⟨absent, h.once⟩)) h.capacity (by rw [off]; rfl) h.budget
    h.runLimit fun none => by simp at none
  refine perm.mem_iff.trans ?_
  split
  · next own => simp [own]
  · next other => rw [List.mem_cons, or_iff_right other]

/-- R67, R68: an OFF output joins the action queue, or finds it full. -/
theorem State.ArbiterLaws.joinAction {s : State} (h : s.ArbiterLaws) {o : Nat} (off : s.out o = .off) (k : ActionKind) :
    (joinAction o k s).ArbiterLaws := by
  by_cases room : s.pa.action.length < 128
  · rw [joinAction_room room]
    have absent : o ∉ s.pa.queued := fun m => by have := (h.waiting o).2 m; rw [off] at this; cases this
    have perm : (s.pa.speech ++ (s.pa.action ++ [({ output := o, kind := k } : ActionEntry)]).map (·.output)).Perm (o :: s.pa.queued) := by
      rw [List.map_append, ← List.append_assoc]
      exact List.perm_append_singleton o s.pa.queued
    refine h.move (v := .waiting) rfl (fun o' => ?_) (perm.nodup_iff.2 (List.nodup_cons.2 ⟨absent, h.once⟩)) ?_ (by rw [off]; rfl) h.budget
      h.runLimit h.runCount
    · refine perm.mem_iff.trans ?_
      split
      · next own => simp [own]
      · next other => rw [List.mem_cons, or_iff_right other]
    · rw [List.length_append, List.length_singleton]
      omega
  · rw [joinAction_full (Nat.not_lt.1 room)]
    exact h.of_pa rfl rfl

/-- R67: a waiting STRIKE that becomes a HOLD stays in its place. -/
theorem State.ArbiterLaws.heldInPlace {s : State} (h : s.ArbiterLaws) (o : Nat) :
    State.ArbiterLaws { s with pa := { s.pa with action := heldInPlace o s.pa.action } } := by
  have queued : ({ s.pa with action := Machine.heldInPlace o s.pa.action } : Pa).queued = s.pa.queued :=
    congrArg (s.pa.speech ++ ·) (heldInPlace_outputs o s.pa.action)
  refine ⟨fun o' => (h.waiting o').trans (by rw [queued]), by rw [queued]; exact h.once, ?_, h.canonical, h.units, h.budget,
    h.runLimit, h.runCount⟩
  have same := congrArg List.length (heldInPlace_outputs o s.pa.action)
  rw [List.length_map, List.length_map] at same
  exact same.trans_le h.capacity

/-- R67, R69: the mark of a strike. -/
theorem State.ArbiterLaws.marked {s : State} (h : s.ArbiterLaws) {o m : Nat} {stay : Bool} (strikes : s.out o = .striking m stay)
    (stay' : Bool) : (s.setOut o (.striking m stay')).ArbiterLaws :=
  h.moved (n := s.pa.units) (by rw [strikes]; simp) (by simp) (by rw [strikes]; rfl) (Nat.le_refl _)

/-- R69, R74: an output that no longer draws gives its units back. -/
theorem State.ArbiterLaws.returned {s : State} (h : s.ArbiterLaws) {o : Nat} {v : OutState} (idle : s.out o ≠ .waiting)
    (rests : v = .off ∨ v = .holding) : (s.moved o v (s.pa.units - (s.out o).unitsHeld (s.weight o))).ArbiterLaws := by
  have drawn := h.unitsHeld_le o
  have none : v.unitsHeld (s.weight o) = 0 := by rcases rests with rfl | rfl <;> rfl
  refine h.moved idle (by rcases rests with rfl | rfl <;> simp) ?_ (Nat.sub_le _ _)
  rw [none]
  omega

theorem State.ArbiterLaws.noticed {s : State} (h : s.ArbiterLaws) (o : Nat) : (energizedNotice o s).ArbiterLaws :=
  h.of_pa (energizedNotice_pa o s) (by unfold State.prof; rw [energizedNotice_profile])

/-- R69: a waiting output leaves its queue. -/
theorem State.ArbiterLaws.unqueued {s : State} (h : s.ArbiterLaws) {o : Nat} (waits : s.out o = .waiting) :
    State.ArbiterLaws { s with pa := { s.pa with
      outs := s.pa.outs.set o .off, speech := s.pa.speech.filter (· != o)
      action := s.pa.action.filter (fun e => e.output != o)
      runCount := if (s.pa.speech.filter (· != o)).isEmpty then 0 else s.pa.runCount } } := by
  have queued : s.pa.speech.filter (· != o) ++ (s.pa.action.filter (fun e => e.output != o)).map (·.output) =
      s.pa.queued.filter (· != o) := by
    unfold Pa.queued
    rw [List.filter_append, List.filter_map]
    rfl
  refine h.move (v := .off) rfl (fun o' => ?_) ?_ ((List.length_filter_le _ _).trans h.capacity) (by rw [waits]; rfl) h.budget ?_ fun none => ?_
  · show o' ∈ s.pa.speech.filter (· != o) ++ (s.pa.action.filter (fun e => e.output != o)).map (·.output) ↔ _
    rw [queued, List.mem_filter]
    split
    · next own => simp [own]
    · next other => simp [other]
  · show (s.pa.speech.filter (· != o) ++ (s.pa.action.filter (fun e => e.output != o)).map (·.output)).Nodup
    rw [queued]
    exact h.once.filter _
  · show (if (s.pa.speech.filter (· != o)).isEmpty then 0 else s.pa.runCount) ≤ _
    split
    · exact Nat.zero_le _
    · exact h.runLimit
  · exact if_pos (by rw [show s.pa.speech.filter (· != o) = [] from none]; rfl)

theorem State.ArbiterSound.paOpen {s : State} (h : s.ArbiterSound) (o : Nat) : (paOpen o s).ArbiterSound := by
  refine h.paEvent fun _ => ?_
  split
  · next off => exact h.laws.joinSpeech off
  · exact h.laws

theorem State.ArbiterSound.paStrike {s : State} (h : s.ArbiterSound) (o w : Nat) : (paStrike o w s).ArbiterSound := by
  refine h.paEvent fun _ => ?_
  split
  · next off => exact h.laws.joinAction off _
  · exact h.laws

theorem State.ArbiterSound.paHold {s : State} (h : s.ArbiterSound) (o : Nat) : (paHold o s).ArbiterSound := by
  by_cases ready : s.isReady = true
  · obtain ⟨off, waiting, striking, drawn⟩ := paHold_eq (o := o) ready
    cases out : s.out o with
    | off => rw [off out]; exact (h.laws.joinAction out _).chosen
    | waiting => rw [waiting out]; exact (h.laws.heldInPlace o).chosen
    | pulling m => rw [drawn (.inr ⟨m, out⟩)]; exact h.laws.chosen
    | holding => rw [drawn (.inl out)]; exact h.laws.chosen
    | striking m stay => rw [striking m stay out]; exact (h.laws.marked out true).chosen
  · rw [show Machine.paHold o s = s from paEvent_notReady (by simpa using ready)]
    exact h

theorem State.ArbiterSound.paRelease {s : State} (h : s.ArbiterSound) (o : Nat) : (paRelease o s).ArbiterSound := by
  by_cases ready : s.isReady = true
  · obtain ⟨off, waiting, drawn, striking⟩ := paRelease_cases (o := o) ready
    have turnedOff : (s.out o = .holding ∨ ∃ m, s.out o = .pulling m) → (Machine.paRelease o s).ArbiterSound := fun on => by
      rw [drawn on]
      refine ((h.laws.returned (v := .off) ?_ (.inl rfl)).noticed o).chosen
      rcases on with e | ⟨m, e⟩ <;> rw [e] <;> simp
    cases out : s.out o with
    | off => rw [off out]; exact h.laws.chosen
    | waiting => rw [waiting out]; exact (h.laws.unqueued out).chosen
    | pulling m => exact turnedOff (.inr ⟨m, out⟩)
    | holding => exact turnedOff (.inl out)
    | striking m stay => rw [striking m stay out]; exact (h.laws.marked out false).chosen
  · rw [show Machine.paRelease o s = s from paRelease_notReady (by simpa using ready)]
    exact h

theorem State.ArbiterSound.pullInEnds {s : State} (h : s.ArbiterSound) (o : Nat) : (pullInEnds o s).ArbiterSound := by
  unfold Machine.pullInEnds
  split
  · next isOver =>
    refine h.paEvent fun _ => ?_
    unfold State.pullInOver at isOver
    split at isOver
    · next m pulls =>
      have moved := h.laws.returned (o := o) (v := .holding) (by rw [pulls]; simp) (.inr rfl)
      rw [pulls] at moved
      exact moved
    all_goals cases isOver
  · exact h

theorem State.ArbiterSound.strikeEnds {s : State} (h : s.ArbiterSound) (o : Nat) : (strikeEnds o s).ArbiterSound := by
  unfold Machine.strikeEnds
  split
  · exact h
  · next stay isOver =>
    refine h.paEvent fun _ => ?_
    show (s.struck o stay).ArbiterLaws
    unfold State.strikeOver at isOver
    split at isOver
    · next m _ strikes =>
      have moved := fun v => h.laws.returned (o := o) (v := v) (by rw [strikes]; simp)
      rw [strikes] at moved
      cases stay with
      | true => exact moved .holding (.inr rfl)
      | false => exact (moved .off (.inl rfl)).noticed o
    all_goals cases isOver

end Sys2Proof.Machine
end


section
/-! What PA holds for the PIPE outputs (03, R44, R45; 04, R64, R66 to R69): kept by what is asked for other outputs, and
moved by OPEN and RELEASE alone. -/

namespace Sys2Proof.Machine

/-- R2: output `o` lies in a window of another kind than PIPE. -/
def Profile.acts (p : Profile) (o : Nat) : Prop := ∃ kind, kind ≠ .pipe ∧ (p.windowOf o).map (·.kind) = some kind

/-- R44, R45, R64: PA holds out of OFF the PIPE outputs that are called and no other, never by a strike; the speech queue
holds PIPE outputs alone and the action queue none. -/
structure State.PipesHeld (calls : Nat → Prop) (s : State) : Prop where
  called : ∀ o, s.outputIs .pipe o → (s.out o ≠ .off ↔ calls o)
  strikes : ∀ o m stay, s.outputIs .pipe o → s.out o ≠ .striking m stay
  speech : ∀ o ∈ s.pa.speech, s.outputIs .pipe o
  action : ∀ e ∈ s.pa.action, s.prof.acts e.output

section
variable {s t : State} {calls : Nat → Prop}

theorem State.outputIs_congr (prof : t.prof = s.prof) (kind : WindowKind) (o : Nat) :
    t.outputIs kind o ↔ s.outputIs kind o := by unfold State.outputIs; rw [prof]

theorem State.pipe_not_acts {o : Nat} (pipe : s.outputIs .pipe o) : ¬ s.prof.acts o := by
  rintro ⟨kind, other, acts⟩
  cases acts.symm.trans pipe
  exact other rfl

/-- What is called may be said otherwise, as long as the same PIPE outputs are. -/
theorem State.PipesHeld.congr (h : s.PipesHeld calls) {calls' : Nat → Prop}
    (same : ∀ o, s.outputIs .pipe o → (calls o ↔ calls' o)) : s.PipesHeld calls' where
  called o pipe := (h.called o pipe).trans (same o pipe)
  strikes := h.strikes
  speech := h.speech
  action := h.action

/-- The PIPE outputs stand, the speech queue does not grow and the action queue holds none of them. -/
theorem State.PipesHeld.spared (h : s.PipesHeld calls) (prof : t.prof = s.prof)
    (out : ∀ o, s.outputIs .pipe o → t.out o = s.out o) (speech : ∀ o ∈ t.pa.speech, o ∈ s.pa.speech)
    (action : ∀ e ∈ t.pa.action, s.prof.acts e.output) : t.PipesHeld calls := by
  refine ⟨fun o pipe => ?_, fun o m stay pipe => ?_, fun o m => ?_, fun e m => ?_⟩
  · rw [State.outputIs_congr prof] at pipe
    rw [out o pipe]
    exact h.called o pipe
  · rw [State.outputIs_congr prof] at pipe
    rw [out o pipe]
    exact h.strikes o m stay pipe
  · rw [State.outputIs_congr prof]
    exact h.speech o (speech o m)
  · rw [prof]
    exact action e m

theorem State.PipesHeld.of_pa (h : s.PipesHeld calls) (pa : t.pa = s.pa) (prof : t.prof = s.prof) : t.PipesHeld calls :=
  h.spared prof (fun o _ => by unfold State.out; rw [pa]) (fun o m => by rwa [pa] at m) fun e m => h.action e (by rwa [pa] at m)

/-- An empty PA holds nothing. -/
theorem State.PipesHeld.of_cleared (cleared : s.pa = .cleared) : s.PipesHeld fun _ => False := by
  have off : ∀ o, s.out o = .off := fun o => by unfold State.out; rw [cleared]; rfl
  refine ⟨fun o _ => ?_, fun o m stay _ => ?_, fun o m => ?_, fun e m => ?_⟩
  · rw [off]; simp
  · rw [off]; simp
  · rw [cleared] at m; cases m
  · rw [cleared] at m; cases m

/-! ### The choice -/

theorem State.PipesHeld.grant (h : s.PipesHeld calls) (queues : s.QueuesSound) {c : Candidate} (next : s.candidate = some c) :
    (grant c s).PipesHeld calls := by
  have prof := grant_prof c s
  have waits : s.out c.output = .waiting := queues.waiting _ (State.candidate_queued next)
  obtain ⟨⟨i, speech⟩, j, action⟩ := grant_queues c s
  refine ⟨fun o pipe => ?_, fun o m stay pipe => ?_, fun o m => ?_, fun e m => ?_⟩
  · rw [State.outputIs_congr prof] at pipe
    refine Iff.trans ?_ (h.called o pipe)
    by_cases own : o = c.output
    · rw [own, waits]
      exact iff_of_true (grant_out_own c s) (by simp)
    · rw [grant_out own]
  · rw [State.outputIs_congr prof] at pipe
    by_cases own : o = c.output
    · subst own
      obtain ⟨o, rest, rfl, -, -⟩ | ⟨e, rest, rfl, front, -⟩ := State.candidate_cases next
      · unfold State.out
        rw [grant_pa]
        simp [grantPa, Candidate.output]
      · exact absurd (h.action e (by rw [front]; exact List.mem_cons_self)) (State.pipe_not_acts pipe)
    · rw [grant_out own]
      exact h.strikes o m stay pipe
  · rw [speech] at m
    rw [State.outputIs_congr prof]
    exact h.speech o (List.mem_of_mem_drop m)
  · rw [action] at m
    rw [prof]
    exact h.action e (List.mem_of_mem_drop m)

/-- R71: the choice moves outputs out of WAITING alone. -/
theorem State.PipesHeld.chosen (h : s.PipesHeld calls) (queues : s.QueuesSound) : (chooseGrants s).PipesHeld calls :=
  (chooseGrants_keeps (P := fun s => s.PipesHeld calls ∧ s.QueuesSound)
    (fun _ _ next _ both => ⟨both.1.grant both.2 next, both.2.grant next⟩) ⟨h, queues⟩).1

/-! ### The requests -/

theorem State.PipesHeld.joinAction (h : s.PipesHeld calls) {o : Nat} (acts : s.prof.acts o) (k : ActionKind) :
    (joinAction o k s).PipesHeld calls := by
  by_cases room : s.pa.action.length < 128
  · rw [joinAction_room room]
    refine h.spared rfl (fun o' pipe => ?_) (fun _ m => m) fun e m => ?_
    · exact Table.get_set_ne _ (fun same : o' = o => State.pipe_not_acts (same ▸ pipe) acts) _
    · rcases List.mem_append.1 m with m | m
      · exact h.action e m
      · rw [List.mem_singleton.1 m]
        exact acts
  · rw [joinAction_full (Nat.not_lt.1 room)]
    exact h.of_pa rfl rfl

theorem State.PipesHeld.heldInPlace (h : s.PipesHeld calls) (o : Nat) :
    State.PipesHeld calls { s with pa := { s.pa with action := heldInPlace o s.pa.action } } := by
  refine h.spared rfl (fun _ _ => rfl) (fun _ m => m) fun e m => ?_
  have listed : e.output ∈ (Machine.heldInPlace o s.pa.action).map (·.output) := List.mem_map_of_mem m
  rw [heldInPlace_outputs] at listed
  obtain ⟨e', m', same⟩ := List.mem_map.1 listed
  rw [← same]
  exact h.action e' m'

/-- An output that strikes is no PIPE output. -/
theorem State.PipesHeld.marked (h : s.PipesHeld calls) {o m : Nat} {stay : Bool} (strikes : s.out o = .striking m stay)
    (v : OutState) (n : Nat) : (s.moved o v n).PipesHeld calls :=
  h.spared rfl (fun o' pipe => by
    rw [State.moved_out, if_neg]
    rintro rfl
    exact h.strikes _ m stay pipe strikes) (fun _ m => m) h.action

theorem State.PipesHeld.paStrike (h : s.PipesHeld calls) (sound : s.ArbiterSound) {o : Nat} (acts : s.prof.acts o) (w : Nat) :
    (paStrike o w s).PipesHeld calls := by
  by_cases ready : s.isReady = true
  · by_cases off : s.out o = .off
    · rw [paStrike_off ready off]
      exact (h.joinAction acts _).chosen (sound.laws.joinAction off _).queues
    · rw [paStrike_called ready off]
      exact h.chosen sound.queues
  · rwa [show Machine.paStrike o w s = s from paEvent_notReady (by simpa using ready)]

theorem State.PipesHeld.paHold (h : s.PipesHeld calls) (sound : s.ArbiterSound) {o : Nat} (acts : s.prof.acts o) :
    (paHold o s).PipesHeld calls := by
  by_cases ready : s.isReady = true
  · obtain ⟨off, waiting, striking, drawn⟩ := paHold_eq (o := o) ready
    cases out : s.out o with
    | off => rw [off out]; exact (h.joinAction acts _).chosen (sound.laws.joinAction out _).queues
    | waiting => rw [waiting out]; exact (h.heldInPlace o).chosen (sound.laws.heldInPlace o).queues
    | pulling m => rw [drawn (.inr ⟨m, out⟩)]; exact h.chosen sound.queues
    | holding => rw [drawn (.inl out)]; exact h.chosen sound.queues
    | striking m stay =>
      rw [striking m stay out]
      exact State.PipesHeld.chosen (h.marked out (.striking m true) s.pa.units) (sound.laws.marked out true).queues
  · rwa [show Machine.paHold o s = s from paEvent_notReady (by simpa using ready)]

/-- R45, R69: in READY a RELEASE leaves the calls of the other PIPE outputs. -/
theorem State.PipesHeld.released (h : s.PipesHeld calls) (sound : s.ArbiterSound) (ready : s.isReady = true) (o : Nat) :
    (paRelease o s).PipesHeld fun o' => calls o' ∧ o' ≠ o := by
  have before : (releaseOut o s).PipesHeld fun o' => calls o' ∧ o' ≠ o := by
    have prof : (releaseOut o s).prof = s.prof := by unfold State.prof; rw [releaseOut_reach o s]
    have queues : (∀ o' ∈ (releaseOut o s).pa.speech, o' ∈ s.pa.speech) ∧
        ∀ e ∈ (releaseOut o s).pa.action, e ∈ s.pa.action := by
      unfold releaseOut
      split
      · exact ⟨fun _ m => m, fun _ m => m⟩
      · exact ⟨fun _ m => (List.mem_filter.1 m).1, fun _ m => (List.mem_filter.1 m).1⟩
      · rw [energizedNotice_pa]; exact ⟨fun _ m => m, fun _ m => m⟩
      · rw [energizedNotice_pa]; exact ⟨fun _ m => m, fun _ m => m⟩
      · exact ⟨fun _ m => m, fun _ m => m⟩
    have out : ∀ o', s.outputIs .pipe o' → (releaseOut o s).out o' = if o' = o then .off else s.out o' := fun o' pipe => by
      rw [releaseOut_pa_outs]
      split
      · next own =>
        subst own
        cases state : s.out o' with
        | striking m stay => exact absurd state (h.strikes o' m stay pipe)
        | off | waiting | pulling _ | holding => rfl
      · rfl
    refine ⟨fun o' pipe => ?_, fun o' m stay pipe => ?_, fun o' m => ?_, fun e m => ?_⟩
    · rw [State.outputIs_congr prof] at pipe
      rw [out o' pipe]
      split
      · next own => simp [own]
      · next other => rw [h.called o' pipe, and_iff_left other]
    · rw [State.outputIs_congr prof] at pipe
      rw [out o' pipe]
      split
      · simp
      · exact h.strikes o' m stay pipe
    · rw [State.outputIs_congr prof]
      exact h.speech o' (queues.1 o' m)
    · rw [prof]
      exact h.action e (queues.2 e m)
  unfold Machine.paRelease
  rw [paEvent_ready ready]
  exact before.chosen (sound.queues.releaseOut o)

/-- R65, R69: a RELEASE of an output of another kind leaves every call. -/
theorem State.PipesHeld.paRelease (h : s.PipesHeld calls) (sound : s.ArbiterSound) {o : Nat} (acts : s.prof.acts o) :
    (paRelease o s).PipesHeld calls := by
  by_cases ready : s.isReady = true
  · refine (h.released sound ready o).congr fun o' pipe => and_iff_left ?_
    rintro rfl
    rw [State.outputIs_congr (s := s) (by unfold State.prof; rw [paRelease_eq])] at pipe
    exact State.pipe_not_acts pipe acts
  · rwa [show Machine.paRelease o s = s from paRelease_notReady (by simpa using ready)]

/-- R44, R66: in READY an OPEN calls its PIPE output. -/
theorem State.PipesHeld.opened (h : s.PipesHeld calls) (sound : s.ArbiterSound) (ready : s.isReady = true) {o : Nat}
    (pipe : s.outputIs .pipe o) : (paOpen o s).PipesHeld fun o' => calls o' ∨ o' = o := by
  by_cases off : s.out o = .off
  · rw [paOpen_off ready off]
    refine State.PipesHeld.chosen ⟨fun o' isPipe => ?_, fun o' m stay isPipe => ?_, fun o' m => ?_, h.action⟩
      (sound.laws.joinSpeech off).queues
    · simp only [State.out, Table.get_set]
      split
      · next own => simp [own]
      · next other => rw [or_iff_left other]; exact h.called o' isPipe
    · simp only [State.out, Table.get_set]
      split
      · simp
      · exact h.strikes o' m stay isPipe
    · rcases List.mem_append.1 m with m | m
      · exact h.speech o' m
      · rw [List.mem_singleton.1 m]
        exact pipe
  · rw [paOpen_called ready off]
    refine State.PipesHeld.congr (h.chosen sound.queues) fun o' _ => ?_
    refine ⟨.inl, ?_⟩
    rintro (called | rfl)
    · exact called
    · exact (h.called _ pipe).1 off

/-! ### The ends -/

theorem State.PipesHeld.pullInEnds (h : s.PipesHeld calls) (sound : s.ArbiterSound) (o : Nat) :
    (pullInEnds o s).PipesHeld calls := by
  by_cases early : ∀ m, s.out o = .pulling m → s.now < m
  · rwa [pullInEnds_early early]
  · simp only [not_forall, Nat.not_lt] at early
    obtain ⟨m, pulls, due⟩ := early
    by_cases ready : s.isReady = true
    · rw [pullInEnds_due ready pulls due]
      refine State.PipesHeld.chosen ⟨fun o' pipe => ?_, fun o' m' stay pipe => ?_, h.speech, h.action⟩
        (sound.queues.moved (by rw [pulls]; simp) _ _)
      · rw [State.moved_out]
        split
        · next own =>
          rw [own, ← h.called o (own ▸ pipe), pulls]
          simp
        · exact h.called o' pipe
      · rw [State.moved_out]
        split
        · simp
        · exact h.strikes o' m' stay pipe
    · unfold Machine.pullInEnds
      rwa [paEvent_notReady (by simpa using ready), ite_self]

theorem State.PipesHeld.strikeEnds (h : s.PipesHeld calls) (sound : s.ArbiterSound) (o : Nat) :
    (strikeEnds o s).PipesHeld calls := by
  by_cases early : ∀ m stay, s.out o = .striking m stay → s.now < m
  · rwa [strikeEnds_early early]
  · simp only [not_forall, Nat.not_lt] at early
    obtain ⟨m, stay, strikes, due⟩ := early
    by_cases ready : s.isReady = true
    · rw [strikeEnds_due ready strikes due]
      have pa := State.struck_pa o stay s
      have prof : (s.struck o stay).prof = s.prof := by unfold State.prof; rw [State.struck_reach o stay s]
      exact State.PipesHeld.chosen ((h.marked strikes _ _).of_pa pa prof)
        ((sound.queues.moved (by rw [strikes]; simp) _ _).of_pa pa)
    · unfold Machine.strikeEnds
      split
      · exact h
      · rwa [paEvent_notReady (by simpa using ready)]

end

end Sys2Proof.Machine
end


section
/-! The arbiter's laws and what links the demand to them, as they stand between the operations of one step: O54's two halves
are proved by one walk, with `pipes` saying whether the second is asked for. -/

namespace Sys2Proof.Machine

/-! ### What scripts and contexts ask for -/

/-- R109: the output that a step names. -/
def ScriptStep.output : ScriptStep → Option Nat
  | .strike o _ | .hold o | .lift o => some o
  | .wait _ | .loop _ _ _ | .mark _ | .await _ _ | .awaitLine _ _ _ | .setLine _ _ | .rearm | .done => none

/-- R103: no step that execution comes to from step `i` names a PIPE output. -/
def Profile.safe (p : Profile) (i : Nat) : Prop :=
  ∀ j, p.Reaches i j → ∀ st o, p.steps[j]? = some st → st.output = some o → p.acts o

/-- R103, R109: a context that goes on, and one that is resumed, asks for no PIPE output, and holds none. -/
structure Profile.plays (p : Profile) (c : Context) : Prop where
  going : p.safe c.index
  resumed : c.waiting ≠ .running → p.safe (c.index + 1)
  held : ∀ o ∈ c.held, p.acts o

/-- What the wiring of a profile says for PA: an output has one window, and TSU's outputs are no PIPE outputs. -/
structure Profile.Wired (p : Profile) : Prop where
  windowOf : ∀ w ∈ p.windows, ∀ o, w.contains o = true → p.windowOf o = some w
  groups : ∀ g ∈ p.groups, p.acts g.output
  sets : ∀ x ∈ p.sets, ∀ o, x.uses o = true → p.acts o

/-- What the scripts and the stop entries of a profile say for PA: no script of an effect names a PIPE output, and a VOICE
entry feeds a PIPE or BAR window. -/
structure Profile.Voiced (p : Profile) : Prop where
  effects : ∀ x ∈ p.effects, ∀ i, x.entersAt i → p.safe i
  entries : ∀ e ∈ p.entries, e.inRange p

theorem Profile.InRange.wired {p : Profile} (h : p.InRange) : p.Wired where
  windowOf _ m _ c := h.windowOf m c
  groups g m := ⟨.aux, by simp, h.aux (h.groupOutputs g m)⟩
  sets x m o uses := ⟨.aux, by simp, h.aux (h.setOutputs x m o uses)⟩

theorem Profile.InRange.voiced {p : Profile} (h : p.InRange) : p.Voiced where
  entries := h.entries.2
  effects x m i enters j reaches st o found names := by
    obtain ⟨st', found', fits⟩ := h.effectSteps x m i j enters reaches
    cases found.symm.trans found'
    cases st <;> cases names <;> exact ⟨.trap, by simp, h.trap fits⟩

theorem Profile.wired_default : (default : Profile).Wired :=
  ⟨fun _ m => (List.not_mem_nil m).elim, fun _ m => (List.not_mem_nil m).elim, fun _ m => (List.not_mem_nil m).elim⟩

theorem Profile.voiced_default : (default : Profile).Voiced :=
  ⟨fun _ m => (List.not_mem_nil m).elim, fun _ m => (List.not_mem_nil m).elim⟩

/-! ### The laws -/

/-- What O54's second half needs between the operations of a step, `calls` being the PIPE outputs that are called: EE's
contexts ask for none, every stage of a shutter set is one of its profile's, and runner 0 is idle where it could ask PA. -/
structure State.PipeLaws (calls : Nat → Prop) (s : State) : Prop where
  held : s.PipesHeld calls
  bars : ∀ i, ∀ o ∈ s.dt.sets.get i, s.outputIs .bar o
  shutters : ∀ x cfg, s.shutterSet x = some cfg → (s.shutter x).stage ≤ cfg.stages ∧ (s.shutter x).target ≤ cfg.stages
  idle : s.ch.state = .ready ∨ s.ch.state = .gathering → s.runner 0 = none
  runners : ∀ r ∈ effectRunners, ∀ c, s.runner r = some c → s.prof.plays c
  suspended : ∀ g, ∀ c ∈ (s.group g).stack, s.prof.plays c
  pending : ∀ g e, (s.group g).pending = some e → s.effect e ≠ none

/-- The laws of O54 in a state with profile `p`; those of the pipes where `pipes` asks for them. -/
structure State.Arbitrated (p : Profile) (pipes : Prop) (calls : Nat → Prop) (s : State) : Prop where
  prof : s.prof = p
  arbiter : s.ArbiterSound
  laws : pipes → s.PipeLaws calls

/-- Nothing moves that the laws speak of, but that runner 0 may go on. -/
structure State.aside (s t : State) : Prop where
  pa : t.pa = s.pa
  prof : t.prof = s.prof
  state : t.ch.state = s.ch.state
  pipe : t.dt.pipe = s.dt.pipe
  sets : t.dt.sets = s.dt.sets
  groups : t.ee.groups = s.ee.groups
  runners : ∀ r ∈ effectRunners, t.runner r = s.runner r
  idle : s.runner 0 = none → t.runner 0 = none
  shutters : ∀ x, (t.shutter x).stage = (s.shutter x).stage ∧ (t.shutter x).target = (s.shutter x).target

section
variable {s t : State}

theorem State.aside.of_blocks (pa : t.pa = s.pa) (profile : t.profile = s.profile) (state : t.ch.state = s.ch.state)
    (dt : t.dt.pipe = s.dt.pipe ∧ t.dt.sets = s.dt.sets) (ee : t.ee.groups = s.ee.groups ∧ t.ee.runners = s.ee.runners)
    (shutters : t.tsu.shutters = s.tsu.shutters) : s.aside t where
  pa := pa
  prof := by unfold State.prof; rw [profile]
  state := state
  pipe := dt.1
  sets := dt.2
  groups := ee.1
  runners r _ := by unfold State.runner; rw [ee.2]
  idle i := by unfold State.runner at i ⊢; rwa [ee.2]
  shutters x := by unfold State.shutter; rw [shutters]; exact ⟨rfl, rfl⟩

theorem ReachOut.aside (h : ReachOut s t) : s.aside t := by
  unfold ReachOut at h
  rw [h]
  exact .of_blocks rfl rfl rfl ⟨rfl, rfl⟩ ⟨rfl, rfl⟩ rfl

theorem ReachLi.aside (h : ReachLi s t) : s.aside t := h.out.aside

theorem reportFault_aside (k : FaultKind) (a b : Nat) (s : State) : s.aside (reportFault k a b s) :=
  .of_blocks rfl rfl rfl ⟨rfl, rfl⟩ ⟨rfl, rfl⟩ rfl

theorem restartRest_aside (s : State) : s.aside (restartRest s) := by
  rw [restartRest_withRest]
  exact .of_blocks rfl rfl rfl ⟨rfl, rfl⟩ ⟨rfl, rfl⟩ rfl

/-- A line is driven, and may make the pass of runner 0 due. -/
theorem ReachPass.aside (h : ReachPass s t) (idle : s.runner 0 = none → t.runner 0 = none) : s.aside t where
  pa := by rw [h.frame]
  prof := by unfold State.prof; rw [h.frame]
  state := by rw [h.frame]
  pipe := by rw [h.frame]
  sets := by rw [h.frame]
  groups := by rw [h.frame]
  runners r m := h.runners r (effectRunners_ne m)
  idle := idle
  shutters x := by unfold State.shutter; rw [h.frame]; exact ⟨rfl, rfl⟩

theorem driveLine_aside (l : Nat) (v : Bool) (s : State) : s.aside (driveLine l v s) :=
  (driveLine_pass l v s).aside (driveLine_spares l v s).1

theorem driveLamps_aside (v : Bool) (s : State) : s.aside (driveLamps v s) :=
  (driveLamps_pass v s).aside (driveLamps_idle v)

end

section
variable {p : Profile} {pipes : Prop} {calls : Nat → Prop} {s t : State}

theorem State.PipeLaws.congr (h : s.PipeLaws calls) {calls' : Nat → Prop}
    (same : ∀ o, s.outputIs .pipe o → (calls o ↔ calls' o)) : s.PipeLaws calls' :=
  ⟨h.held.congr same, h.bars, h.shutters, h.idle, h.runners, h.suspended, h.pending⟩

theorem State.Arbitrated.congr (h : s.Arbitrated p pipes calls) {calls' : Nat → Prop}
    (same : ∀ o, s.outputIs .pipe o → (calls o ↔ calls' o)) : s.Arbitrated p pipes calls' :=
  ⟨h.prof, h.arbiter, fun asked => (h.laws asked).congr same⟩

theorem State.Arbitrated.aside (h : s.Arbitrated p pipes calls) (k : s.aside t) : t.Arbitrated p pipes calls where
  prof := k.prof.trans h.prof
  arbiter := h.arbiter.of_pa k.pa k.prof
  laws asked := by
    obtain ⟨held, bars, shutters, idle, runners, suspended, pending⟩ := h.laws asked
    refine ⟨held.of_pa k.pa k.prof, fun i o m => ?_, fun x cfg set => ?_, fun st => ?_, fun r m c found => ?_, fun g c m => ?_,
      fun g e waits => ?_⟩
    · rw [k.sets] at m
      exact (State.outputIs_congr k.prof _ _).2 (bars i o m)
    · unfold State.shutterSet at set
      rw [k.prof] at set
      rw [(k.shutters x).1, (k.shutters x).2]
      exact shutters x cfg set
    · rw [k.state] at st
      exact k.idle (idle st)
    · rw [k.runners r m] at found
      rw [k.prof]
      exact runners r m c found
    · unfold State.group at m
      rw [k.groups] at m
      rw [k.prof]
      exact suspended g c m
    · unfold State.group at waits
      rw [k.groups] at waits
      unfold State.effect
      rw [k.prof]
      exact pending g e waits

/-! ### PA's requests and ends -/

/-- What reaches PA alone keeps the laws if it keeps PA's. -/
theorem State.Arbitrated.of_reach (h : s.Arbitrated p pipes calls) (reach : ReachPa s t) {calls' : Nat → Prop}
    (arbiter : t.ArbiterSound) (held : pipes → t.PipesHeld calls') : t.Arbitrated p pipes calls' := by
  have prof : t.prof = s.prof := by unfold State.prof; rw [reach]
  refine ⟨prof.trans h.prof, arbiter, fun asked => ?_⟩
  obtain ⟨-, bars, shutters, idle, runners, suspended, pending⟩ := h.laws asked
  have kept := held asked
  unfold ReachPa at reach
  rw [reach] at kept ⊢
  exact ⟨kept, bars, shutters, idle, runners, suspended, pending⟩

/-- R65: outside READY what PA is asked for does not matter. -/
theorem State.Arbitrated.request (h : s.Arbitrated p pipes calls) {f : State → State} (reach : ReachPa s (paEvent f s))
    (arbiter : (paEvent f s).ArbiterSound)
    (held : pipes → s.ch.state = .ready → (paEvent f s).PipesHeld calls) : (paEvent f s).Arbitrated p pipes calls := by
  refine h.of_reach reach arbiter fun asked => ?_
  by_cases ready : s.ch.state = .ready
  · exact held asked ready
  · rw [paEvent_notReady (State.isReady_false.2 ready)]
    exact (h.laws asked).held

theorem State.Arbitrated.paHold (h : s.Arbitrated p pipes calls) {o : Nat} (acts : pipes → s.ch.state = .ready → p.acts o) :
    (paHold o s).Arbitrated p pipes calls :=
  h.request (paHold_reach o s) (h.arbiter.paHold o) fun asked ready =>
    (h.laws asked).held.paHold h.arbiter (h.prof ▸ acts asked ready)

theorem State.Arbitrated.paStrike (h : s.Arbitrated p pipes calls) {o : Nat} (acts : pipes → s.ch.state = .ready → p.acts o)
    (w : Nat) : (paStrike o w s).Arbitrated p pipes calls :=
  h.request (paStrike_reach o w s) (h.arbiter.paStrike o w) fun asked ready =>
    (h.laws asked).held.paStrike h.arbiter (h.prof ▸ acts asked ready) w

theorem State.Arbitrated.paRelease (h : s.Arbitrated p pipes calls) {o : Nat}
    (acts : pipes → s.ch.state = .ready → p.acts o) : (paRelease o s).Arbitrated p pipes calls :=
  h.request (paRelease_reach o s) (h.arbiter.paRelease o) fun asked ready =>
    (h.laws asked).held.paRelease h.arbiter (h.prof ▸ acts asked ready)

theorem State.Arbitrated.pullInEnds (h : s.Arbitrated p pipes calls) (o : Nat) : (pullInEnds o s).Arbitrated p pipes calls :=
  h.of_reach (pullInEnds_reach o s) (h.arbiter.pullInEnds o) fun asked => (h.laws asked).held.pullInEnds h.arbiter o

theorem State.Arbitrated.strikeEnds (h : s.Arbitrated p pipes calls) (o : Nat) : (strikeEnds o s).Arbitrated p pipes calls :=
  h.of_reach (strikeEnds_reach o s) (h.arbiter.strikeEnds o) fun asked => (h.laws asked).held.strikeEnds h.arbiter o

/-- Requests for a list of outputs, none of which is a PIPE output. -/
theorem State.Arbitrated.forOutputs {f : Nat → State → State}
    (one : ∀ o s, s.Arbitrated p pipes calls → (pipes → p.acts o) → (f o s).Arbitrated p pipes calls) (l : List Nat)
    (acts : pipes → ∀ o ∈ l, p.acts o) (h : s.Arbitrated p pipes calls) : (forOutputs f l s).Arbitrated p pipes calls :=
  foldl_keeps (P := State.Arbitrated p pipes calls) l (fun o m s k => one o s k fun asked => acts asked o m) h

theorem State.Arbitrated.releases (h : s.Arbitrated p pipes calls) {l : List Nat} (acts : pipes → ∀ o ∈ l, p.acts o) :
    (Machine.forOutputs Machine.paRelease l s).Arbitrated p pipes calls :=
  State.Arbitrated.forOutputs (fun _ _ k acts => k.paRelease fun asked _ => acts asked) l acts h

theorem State.Arbitrated.holds (h : s.Arbitrated p pipes calls) {l : List Nat} (acts : pipes → ∀ o ∈ l, p.acts o) :
    (Machine.forOutputs Machine.paHold l s).Arbitrated p pipes calls :=
  State.Arbitrated.forOutputs (fun _ _ k acts => k.paHold fun asked _ => acts asked) l acts h

theorem State.Arbitrated.strikes (h : s.Arbitrated p pipes calls) {l : List Nat} (acts : pipes → ∀ o ∈ l, p.acts o) :
    (Machine.forOutputs strikeBar l s).Arbitrated p pipes calls :=
  State.Arbitrated.forOutputs (fun _ _ k acts => k.paStrike (fun asked _ => acts asked) _) l acts h

/-- Two requests in either order. -/
theorem State.Arbitrated.choice (h : s.Arbitrated p pipes calls) (n : Nat) :
    State.Arbitrated p pipes calls { s with choices := n } :=
  h.aside (.of_blocks rfl rfl rfl ⟨rfl, rfl⟩ ⟨rfl, rfl⟩ rfl)

end

end Sys2Proof.Machine
end


section
/-! The runners and EE under the laws of the pipes (05, 06): what a pass, a holder's end and a trigger ask of PA. -/

namespace Sys2Proof.Machine

/-! ### Scripts -/

theorem Profile.Reaches.trans {p : Profile} {i j k : Nat} (h : p.Reaches i j) (l : p.Reaches j k) : p.Reaches i k := by
  induction l with
  | here => exact h
  | onward _ step ih => exact .onward ih step

theorem Profile.safe.onward {p : Profile} {i k : Nat} (h : p.safe i) (step : k ∈ successors p.steps i) : p.safe k :=
  fun j reaches => h j (((Profile.Reaches.here i).onward step).trans reaches)

/-- R102: after a step that neither ends the script nor loops comes the next one. -/
theorem successors_next {steps : List ScriptStep} {i : Nat} {st : ScriptStep} (found : steps[i]? = some st)
    (ends : st ≠ .done) : i + 1 ∈ successors steps i := by
  unfold successors
  rw [found]
  cases st <;> simp at ends ⊢

theorem Profile.safe.next {p : Profile} {i : Nat} (h : p.safe i) {st : ScriptStep} (found : p.steps[i]? = some st)
    (ends : st ≠ .done) : p.safe (i + 1) :=
  h.onward (successors_next found ends)

/-- A context that goes on elsewhere, holding no more than before. -/
theorem Profile.plays.goes {p : Profile} {c' : Context} (running : c'.waiting = .running) (safe : p.safe c'.index)
    (held : ∀ o ∈ c'.held, p.acts o) : p.plays c' :=
  ⟨safe, fun waits => absurd running waits, held⟩

theorem Context.loop_parts (c : Context) (target count : Nat) (reg : Register) (endless : Bool) :
    ((c.loop target count reg endless).index = target ∨ (c.loop target count reg endless).index = c.index + 1) ∧
      (c.loop target count reg endless).waiting = c.waiting ∧ (c.loop target count reg endless).held = c.held := by
  have register : ∀ (c : Context) v, (c.setRegister v reg).index = c.index ∧ (c.setRegister v reg).waiting = c.waiting ∧
      (c.setRegister v reg).held = c.held := fun c v => by cases reg <;> exact ⟨rfl, rfl, rfl⟩
  unfold Context.loop
  dsimp only
  split
  · split
    · exact ⟨.inl rfl, rfl, rfl⟩
    · exact ⟨.inr rfl, rfl, rfl⟩
  · split
    · split
      · exact ⟨.inr rfl, rfl, rfl⟩
      · obtain ⟨index, waiting, held⟩ := register { c with index := target } (some (count - 1))
        exact ⟨.inl index, waiting, held⟩
    · next v _ =>
      split
      · obtain ⟨index, waiting, held⟩ := register { c with index := target } (some (v - 1))
        exact ⟨.inl index, waiting, held⟩
      · obtain ⟨index, waiting, held⟩ := register { c with index := c.index + 1 } none
        exact ⟨.inr index, waiting, held⟩

/-! ### One step (R107 to R115) -/

theorem tallied_parts (r i : Nat) (c : Context) (s : State) :
    (tallied r i c s).2.1.index = c.index ∧ (tallied r i c s).2.1.waiting = c.waiting ∧ (tallied r i c s).2.1.held = c.held := by
  unfold tallied
  dsimp only
  split <;> exact ⟨rfl, rfl, rfl⟩

theorem tallied_plays {p : Profile} (r i : Nat) {c : Context} (s : State) (plays : p.plays c) :
    p.plays (tallied r i c s).2.1 := by
  obtain ⟨index, waiting, held⟩ := tallied_parts r i c s
  exact ⟨by rw [index]; exact plays.going, by rw [index, waiting]; exact plays.resumed, by rw [held]; exact plays.held⟩

/-- A step leaves its context asking for no PIPE output. -/
theorem takeStep_plays {p : Profile} {s : State} (prof : s.prof = p) (r : Nat) {c : Context} (running : c.waiting = .running)
    (plays : p.plays c) : p.plays (takeStep r c s).2.1 := by
  have names : ∀ {st o}, p.steps[c.index]? = some st → st.output = some o → p.acts o := fun found names =>
    plays.going _ (.here _) _ _ found names
  have next : ∀ {st}, p.steps[c.index]? = some st → st ≠ .done → p.plays { c with index := c.index + 1 } :=
    fun found ends => .goes running (plays.going.next found ends) plays.held
  have waits : ∀ {st} (w : Waiting), p.steps[c.index]? = some st → st ≠ .done → p.plays { c with waiting := w, tally := 0 } :=
    fun w found ends => ⟨plays.going, fun _ => plays.going.next found ends, plays.held⟩
  unfold takeStep
  dsimp only
  rw [prof]
  split
  · exact plays
  · next found => exact waits _ found (by simp)
  · next found => exact tallied_plays _ _ _ (next found (by simp))
  · next o found =>
    have moved := next found (by simp)
    split
    · exact tallied_plays _ _ _ moved
    · split
      · refine tallied_plays _ _ _ (.goes running moved.going fun o' m => ?_)
        rcases List.mem_append.1 m with m | m
        · exact plays.held o' m
        · rw [List.mem_singleton.1 m]
          exact names found rfl
      · exact tallied_plays _ _ _ moved
  · next found =>
    exact tallied_plays _ _ _
      (.goes running (next found (by simp)).going fun o m => plays.held o (List.mem_filter.1 m).1)
  · next target count reg found =>
    obtain ⟨index, waiting, held⟩ := c.loop_parts target count reg (s.modeOf c == some .level)
    refine tallied_plays _ _ _ (.goes (waiting.trans running) ?_ (by rw [held]; exact plays.held))
    rcases index with e | e <;> rw [e] <;> refine plays.going.onward ?_ <;> unfold successors <;> rw [found] <;> simp
  · next found => exact tallied_plays _ _ _ (next found (by simp))
  · next found => exact waits _ found (by simp)
  · next found =>
    split
    · exact tallied_plays _ _ _ (next found (by simp))
    · exact waits _ found (by simp)
  · next found => exact tallied_plays _ _ _ (next found (by simp))
  · next found =>
    have moved := next found (by simp)
    exact tallied_plays _ _ _ (.goes running moved.going plays.held)
  · exact plays

/-- A step after which the pass goes on leaves its context due. -/
theorem takeStep_running (r : Nat) {c : Context} {s : State} (running : c.waiting = .running)
    (going : (takeStep r c s).1 = .going) : (takeStep r c s).2.1.waiting = .running := by
  have tallied_running : ∀ {i : Nat} {c' : Context} {t : State}, c'.waiting = .running →
      (tallied r i c' t).2.1.waiting = .running := fun {i c' t} e => (tallied_parts r i c' t).2.1.trans e
  unfold takeStep at going ⊢
  dsimp only at going ⊢
  split at going
  · cases going
  · cases going
  · exact tallied_running running
  · next o _ =>
    by_cases own : o ∈ c.held
    · rw [if_pos own]; exact tallied_running running
    · rw [if_neg own]
      by_cases room : c.held.length < 4
      · rw [if_pos room]; exact tallied_running running
      · rw [if_neg room]; exact tallied_running running
  · exact tallied_running running
  · next target count reg _ => exact tallied_running ((c.loop_parts target count reg _).2.1.trans running)
  · exact tallied_running running
  · cases going
  · split at going
    · next met => rw [if_pos met]; exact tallied_running running
    · cases going
  · exact tallied_running running
  · exact tallied_running running
  · cases going

section
variable {p : Profile} {pipes : Prop} {calls : Nat → Prop} {s : State}

theorem State.Arbitrated.tallied (h : s.Arbitrated p pipes calls) (r i : Nat) (c : Context) :
    (tallied r i c s).2.2.Arbitrated p pipes calls := by
  unfold Machine.tallied
  dsimp only
  split
  · exact h
  · exact h.aside (reportFault_aside _ _ _ _)

/-- A step asks PA for what its context may ask: where the pipes matter and PA hears, the context plays. -/
theorem State.Arbitrated.takeStep (h : s.Arbitrated p pipes calls) (r : Nat) {c : Context}
    (plays : pipes → s.ch.state = .ready → p.plays c) : (takeStep r c s).2.2.Arbitrated p pipes calls := by
  have names : ∀ {st o}, p.steps[c.index]? = some st → st.output = some o → pipes → s.ch.state = .ready → p.acts o :=
    fun found names asked ready => (plays asked ready).going _ (.here _) _ _ found names
  unfold Machine.takeStep
  dsimp only
  rw [h.prof]
  split
  · exact h
  · exact h
  · next found => exact (h.paStrike (names found rfl) _).tallied _ _ _
  · next found =>
    have held := h.paHold (names found rfl)
    split
    · exact held.tallied _ _ _
    · split
      · exact held.tallied _ _ _
      · exact h.tallied _ _ _
  · next found => exact (h.paRelease (names found rfl)).tallied _ _ _
  · exact h.tallied _ _ _
  · exact (h.aside (handOver_reach _ _).aside).tallied _ _ _
  · exact h
  · split
    · exact h.tallied _ _ _
    · exact h
  · exact (h.aside (driveLine_aside _ _ _)).tallied _ _ _
  · exact h.tallied _ _ _
  · exact h

/-- A pass: `asks` says whether its context is known to play. -/
theorem State.Arbitrated.takeSteps (asks : Prop) (r n : Nat) : ∀ {s : State} {c : Context}, s.Arbitrated p pipes calls →
    c.waiting = .running → (asks → p.plays c) → (pipes → s.ch.state = .ready → asks) →
    (takeSteps r n c s).2.2.Arbitrated p pipes calls ∧ (asks → p.plays (takeSteps r n c s).2.1) := by
  induction n with
  | zero => exact fun h _ plays _ => ⟨h, plays⟩
  | succ n ih =>
    intro s c h running plays due
    have stepped := h.takeStep r fun asked ready => plays (due asked ready)
    have after : asks → p.plays (Machine.takeStep r c s).2.1 := fun known => takeStep_plays h.prof r running (plays known)
    have onward := takeStep_running r (s := s) running
    have state : (Machine.takeStep r c s).2.2.ch.state = s.ch.state := by rw [(takeStep_reach r c s).ch_eq]
    unfold Machine.takeSteps
    split
    · next e =>
      rw [e] at stepped after onward state
      exact ih stepped (onward rfl) after fun asked ready => due asked (state ▸ ready)
    · exact ⟨stepped, after⟩

/-- A pass of a context that plays. -/
theorem State.Arbitrated.runPass (h : s.Arbitrated p pipes calls) (r : Nat) {c : Context} (running : c.waiting = .running)
    (plays : pipes → p.plays c) :
    (runPass r c s).2.2.Arbitrated p pipes calls ∧ (pipes → p.plays (runPass r c s).2.1) :=
  State.Arbitrated.takeSteps pipes r 17 h running plays fun asked _ => asked

/-! ### Groups and runners -/

theorem State.Arbitrated.setRunner (h : s.Arbitrated p pipes calls) {r : Nat} (low : r ∈ effectRunners) {v : Option Context}
    (plays : pipes → ∀ c, v = some c → p.plays c) : (s.setRunner r v).Arbitrated p pipes calls := by
  refine ⟨h.prof, h.arbiter.of_pa rfl rfl, fun asked => ?_⟩
  obtain ⟨held, bars, shutters, idle, runners, suspended, pending⟩ := h.laws asked
  refine ⟨held.of_pa rfl rfl, bars, shutters, fun st => ?_, fun r' m c found => ?_, suspended, pending⟩
  · rw [State.runner_setRunner, if_neg (effectRunners_ne low).symm]
    exact idle st
  · rw [State.runner_setRunner] at found
    split at found
    · rw [show (s.setRunner r v).prof = p from h.prof]
      exact plays asked c found
    · exact runners r' m c found

/-- Runner 0 takes a chamber script only where it can ask nothing of PA. -/
theorem State.Arbitrated.setChamber (h : s.Arbitrated p pipes calls) {v : Option Context}
    (apart : pipes → v = none ∨ s.ch.state ≠ .ready ∧ s.ch.state ≠ .gathering) : (s.setRunner 0 v).Arbitrated p pipes calls := by
  refine ⟨h.prof, h.arbiter.of_pa rfl rfl, fun asked => ?_⟩
  obtain ⟨held, bars, shutters, idle, runners, suspended, pending⟩ := h.laws asked
  refine ⟨held.of_pa rfl rfl, bars, shutters, fun st => ?_, fun r' m c found => ?_, suspended, pending⟩
  · rw [State.runner_setRunner_self]
    rcases apart asked with none | ⟨ready, gathering⟩
    · exact none
    · rcases st with st | st
      · exact absurd st ready
      · exact absurd st gathering
  · rw [State.runner_setRunner, if_neg (effectRunners_ne m)] at found
    exact runners r' m c found

theorem State.Arbitrated.setGroup (h : s.Arbitrated p pipes calls) (g : Nat) {v : Group}
    (stack : pipes → ∀ c ∈ v.stack, p.plays c) (pends : pipes → ∀ e, v.pending = some e → s.effect e ≠ none) :
    (s.setGroup g v).Arbitrated p pipes calls := by
  refine ⟨h.prof, h.arbiter.of_pa rfl rfl, fun asked => ?_⟩
  obtain ⟨held, bars, shutters, idle, runners, suspended, pending⟩ := h.laws asked
  refine ⟨held.of_pa rfl rfl, bars, shutters, idle, runners, fun g' c m => ?_, fun g' e waits => ?_⟩
  · rw [State.group_setGroup] at m
    split at m
    · rw [show (s.setGroup g v).prof = p from h.prof]
      exact stack asked c m
    · exact suspended g' c m
  · rw [State.group_setGroup] at waits
    split at waits
    · exact pends asked e waits
    · exact pending g' e waits

theorem State.Arbitrated.stack (h : s.Arbitrated p pipes calls) (g : Nat) : pipes → ∀ c ∈ (s.group g).stack, p.plays c :=
  fun asked c m => h.prof ▸ (h.laws asked).suspended g c m

theorem State.Arbitrated.pends (h : s.Arbitrated p pipes calls) (g : Nat) :
    pipes → ∀ e, (s.group g).pending = some e → s.effect e ≠ none :=
  fun asked => (h.laws asked).pending g

theorem State.Arbitrated.plays (h : s.Arbitrated p pipes calls) {r : Nat} (low : r ∈ effectRunners) {c : Context}
    (found : s.runner r = some c) : pipes → p.plays c :=
  fun asked => h.prof ▸ (h.laws asked).runners r low c found

/-- R86: a fresh context of an effect that there is. -/
theorem State.Arbitrated.fresh (h : s.Arbitrated p pipes calls) (voiced : pipes → p.Voiced) {e : Nat}
    (exists_ : pipes → s.effect e ≠ none) : pipes → p.plays (becomeHolder e s).1 := fun asked => by
  cases found : s.effect e with
  | none => exact absurd found (exists_ asked)
  | some x =>
    have mem : x ∈ p.effects := by
      unfold State.effect at found
      rw [h.prof] at found
      exact List.mem_of_getElem? found
    refine .goes rfl ?_ fun o m => by cases m
    show p.safe (((s.effect e).map (·.onEntry)).getD 0)
    rw [found]
    exact (voiced asked).effects x mem _ (.inl rfl)

theorem State.Arbitrated.becomeHolder (h : s.Arbitrated p pipes calls) (e : Nat) :
    (becomeHolder e s).2.Arbitrated p pipes calls :=
  h.setGroup _ (h.stack _) (h.pends _)

/-- R88: the outputs of a claim group are no PIPE outputs. -/
theorem State.Arbitrated.groupOutputs (h : s.Arbitrated p pipes calls) (wired : pipes → p.Wired) (g : Nat) :
    pipes → ∀ o ∈ s.groupOutputs g, p.acts o := fun asked o m => by
  obtain ⟨w, mw, kind, -, within⟩ := State.mem_groupOutputs.1 m
  rw [h.prof] at mw
  refine ⟨.trap, by simp, ?_⟩
  rw [(wired asked).windowOf w mw o within, Option.map_some, kind]

theorem State.Arbitrated.emptyHeld (h : s.Arbitrated p pipes calls) (g : Nat) {r : Nat} (low : r ∈ effectRunners) :
    (emptyHeld g s r).Arbitrated p pipes calls := by
  unfold Machine.emptyHeld
  split
  · next c found =>
    split
    · refine h.setRunner low fun asked c' is => ?_
      cases is
      obtain ⟨going, resumed, -⟩ := h.plays low found asked
      exact ⟨going, resumed, fun o m => by cases m⟩
    · exact h
  · exact h

theorem State.Arbitrated.clearGroup (h : s.Arbitrated p pipes calls) (wired : pipes → p.Wired) (g : Nat) :
    (clearGroup g s).Arbitrated p pipes calls :=
  foldl_keeps (P := State.Arbitrated p pipes calls) effectRunners (fun _ low _ k => k.emptyHeld g low)
    (h.releases (h.groupOutputs wired g))

theorem State.Arbitrated.clearAllGroups (h : s.Arbitrated p pipes calls) (wired : pipes → p.Wired) :
    (clearAllGroups s).Arbitrated p pipes calls := by
  unfold Machine.clearAllGroups
  exact foldl_keeps (P := State.Arbitrated p pipes calls) _ (fun g _ _ k => k.clearGroup wired g) h

theorem State.Arbitrated.stopEffects (h : s.Arbitrated p pipes calls) : (stopEffects s).Arbitrated p pipes calls := by
  refine ⟨h.prof, h.arbiter.of_pa rfl rfl, fun asked => ?_⟩
  obtain ⟨held, bars, shutters, idle, runners, suspended, pending⟩ := h.laws asked
  refine ⟨held.of_pa rfl rfl, bars, shutters, fun st => ?_, fun r low c found => ?_, fun g c m => ?_, fun g e waits => ?_⟩
  · show (effectRunners.foldl (fun m r => m.set r none) s.ee.runners).get 0 = none
    rw [Table.get_foldl_set, if_neg (by decide)]
    exact idle st
  · rw [stopEffects_runner (effectRunners_bounds.1 low).1 (effectRunners_bounds.1 low).2] at found
    cases found
  · cases m
  · cases waits

theorem zeroKeyParts_aside (s : State) : s.aside (zeroKeyParts s) := by
  unfold zeroKeyParts
  exact .of_blocks rfl rfl rfl ⟨rfl, rfl⟩ ⟨rfl, rfl⟩ rfl

theorem State.Arbitrated.eeAllOff (h : s.Arbitrated p pipes calls) (wired : pipes → p.Wired) :
    (eeAllOff s).Arbitrated p pipes calls :=
  (h.clearAllGroups wired).stopEffects.aside (zeroKeyParts_aside _)

/-! ### The end of a holder (R93 to R95) -/

/-- R94: a saved context that is taken back. -/
theorem Profile.plays.takenBack {c : Context} (h : p.plays c) (now : Nat) : p.plays (c.takenBack now) := by
  unfold Context.takenBack
  split
  · next left => exact .goes rfl (h.resumed (by rintro e; rw [e] at left; cases left)) h.held
  · refine ⟨h.going, fun waits => h.resumed ?_, h.held⟩
    rintro e
    exact waits (by show c.waiting.mapTimer _ = _; rw [e]; rfl)

theorem Profile.plays.saved {c : Context} (h : p.plays c) (now : Nat) : p.plays (c.saved now) := by
  refine ⟨h.going, fun waits => h.resumed ?_, h.held⟩
  rintro e
  exact waits (by show c.waiting.mapTimer _ = _; rw [e]; rfl)

theorem Profile.plays.wakes {c : Context} (h : p.plays c) (waits : c.waiting ≠ .running) : p.plays c.resumed :=
  .goes rfl (h.resumed waits) h.held

theorem State.Arbitrated.resumeHolder (h : s.Arbitrated p pipes calls) (g : Nat) {c : Context} {rest : List Context}
    (stack : pipes → ∀ c' ∈ c :: rest, p.plays c') : (resumeHolder g c rest s).2.Arbitrated p pipes calls ∧
      (pipes → p.plays (resumeHolder g c rest s).1) := by
  refine ⟨State.Arbitrated.holds ?_ fun asked => (stack asked c List.mem_cons_self).held,
    fun asked => (stack asked c List.mem_cons_self).takenBack _⟩
  exact h.setGroup g (fun asked c' m => stack asked c' (List.mem_cons_of_mem _ m)) (h.pends g)

/-- R95: the pending effect that is found waits on its group. -/
theorem State.freePending_pends {s : State} {g e : Nat} (found : s.freePending = some (g, e)) :
    (s.group g).pending = some e := by
  have kept : ∀ (l : List Nat) (best : Option (Nat × Nat)), (∀ g e, best = some (g, e) → (s.group g).pending = some e) →
      ∀ g e, l.foldl (fun best g =>
        match (s.group g).holder, (s.group g).pending with
        | none, some e =>
          match best with
          | none => some (g, e)
          | some (g', e') => if s.priority e' < s.priority e then some (g, e) else some (g', e')
        | _, _ => best) best = some (g, e) → (s.group g).pending = some e := by
    intro l
    induction l with
    | nil => exact fun _ good => good
    | cons g' rest ih =>
      intro best good
      refine ih _ fun g e is => ?_
      dsimp only at is
      split at is
      · next waits =>
        split at is
        · cases is; exact waits
        · split at is
          · cases is; exact waits
          · cases is; exact good _ _ rfl
      · exact good g e is
  exact kept _ none (fun _ _ e => by cases e) g e found

theorem State.Arbitrated.unpended (h : s.Arbitrated p pipes calls) (g : Nat) :
    (s.setGroup g { s.group g with pending := none }).Arbitrated p pipes calls :=
  h.setGroup g (h.stack g) fun _ _ e => by cases e

/-- R93, R95: the next work of a runner asks for no PIPE output. -/
theorem State.Arbitrated.nextWork (h : s.Arbitrated p pipes calls) (voiced : pipes → p.Voiced) (g : Nat)
    {x : Context × State} (found : nextWork g s = some x) : x.2.Arbitrated p pipes calls ∧ (pipes → p.plays x.1) := by
  have starts : ∀ {t : State} {g e}, t.Arbitrated p pipes calls → (t.group g).pending = some e →
      (Machine.becomeHolder e (t.setGroup g { t.group g with pending := none })).2.Arbitrated p pipes calls ∧
        (pipes → p.plays (Machine.becomeHolder e (t.setGroup g { t.group g with pending := none })).1) := fun {t g e} k waits =>
    ⟨(k.unpended g).becomeHolder e, (k.unpended g).fresh voiced fun asked => k.pends g asked e waits⟩
  have resumes : ∀ {c rest}, (s.group g).stack = c :: rest → (Machine.resumeHolder g c rest s).2.Arbitrated p pipes calls ∧
      (pipes → p.plays (Machine.resumeHolder g c rest s).1) := fun stack =>
    h.resumeHolder g fun asked c m => h.stack g asked c (stack ▸ m)
  unfold Machine.nextWork at found
  dsimp only at found
  split at found
  · next waits _ => cases found; exact starts h waits
  · next waits stack =>
    split at found
    · cases found; exact starts h waits
    · cases found; exact resumes stack
  · next stack => cases found; exact resumes stack
  · obtain ⟨⟨g', e⟩, free, rfl⟩ := Option.map_eq_some_iff.1 found
    exact starts (h.setGroup g (h.stack g) (h.pends g)) (State.freePending_pends free)

theorem State.Arbitrated.endHolder (h : s.Arbitrated p pipes calls) (voiced : pipes → p.Voiced) {r : Nat}
    (low : r ∈ effectRunners) {c : Context} (held : pipes → ∀ o ∈ c.held, p.acts o) :
    (endHolder r c s).2.Arbitrated p pipes calls ∧ ∀ c', (endHolder r c s).1 = some c' → pipes → p.plays c' := by
  have freed := (h.releases held).setRunner low (v := none) fun _ _ e => by cases e
  unfold Machine.endHolder
  dsimp only
  split
  · next found =>
    obtain ⟨kept, plays⟩ := freed.nextWork voiced _ found
    exact ⟨kept, fun c' is => by cases is; exact plays⟩
  · exact ⟨freed.setGroup _ (freed.stack _) (freed.pends _), fun c' is => by cases is⟩

theorem State.Arbitrated.runOn (voiced : pipes → p.Voiced) {r : Nat} (low : r ∈ effectRunners) (n : Nat) :
    ∀ {s : State} {c : Context}, s.Arbitrated p pipes calls → c.waiting = .running → (pipes → p.plays c) →
    (runOn n r c s).Arbitrated p pipes calls := by
  have takes : ∀ {s : State} {c : Context}, s.Arbitrated p pipes calls → (pipes → p.plays c) →
      (s.setRunner r (some c)).Arbitrated p pipes calls := fun h plays =>
    h.setRunner low fun asked c' is => by cases is; exact plays asked
  induction n with
  | zero => exact fun h _ plays => takes h plays
  | succ n ih =>
    intro s c h running plays
    obtain ⟨passed, after⟩ := (takes h plays).runPass r running plays
    unfold Machine.runOn
    split
    · next c' s' e =>
      rw [e] at passed after
      obtain ⟨ended, next⟩ := passed.endHolder voiced low fun asked => (after asked).held
      split
      · next e2 => rw [e2] at ended; exact ended
      · next c'' s'' e2 =>
        rw [e2] at ended next
        split
        · next due => exact ih ended due (next c'' rfl)
        · exact takes ended (next c'' rfl)
    · next e =>
      rw [e] at passed after
      exact takes passed after

theorem State.Arbitrated.runEffect (h : s.Arbitrated p pipes calls) (voiced : pipes → p.Voiced) {r : Nat}
    (low : r ∈ effectRunners) {c : Context} (plays : pipes → p.plays c) : (runEffect r c s).Arbitrated p pipes calls := by
  unfold Machine.runEffect
  split
  · next running => exact State.Arbitrated.runOn voiced low _ h running plays
  · exact h.setRunner low fun asked c' is => by cases is; exact plays asked

theorem State.Arbitrated.holderEnds (h : s.Arbitrated p pipes calls) (voiced : pipes → p.Voiced) {r : Nat}
    (low : r ∈ effectRunners) {c : Context} (plays : pipes → p.plays c) : (holderEnds r c s).Arbitrated p pipes calls := by
  obtain ⟨ended, next⟩ := h.endHolder voiced low fun asked => (plays asked).held
  unfold Machine.holderEnds
  split
  · next e => rw [e] at ended; exact ended
  · next e => rw [e] at ended next; exact ended.runEffect voiced low (next _ rfl)

/-! ### Triggers (R84 to R97) -/

theorem State.Arbitrated.startEffect (h : s.Arbitrated p pipes calls) (voiced : pipes → p.Voiced) {e r : Nat}
    (low : r ∈ effectRunners) (exists_ : pipes → s.effect e ≠ none) : (startEffect e r s).Arbitrated p pipes calls :=
  (h.becomeHolder e).runEffect voiced low (h.fresh voiced exists_)

theorem State.Arbitrated.makePending (h : s.Arbitrated p pipes calls) {e : Nat} (exists_ : pipes → s.effect e ≠ none) :
    (makePending e s).Arbitrated p pipes calls := by
  have waits := h.setGroup (s.groupOf e) (v := { s.group (s.groupOf e) with pending := some e }) (h.stack _)
    fun asked e' is => by cases is; exact exists_ asked
  unfold Machine.makePending
  dsimp only
  split
  · exact waits
  · split
    · exact waits
    · exact h

theorem State.effect_congr {s t : State} (prof : t.prof = s.prof) (e : Nat) : t.effect e = s.effect e := by
  unfold State.effect
  rw [prof]

/-- R88, R91, R97: an effect that starts once its group is cleared. -/
theorem State.Arbitrated.clearedStart (h : s.Arbitrated p pipes calls) (wired : pipes → p.Wired) (voiced : pipes → p.Voiced)
    {e r : Nat} (low : r ∈ effectRunners) (exists_ : pipes → s.effect e ≠ none) (g : Nat) :
    (Machine.startEffect e r (Machine.clearGroup g s)).Arbitrated p pipes calls := by
  refine (h.clearGroup wired g).startEffect voiced low fun asked => ?_
  rw [State.effect_congr (clearGroup_alike g s).2.prof]
  exact exists_ asked

/-- R91, R94: the context of a suspended holder goes onto its group's stack. -/
theorem State.Arbitrated.suspend (h : s.Arbitrated p pipes calls) (g : Nat) {c : Context} (plays : pipes → p.plays c) :
    (s.setGroup g { s.group g with stack := c.saved s.now :: (s.group g).stack }).Arbitrated p pipes calls := by
  refine h.setGroup g (fun asked c' m => ?_) (h.pends g)
  rcases List.mem_cons.1 m with rfl | m
  · exact (plays asked).saved _
  · exact h.stack g asked c' m

theorem State.Arbitrated.preempt (h : s.Arbitrated p pipes calls) (wired : pipes → p.Wired) (voiced : pipes → p.Voiced)
    {e r : Nat} (low : r ∈ effectRunners) (exists_ : pipes → s.effect e ≠ none) {c : Context} (plays : pipes → p.plays c) :
    (preempt e r c s).Arbitrated p pipes calls := by
  unfold Machine.preempt
  dsimp only
  split
  · exact h.aside (reportFault_aside _ _ _ _)
  · exact (h.suspend (s.groupOf e) plays).clearedStart wired voiced low exists_ _

theorem State.Arbitrated.triggerInReady (h : s.Arbitrated p pipes calls) (wired : pipes → p.Wired)
    (voiced : pipes → p.Voiced) {e : Nat} (exists_ : pipes → s.effect e ≠ none) :
    (triggerInReady e s).Arbitrated p pipes calls := by
  unfold Machine.triggerInReady
  dsimp only
  split
  · exact h
  · split
    · split
      · next found => exact h.startEffect voiced (List.mem_of_find?_eq_some found) exists_
      · exact h.makePending exists_
    · split
      · exact h
      · next r found =>
        have low : r ∈ effectRunners := List.mem_of_find?_eq_some found
        split
        · exact h
        · next c on =>
          split
          · split
            · exact h.clearedStart wired voiced low exists_ _
            · exact h
          · split
            · exact h.preempt wired voiced low exists_ (h.plays low on)
            · exact h.makePending exists_

theorem State.Arbitrated.trigger (h : s.Arbitrated p pipes calls) (wired : pipes → p.Wired) (voiced : pipes → p.Voiced)
    {e : Nat} (exists_ : pipes → s.effect e ≠ none) : (Machine.trigger e s).Arbitrated p pipes calls := by
  unfold Machine.trigger
  split
  · have rested := restartRest_aside s
    refine (h.aside rested).triggerInReady wired voiced fun asked => ?_
    rw [State.effect_congr rested.prof]
    exact exists_ asked
  · exact h

theorem State.Arbitrated.levelRelease (h : s.Arbitrated p pipes calls) (voiced : pipes → p.Voiced) (e : Nat) :
    (levelRelease e s).Arbitrated p pipes calls := by
  unfold Machine.levelRelease
  dsimp only
  split
  · split
    · exact h
    · next r found =>
      have low : r ∈ effectRunners := List.mem_of_find?_eq_some found
      split
      · exact h
      · next c on =>
        split
        · split
          · next off offEntry =>
            refine h.runEffect voiced low fun asked => .goes rfl ?_ (h.plays low on asked).held
            obtain ⟨x, effect, entry⟩ := Option.bind_eq_some_iff.1 offEntry
            unfold State.effect at effect
            rw [h.prof] at effect
            exact (voiced asked).effects x (List.mem_of_getElem? effect) off (.inr entry)
          · exact h.holderEnds voiced low (h.plays low on)
        · exact h
  · split
    · exact h.unpended _
    · exact h.setGroup _ (fun asked c m => h.stack _ asked c (List.mem_filter.1 m).1) (h.pends _)

theorem State.Arbitrated.countMoved (h : s.Arbitrated p pipes calls) (wired : pipes → p.Wired) (voiced : pipes → p.Voiced)
    (e before : Nat) (rise : Bool) : (countMoved e before rise s).Arbitrated p pipes calls := by
  have triggered : ∀ {mode}, s.effectMode e = some mode → (Machine.trigger e s).Arbitrated p pipes calls := fun known =>
    h.trigger wired voiced fun _ none => by
      unfold State.effectMode at known
      rw [none] at known
      cases known
  unfold Machine.countMoved
  split
  · next known =>
    split
    · exact triggered known
    · exact h
  · next known =>
    dsimp only
    split
    · exact triggered known
    · split
      · exact h.levelRelease voiced e
      · exact h
  · exact h

theorem setTrigger_aside (e : Nat) (v : Trigger) (s : State) : s.aside (s.setTrigger e v) :=
  .of_blocks rfl rfl rfl ⟨rfl, rfl⟩ ⟨rfl, rfl⟩ rfl

theorem State.Arbitrated.studDelta (h : s.Arbitrated p pipes calls) (wired : pipes → p.Wired) (voiced : pipes → p.Voiced)
    (e : Nat) (up : Bool) : (studDelta e up s).Arbitrated p pipes calls :=
  (h.aside (setTrigger_aside _ _ _)).countMoved wired voiced _ _ _

theorem State.Arbitrated.cueEdge (h : s.Arbitrated p pipes calls) (wired : pipes → p.Wired) (voiced : pipes → p.Voiced)
    (e : Nat) (level : Bool) : (cueEdge e level s).Arbitrated p pipes calls := by
  unfold Machine.cueEdge
  split
  · next known =>
    split
    · refine h.trigger wired voiced fun _ none => ?_
      unfold State.effectMode at known
      rw [none] at known
      cases known
    · exact h
  · exact (h.aside (setTrigger_aside _ _ _)).countMoved wired voiced _ _ _
  · exact h

theorem State.Arbitrated.actOnEffects (h : s.Arbitrated p pipes calls) (wired : pipes → p.Wired) (voiced : pipes → p.Voiced)
    (l : List (Nat × Nat × Bool)) : (actOnEffects l s).Arbitrated p pipes calls :=
  foldl_keeps (P := State.Arbitrated p pipes calls) l (fun _ _ _ k => k.countMoved wired voiced _ _ _) h

end

end Sys2Proof.Machine
end


section
/-! TSU and DT under the laws of the pipes (03, 07): TSU asks for its own outputs alone, and a demand count that leaves or
reaches 0 is answered at once. -/

namespace Sys2Proof.Machine

/-! ### TSU -/

section
variable {p : Profile} {pipes : Prop} {calls : Nat → Prop} {s : State}

theorem setTrem_aside (g : Nat) (v : Trem) (s : State) : s.aside (s.setTrem g v) :=
  .of_blocks rfl rfl rfl ⟨rfl, rfl⟩ ⟨rfl, rfl⟩ rfl

theorem State.Arbitrated.tremGroup (h : s.Arbitrated p pipes calls) (wired : pipes → p.Wired) {g : Nat} {x : TremGroup}
    (found : s.tremGroup g = some x) : pipes → p.acts x.output := fun asked => by
  unfold State.tremGroup at found
  rw [h.prof] at found
  exact (wired asked).groups x (List.mem_of_getElem? found)

theorem State.Arbitrated.phase0At (h : s.Arbitrated p pipes calls) (wired : pipes → p.Wired) (t g : Nat) :
    (phase0At t g s).Arbitrated p pipes calls := by
  unfold Machine.phase0At
  split
  · exact h
  · next x found =>
    have held := (h.aside (setTrem_aside g { s.trem g with
      phaseW := some (t + ms x.width), phase0 := some (t + ms x.period) } s)).paHold (o := x.output)
      fun asked _ => h.tremGroup wired found asked
    dsimp only
    split
    · exact held.aside (handOver_reach _ _).aside
    · exact held

theorem State.Arbitrated.startGroup (h : s.Arbitrated p pipes calls) (wired : pipes → p.Wired) (g : Nat) :
    (startGroup g s).Arbitrated p pipes calls :=
  (h.aside (setTrem_aside _ _ _)).phase0At wired _ _

theorem State.Arbitrated.stopGroup (h : s.Arbitrated p pipes calls) (wired : pipes → p.Wired) (g : Nat) :
    (stopGroup g s).Arbitrated p pipes calls := by
  have stopped := h.aside (setTrem_aside g (stoppedTrem (s.trem g)) s)
  unfold Machine.stopGroup
  dsimp only
  split
  · exact stopped
  · next found => exact stopped.paRelease fun asked _ => h.tremGroup wired found asked

theorem State.Arbitrated.groupDelta (h : s.Arbitrated p pipes calls) (wired : pipes → p.Wired) (g : Nat) (up : Bool) :
    (groupDelta g up s).Arbitrated p pipes calls := by
  have counted : ∀ n, (s.setTrem g { s.trem g with onCount := n }).Arbitrated p pipes calls := fun n =>
    h.aside (setTrem_aside _ _ _)
  unfold Machine.groupDelta
  dsimp only
  split
  · split
    · exact (counted _).startGroup wired g
    · exact counted _
  · split
    · exact (counted _).stopGroup wired g
    · exact counted _

theorem State.Arbitrated.offerBeat (h : s.Arbitrated p pipes calls) (wired : pipes → p.Wired) (a : Station) (tag : Fin 16) :
    (offerBeat a tag s).Arbitrated p pipes calls := by
  unfold Machine.offerBeat
  refine foldl_keeps (P := State.Arbitrated p pipes calls) _ (fun g _ v k => ?_) h
  unfold takeBeat
  split
  · exact k
  · split
    · exact (k.aside (setTrem_aside _ _ _)).phase0At wired _ _
    · exact k

theorem State.Arbitrated.phaseWAt (h : s.Arbitrated p pipes calls) (wired : pipes → p.Wired) (g : Nat) :
    (phaseWAt g s).Arbitrated p pipes calls := by
  unfold Machine.phaseWAt
  split
  · exact h
  · next found => exact (h.aside (setTrem_aside _ _ _)).paRelease fun asked _ => h.tremGroup wired found asked

/-- A shutter set moves within its stages. -/
theorem State.Arbitrated.setShutter (h : s.Arbitrated p pipes calls) (x : Nat) {v : Shutter}
    (bounds : pipes → ∀ cfg, s.shutterSet x = some cfg → v.stage ≤ cfg.stages ∧ v.target ≤ cfg.stages) :
    (s.setShutter x v).Arbitrated p pipes calls := by
  refine ⟨h.prof, h.arbiter.of_pa rfl rfl, fun asked => ?_⟩
  obtain ⟨held, bars, shutters, idle, runners, suspended, pending⟩ := h.laws asked
  refine ⟨held.of_pa rfl rfl, bars, fun x' cfg set => ?_, idle, runners, suspended, pending⟩
  rw [State.shutter_setShutter]
  split
  · next own => exact bounds asked cfg (own ▸ set)
  · exact shutters x' cfg set

theorem State.Arbitrated.bounds (h : s.Arbitrated p pipes calls) {x : Nat} {cfg : ShutterSet} (set : s.shutterSet x = some cfg) :
    pipes → (s.shutter x).stage ≤ cfg.stages ∧ (s.shutter x).target ≤ cfg.stages :=
  fun asked => (h.laws asked).shutters x cfg set

/-- A shutter set that keeps its stage and its target. -/
theorem setShutter_aside {x : Nat} {v : Shutter} {s : State} (stage : v.stage = (s.shutter x).stage)
    (target : v.target = (s.shutter x).target) : s.aside (s.setShutter x v) where
  pa := rfl
  prof := rfl
  state := rfl
  pipe := rfl
  sets := rfl
  groups := rfl
  runners _ _ := rfl
  idle i := i
  shutters x' := by
    rw [State.shutter_setShutter]
    split
    · next own => subst own; exact ⟨stage, target⟩
    · exact ⟨rfl, rfl⟩

/-- R129: a step asks for an output of the set. -/
theorem State.Arbitrated.shutterStep (h : s.Arbitrated p pipes calls) (wired : pipes → p.Wired) (x : Nat) :
    (shutterStep x s).Arbitrated p pipes calls := by
  unfold Machine.shutterStep
  split
  · exact h
  · next cfg set =>
    have uses : ∀ o, cfg.first ≤ o → o < cfg.first + cfg.stages → pipes → p.acts o := fun o low high asked => by
      have mem : cfg ∈ p.sets := by
        unfold State.shutterSet at set
        rw [h.prof] at set
        exact List.mem_of_getElem? set
      exact (wired asked).sets cfg mem o (by simpa [ShutterSet.uses] using ⟨low, high⟩)
    have within := h.bounds set
    have stepped : ∀ stage timer, (pipes → stage ≤ cfg.stages) →
        (s.setShutter x { s.shutter x with stage := stage, stepTimer := timer }).Arbitrated p pipes calls :=
      fun stage timer low => h.setShutter x fun asked cfg' set' => by
        obtain rfl : cfg = cfg' := Option.some.inj (set.symm.trans set')
        exact ⟨low asked, (within asked).2⟩
    dsimp only
    split
    · next opens =>
      refine (stepped _ _ fun asked => ?_).paHold fun asked _ => uses _ ?_ ?_ asked
      · have := (within asked).2
        omega
      · omega
      · have := (within asked).2
        omega
    · split
      · next closes =>
        refine (stepped _ _ fun asked => ?_).paRelease fun asked _ => uses _ ?_ ?_ asked
        · have := (within asked).1
          omega
        · omega
        · have := (within asked).1
          omega
      · exact h

theorem stageOf_le {q n : Nat} (low : q ≤ 127) : stageOf q n ≤ n := by
  have most := Nat.mul_le_mul_right n low
  unfold stageOf
  omega

theorem State.Arbitrated.judgePosition (h : s.Arbitrated p pipes calls) (wired : pipes → p.Wired) {x q : Nat}
    {cfg : ShutterSet} (set : s.shutterSet x = some cfg) (low : q ≤ 127) :
    (judgePosition x q cfg s).Arbitrated p pipes calls := by
  have targeted := h.setShutter x (v := { s.shutter x with pref := q, target := stageOf q cfg.stages }) fun asked cfg' set' => by
    obtain rfl : cfg = cfg' := Option.some.inj (set.symm.trans set')
    exact ⟨(h.bounds set asked).1, stageOf_le low⟩
  unfold Machine.judgePosition
  dsimp only
  split
  · split
    · exact targeted.shutterStep wired x
    · exact targeted
  · exact h

theorem State.Arbitrated.takePairs (h : s.Arbitrated p pipes calls) (wired : pipes → p.Wired) (c : Nat)
    (pairs : List (Fin 8 × Byte)) : (takePairs c pairs s).Arbitrated p pipes calls := by
  unfold Machine.takePairs
  refine foldl_keeps (P := State.Arbitrated p pipes calls) _ (fun pair _ v k => ?_) h
  refine foldl_keeps (P := State.Arbitrated p pipes calls) _ (fun x _ v k => ?_) k
  unfold takePair
  split
  · exact k
  · next cfg set =>
    dsimp only
    split
    · refine (k.aside (setShutter_aside ?_ ?_)).judgePosition wired set (Nat.min_le_right _ _) <;> rfl
    · exact k

theorem State.Arbitrated.releaseShoes (h : s.Arbitrated p pipes calls) (c : Nat) :
    (releaseShoes c s).Arbitrated p pipes calls := by
  unfold Machine.releaseShoes
  refine foldl_keeps (P := State.Arbitrated p pipes calls) _ (fun x _ v k => ?_) h
  unfold releaseOwner
  dsimp only
  split
  · exact k.aside (setShutter_aside rfl rfl)
  · exact k

theorem State.Arbitrated.tsuEnter (h : s.Arbitrated p pipes calls) (wired : pipes → p.Wired) :
    (tsuEnter s).Arbitrated p pipes calls := by
  unfold Machine.tsuEnter
  refine foldl_keeps (P := State.Arbitrated p pipes calls) _ (fun x _ v k => k.shutterStep wired x) ?_
  refine foldl_keeps (P := State.Arbitrated p pipes calls) _ (fun g _ v k => ?_) h
  unfold enterGroup
  split
  · exact k.startGroup wired g
  · exact k

theorem State.Arbitrated.tsuExit (h : s.Arbitrated p pipes calls) : (tsuExit s).Arbitrated p pipes calls := by
  unfold Machine.tsuExit
  dsimp only
  refine foldl_keeps (P := State.Arbitrated p pipes calls) _ (fun x _ v k => k.setShutter x fun asked cfg set => ?_) ?_
  · exact ⟨Nat.zero_le _, (k.bounds set asked).2⟩
  · exact foldl_keeps (P := State.Arbitrated p pipes calls) _ (fun g _ v k => k.aside (setTrem_aside _ _ _)) h

theorem State.Arbitrated.stepTimerEnds (h : s.Arbitrated p pipes calls) (wired : pipes → p.Wired) (x : Nat) :
    (stepTimerEnds x s).Arbitrated p pipes calls := by
  unfold Machine.stepTimerEnds
  split
  · exact h.shutterStep wired x
  · exact h.aside (setShutter_aside rfl rfl)

/-! ### OPEN, and a RELEASE of a PIPE output -/

theorem State.Arbitrated.paOpen (h : s.Arbitrated p pipes calls) (ready : s.isReady = true) {o : Nat}
    (pipe : pipes → (p.windowOf o).map (·.kind) = some .pipe) :
    (paOpen o s).Arbitrated p pipes fun o' => calls o' ∨ o' = o :=
  h.of_reach (paOpen_reach o s) (h.arbiter.paOpen o) fun asked =>
    (h.laws asked).held.opened h.arbiter ready (by unfold State.outputIs; rw [h.prof]; exact pipe asked)

theorem State.Arbitrated.paClose (h : s.Arbitrated p pipes calls) (ready : s.isReady = true) (o : Nat) :
    (Machine.paRelease o s).Arbitrated p pipes fun o' => calls o' ∧ o' ≠ o :=
  h.of_reach (paRelease_reach o s) (h.arbiter.paRelease o) fun asked => (h.laws asked).held.released h.arbiter ready o

/-- R51: a list of PIPE outputs is opened. -/
theorem State.Arbitrated.opens {l : List Nat} (pipe : pipes → ∀ o ∈ l, (p.windowOf o).map (·.kind) = some .pipe) :
    ∀ {s : State} {calls : Nat → Prop}, s.Arbitrated p pipes calls → s.isReady = true →
    (Machine.forOutputs Machine.paOpen l s).Arbitrated p pipes fun o => calls o ∨ o ∈ l := by
  induction l with
  | nil => exact fun h _ => h.congr fun o _ => by simp
  | cons o rest ih =>
    intro s calls h ready
    have opened := h.paOpen ready fun asked => pipe asked o List.mem_cons_self
    have onward := ih (fun asked o' m => pipe asked o' (List.mem_cons_of_mem _ m)) opened
      (by unfold State.isReady at ready ⊢; rw [paOpen_reach o s]; exact ready)
    exact onward.congr fun o' _ => by rw [List.mem_cons, or_assoc]

/-- DT moves on its own, and its reiteration sets hold BAR outputs. -/
theorem State.Arbitrated.recounted (h : s.Arbitrated p pipes calls) (dt : Dt)
    (bars : pipes → ∀ i, ∀ o ∈ dt.sets.get i, (p.windowOf o).map (·.kind) = some .bar) :
    State.Arbitrated p pipes calls { s with dt := dt } := by
  refine ⟨h.prof, h.arbiter.of_pa rfl rfl, fun asked => ?_⟩
  obtain ⟨held, -, shutters, idle, runners, suspended, pending⟩ := h.laws asked
  refine ⟨held.of_pa rfl rfl, fun i o m => ?_, shutters, idle, runners, suspended, pending⟩
  have bar := bars asked i o m
  rw [← h.prof] at bar
  exact bar

theorem State.Arbitrated.setBars (h : s.Arbitrated p pipes calls) :
    pipes → ∀ i, ∀ o ∈ s.dt.sets.get i, (p.windowOf o).map (·.kind) = some .bar := fun asked i o m => by
  rw [← h.prof]
  exact (h.laws asked).bars i o m

end

/-! ### The calls of the demand -/

/-- R44, R45, R51: the PIPE outputs that the demand calls in READY. -/
def State.demanded (s : State) (o : Nat) : Prop := s.ch.state = .ready ∧ 0 < s.dt.pipe.get o

/-- The laws of O54, PA holding the PIPE outputs that the demand calls. -/
def State.Answering (p : Profile) (pipes : Prop) (s : State) : Prop := s.Arbitrated p pipes s.demanded

section
variable {p : Profile} {pipes : Prop} {s t : State}

theorem State.demanded_congr (state : t.ch.state = s.ch.state) (pipe : t.dt.pipe = s.dt.pipe) : t.demanded = s.demanded := by
  unfold State.demanded
  rw [state, pipe]

/-- What moves neither the chamber state nor a demand count keeps the laws if it keeps them whatever is called. -/
theorem State.Answering.keeps (h : s.Answering p pipes) (state : t.ch.state = s.ch.state) (pipe : t.dt.pipe = s.dt.pipe)
    (k : ∀ calls, s.Arbitrated p pipes calls → t.Arbitrated p pipes calls) : t.Answering p pipes := by
  unfold State.Answering
  rw [State.demanded_congr state pipe]
  exact k _ h

theorem State.Answering.aside (h : s.Answering p pipes) (k : s.aside t) : t.Answering p pipes :=
  h.keeps k.state k.pipe fun _ h => h.aside k

theorem State.Answering.tsu (h : s.Answering p pipes) (reach : ReachTsu s t)
    (k : ∀ calls, s.Arbitrated p pipes calls → t.Arbitrated p pipes calls) : t.Answering p pipes :=
  h.keeps (by rw [reach]) (by rw [reach]) k

theorem State.Answering.trig (h : s.Answering p pipes) (reach : ReachTrig s t)
    (k : ∀ calls, s.Arbitrated p pipes calls → t.Arbitrated p pipes calls) : t.Answering p pipes :=
  h.keeps (by rw [reach]) (by rw [reach]) k

/-! ### One delta (R42 to R48) -/

/-- R15, R44, R46: a delta that rises names an output of the kind that it counts on. -/
def Delta.voices (p : Profile) : Delta → Prop
  | .count .pipe _ o true => (p.windowOf o).map (·.kind) = some .pipe
  | .count .single _ o true | .count .reiterate _ o true => (p.windowOf o).map (·.kind) = some .bar
  | .count _ _ _ false | .effect _ _ | .group _ _ => True

/-- Output `o`'s demand count is `n`. -/
def State.withDemand (o n : Nat) (s : State) : State := { s with dt := { s.dt with pipe := s.dt.pipe.set o n } }

theorem State.withDemand_demanded (o n : Nat) (s : State) (o' : Nat) :
    (s.withDemand o n).demanded o' ↔ s.ch.state = .ready ∧ 0 < if o' = o then n else s.dt.pipe.get o' := by
  unfold State.demanded State.withDemand
  rw [Table.get_set]

theorem ReachPa.demanded (h : ReachPa s t) : t.demanded = s.demanded := State.demanded_congr (by rw [h]) (by rw [h])

theorem takeDelta_demand (withhold : Bool) (s : State) (log : AppLog) (w o : Nat) :
    (takeDelta s.isReady withhold (s, log) (.count .pipe w o true)).1 =
      (if s.isReady = true ∧ s.dt.pipe.get o = 0 then paOpen o (s.withDemand o 1)
        else s.withDemand o (s.dt.pipe.get o + 1)) ∧
    (takeDelta s.isReady withhold (s, log) (.count .pipe w o false)).1 =
      if s.isReady = true ∧ s.dt.pipe.get o = 1 then paRelease o (s.withDemand o 0)
        else s.withDemand o (s.dt.pipe.get o - 1) := by
  obtain ⟨rises, falls⟩ := takeDelta_pipe s.isReady withhold s log w o
  exact ⟨congrArg Prod.fst rises, congrArg Prod.fst falls⟩

/-- R44, R45: a demand count moves, and PA is asked. -/
theorem State.Answering.demand (h : s.Answering p pipes) (withhold : Bool) (log : AppLog) (w o : Nat) (up : Bool)
    (voices : pipes → (Delta.count .pipe w o up).voices p) :
    (takeDelta s.isReady withhold (s, log) (.count .pipe w o up)).1.Answering p pipes := by
  obtain ⟨rises, falls⟩ := takeDelta_demand withhold s log w o
  have counted : ∀ n, (s.withDemand o n).Arbitrated p pipes s.demanded := fun n => State.Arbitrated.recounted h _ h.setBars
  have stands : ∀ n, (s.ch.state = .ready → (0 < n ↔ 0 < s.dt.pipe.get o)) → (s.withDemand o n).Answering p pipes :=
    fun n same => (counted n).congr fun o' _ => by
      rw [State.withDemand_demanded]
      refine and_congr_right fun ready => ?_
      split
      · next own => rw [own]; exact (same ready).symm
      · rfl
  cases up
  · rw [falls]
    split
    · next leaves =>
      refine ((counted 0).paClose leaves.1 o).congr fun o' _ => ?_
      rw [(paRelease_reach o _).demanded, State.withDemand_demanded]
      unfold State.demanded
      by_cases own : o' = o <;> simp [own]
    · next stays =>
      refine stands _ fun ready => ?_
      rw [State.isReady_iff] at stays
      have : s.dt.pipe.get o ≠ 1 := fun one => stays ⟨ready, one⟩
      omega
  · rw [rises]
    split
    · next comes =>
      refine ((counted 1).paOpen comes.1 voices).congr fun o' _ => ?_
      rw [(paOpen_reach o _).demanded, State.withDemand_demanded]
      unfold State.demanded
      by_cases own : o' = o <;> simp [own, State.isReady_iff.1 comes.1]
    · next stays =>
      refine stands _ fun ready => ?_
      rw [State.isReady_iff] at stays
      have : s.dt.pipe.get o ≠ 0 := fun none => stays ⟨ready, none⟩
      omega

/-- R48: what a delta leaves in a reiteration set was there, or is its own output. -/
theorem mem_reiterating {o o' n : Nat} {up : Bool} {set : List Nat}
    (m : o' ∈ if up then insertAscending o set else if n = 1 then set.filter (· != o) else set) :
    o' ∈ set ∨ up = true ∧ o' = o := by
  split at m
  · next rises => exact (mem_insertAscending.1 m).symm.imp_right fun own => ⟨rises, own⟩
  · split at m
    · exact .inl (List.mem_filter.1 m).1
    · exact .inl m

theorem State.Answering.takeDelta (h : s.Answering p pipes) (wired : pipes → p.Wired) (withhold : Bool) (log : AppLog)
    {d : Delta} (voices : pipes → d.voices p) : (takeDelta s.isReady withhold (s, log) d).1.Answering p pipes := by
  match d with
  | .count .pipe w o up => exact h.demand withhold log w o up voices
  | .count .single w o up => exact State.Arbitrated.recounted h _ h.setBars
  | .count .reiterate w o up =>
    refine State.Arbitrated.recounted h _ fun asked i o' m => ?_
    rw [Table.get_set] at m
    split at m
    · rcases mem_reiterating m with m | ⟨rfl, rfl⟩
      · exact h.setBars asked w o' m
      · exact voices asked
    · exact h.setBars asked i o' m
  | .effect e up =>
    cases withhold
    · exact h.aside (setTrigger_aside _ _ _)
    · exact h
  | .group g up => exact h.tsu (groupDelta_reach g up s) fun _ h => h.groupDelta wired g up

/-- R46: what a delta has struck at the close is a bar. -/
theorem Delta.strikes_bar {d : Delta} {dt : Dt} {o : Nat} (voices : d.voices p) (strikes : d.strikes dt = some o) :
    (p.windowOf o).map (·.kind) = some .bar := by
  unfold Delta.strikes at strikes
  split at strikes
  · cases strikes; exact voices
  · split at strikes
    · cases strikes; exact voices
    · cases strikes
  all_goals cases strikes

/-! ### An application (R13, R42, R46) -/

theorem State.Answering.takenDeltas (h : s.Answering p pipes) (wired : pipes → p.Wired) (withhold : Bool) {l : List Delta}
    (voices : pipes → ∀ d ∈ l, d.voices p) :
    (takenDeltas s.isReady withhold s l).1.Answering p pipes ∧
      (takenDeltas s.isReady withhold s l).1.isReady = s.isReady ∧
      (pipes → ∀ o ∈ (takenDeltas s.isReady withhold s l).2.bars, p.acts o) := by
  induction l using List.reverseRecOn with
  | nil => exact ⟨h, rfl, fun _ o m => by cases m⟩
  | append_singleton l d ih =>
    obtain ⟨taken, ready, bars⟩ := ih fun asked x m => voices asked x (List.mem_append_left _ m)
    have voiced : pipes → d.voices p := fun asked => voices asked d (List.mem_append_right _ (List.mem_singleton_self d))
    have reach := takeDelta_reach s.isReady withhold (Machine.takenDeltas s.isReady withhold s l) d
    have noted := takeDelta_bars s.isReady withhold (Machine.takenDeltas s.isReady withhold s l).1
      (Machine.takenDeltas s.isReady withhold s l).2 d
    rw [takenDeltas_snoc]
    generalize Machine.takenDeltas s.isReady withhold s l = x at *
    refine ⟨?_, ?_, fun asked o m => ?_⟩
    · rw [← ready]
      exact taken.takeDelta wired withhold x.2 voiced
    · have state : (Machine.takeDelta s.isReady withhold x d).1.ch.state = x.1.ch.state := by rw [reach]
      exact (congrArg (fun st => st == ChamberState.ready) state).trans ready
    · rw [show Machine.takeDelta s.isReady withhold x d = Machine.takeDelta s.isReady withhold (x.1, x.2) d from rfl, noted] at m
      split at m
      · next o' strikes =>
        rw [AppLog.bar_bars] at m
        have known := voiced asked
        split at m
        · exact bars asked o m
        · rcases List.mem_append.1 m with m | m
          · exact bars asked o m
          · rw [List.mem_singleton.1 m]
            exact ⟨.bar, by simp, Delta.strikes_bar known strikes⟩
      · exact bars asked o m

theorem State.Answering.application (h : s.Answering p pipes) (wired : pipes → p.Wired) (voiced : pipes → p.Voiced)
    (withhold : Bool) {l : List Delta} (voices : pipes → ∀ d ∈ l, d.voices p) :
    (application withhold l s).Answering p pipes := by
  obtain ⟨taken, -, bars⟩ := h.takenDeltas wired withhold voices
  rw [application_eq]
  generalize Machine.takenDeltas s.isReady withhold s l = x at taken bars
  have struck : pipes → ∀ o ∈ if s.isReady then x.2.bars else [], p.acts o := fun asked o m => by
    split at m
    · exact bars asked o m
    · cases m
  unfold closeApplication
  dsimp only
  generalize (if s.isReady then x.2.bars else []) = closing at struck
  have strikes : ∀ v : State, v.Answering p pipes → (Machine.forOutputs strikeBar closing v).Answering p pipes := fun v k =>
    k.trig (forOutputs_reach strikeBar_reach _ v).ee.trig fun _ k => k.strikes struck
  have acts : ∀ v : State, v.Answering p pipes → (Machine.actOnEffects x.2.effects v).Answering p pipes := fun v k =>
    k.trig (foldl_reach ReachTrig ReachTrig.refl (fun _ _ _ => ReachTrig.trans) _ (fun v _ => countMoved_reach _ _ _ v) _ v)
      fun _ k => k.actOnEffects wired voiced _
  split
  · exact eitherOrder_keeps (P := State.Answering p pipes)
      (fun v n k => k.aside (.of_blocks rfl rfl rfl ⟨rfl, rfl⟩ ⟨rfl, rfl⟩ rfl)) strikes acts taken
  · exact acts _ (strikes _ taken)

end

/-! ### The deltas of RE (R15 to R19) -/

section
variable {p : Profile}

/-- R5, R15: a VOICE entry's deltas count on its window's kind. -/
theorem StopEntry.keyDelta_voices (wired : p.Wired) {e : StopEntry} (entry : e.inRange p) (k : Nat) (up : Bool) :
    ∀ d ∈ e.keyDelta p k up, d.voices p := by
  intro d m
  obtain ⟨-, -, fields⟩ := entry
  unfold StopEntry.keyDelta at m
  split at m
  · next wn offset mode top bottom _ kind =>
    rw [kind] at fields
    obtain ⟨-, -, -, x, found, feeds⟩ := fields
    rw [found] at m
    dsimp only at m
    split at m
    · cases m
    · next o output =>
      rw [List.mem_singleton.1 m]
      have window := wired.windowOf x (List.mem_of_getElem? found) o (resolve_contains output)
      have named : (p.windowOf o).map (·.kind) = some x.kind := by rw [window]; rfl
      cases up with
      | false => cases countKind x.kind mode <;> trivial
      | true =>
        rcases feeds with is | is <;> rw [is] at named ⊢
        · exact named
        · cases mode <;> exact named
  · rw [List.mem_singleton.1 m]
    trivial
  · cases m

theorem mergedDeltas_voices (wired : p.Wired) (voiced : p.Voiced) (on : Table Bool) (d k : Nat) (old new : Touch)
    (before after : Bool) : ∀ x ∈ mergedDeltas p on d k old new before after, x.voices p := by
  intro x m
  rw [mergedDeltas_eq] at m
  obtain ⟨l, ml, mx⟩ := List.mem_flatten.1 m
  obtain ⟨e, me, rfl⟩ := List.mem_map.1 ml
  split at mx
  · unfold StopEntry.changed at mx
    split at mx
    · cases mx
    · exact e.keyDelta_voices wired (voiced.entries e me) k _ x mx
  · cases mx

theorem pizzDeltas_voices (wired : p.Wired) (voiced : p.Voiced) (on : Table Bool) (d k : Nat) :
    ∀ x ∈ pizzDeltas p on d k, x.voices p := by
  intro x m
  obtain ⟨l, ml, mx⟩ := List.mem_flatten.1 m
  obtain ⟨e, me, rfl⟩ := List.mem_map.1 ml
  split at mx
  · exact e.keyDelta_voices wired (voiced.entries e me) k _ x mx
  · cases mx

theorem stopDeltas_voices (wired : p.Wired) (voiced : p.Voiced) (touch : Nat → Nat → Touch) (pizz : Nat → Nat → Bool)
    (n : Nat) (up : Bool) : ∀ x ∈ stopDeltas p touch pizz n up, x.voices p := by
  intro x m
  obtain ⟨l, ml, mx⟩ := List.mem_flatten.1 m
  obtain ⟨e, me, rfl⟩ := List.mem_map.1 ml
  have keyed : ∀ x, x ∈ ((List.range (p.keyCount e.division)).map fun k =>
      if e.holds (touch e.division k) (pizz e.division k) then e.keyDelta p k up else []).flatten → x.voices p := fun x mx => by
    obtain ⟨l, ml, mx⟩ := List.mem_flatten.1 mx
    obtain ⟨k, -, rfl⟩ := List.mem_map.1 ml
    split at mx
    · exact e.keyDelta_voices wired (voiced.entries e me) k _ x mx
    · cases mx
  split at mx
  · split at mx
    · rw [List.mem_singleton.1 mx]
      trivial
    · exact keyed x mx
    · exact keyed x mx
  · cases mx

/-- R19, R55: a TUNE counts up on an output of a PIPE or BAR window. -/
theorem tuneDeltas_voices {old new : Option Nat}
    (holdable : ∀ o, new = some o → (p.windowOf o).map (·.kind) = some .pipe ∨ (p.windowOf o).map (·.kind) = some .bar) :
    ∀ x ∈ tuneDeltas p old new, x.voices p := by
  intro x m
  unfold tuneDeltas at m
  rcases List.mem_append.1 m with m | m
  · cases old with
    | none => cases m
    | some o =>
      rw [Option.map_some, Option.getD_some, tuneDelta_eq] at m
      obtain ⟨kind, -, rfl⟩ := List.mem_map.1 m
      cases kind <;> trivial
  · cases new with
    | none => cases m
    | some o =>
      rw [Option.map_some, Option.getD_some, tuneDelta_eq] at m
      obtain ⟨kind, known, rfl⟩ := List.mem_map.1 m
      have named := holdable o rfl
      rw [Option.mem_toList] at known
      rcases named with pipe | bar
      · obtain rfl : kind = .pipe := by
          have := Profile.tuneKind_pipe.2 (by rw [pipe]; simp)
          exact Option.some.inj (known.symm.trans this)
        exact pipe
      · obtain rfl : kind = .single := Option.some.inj (known.symm.trans (Profile.tuneKind_single.2 bar))
        exact bar

end

end Sys2Proof.Machine
end


section
/-! The chamber under the laws of the pipes (08): an exit from READY empties PA, an entry opens what the demand calls, and
runner 0's scripts run where PA does not hear. -/

namespace Sys2Proof.Machine

section
variable {p : Profile} {pipes : Prop} {calls : Nat → Prop} {s : State}

/-! ### Leaving READY (R77, R99, R149) -/

/-- Outside READY nothing is called. -/
theorem State.demanded_outside (out : s.ch.state ≠ .ready) (o : Nat) : s.demanded o ↔ False :=
  ⟨fun called => out called.1, False.elim⟩

theorem State.Answering.uncalled (h : s.Answering p pipes) (out : s.ch.state ≠ .ready) :
    s.Arbitrated p pipes fun _ => False :=
  State.Arbitrated.congr h fun o _ => s.demanded_outside out o

theorem State.Arbitrated.outside (h : s.Arbitrated p pipes fun _ => False) (out : s.ch.state ≠ .ready) :
    s.Answering p pipes :=
  h.congr fun o _ => (s.demanded_outside out o).symm

theorem State.Answering.idle (h : s.Answering p pipes) (st : s.ch.state = .ready ∨ s.ch.state = .gathering) :
    pipes → s.runner 0 = none := fun asked => (State.Arbitrated.laws h asked).idle st

/-- R104: while runner 0 holds a script the chamber is neither READY nor GATHERING. -/
theorem State.Answering.apart (h : s.Answering p pipes) {c : Context} (found : s.runner 0 = some c) :
    pipes → s.ch.state ≠ .ready ∧ s.ch.state ≠ .gathering := fun asked =>
  ⟨fun st => Option.some_ne_none c (found.symm.trans (h.idle (.inl st) asked)),
    fun st => Option.some_ne_none c (found.symm.trans (h.idle (.inr st) asked))⟩

theorem State.Arbitrated.withChamber (h : s.Arbitrated p pipes calls) (st : ChamberState)
    (idle : st = .ready ∨ st = .gathering → pipes → s.runner 0 = none) : (s.withChamber st).Arbitrated p pipes calls := by
  refine ⟨h.prof, h.arbiter.of_pa rfl rfl, fun asked => ?_⟩
  obtain ⟨held, bars, shutters, -, runners, suspended, pending⟩ := h.laws asked
  exact ⟨held.of_pa rfl rfl, bars, shutters, fun is => idle is asked, runners, suspended, pending⟩

/-- R77: PA empties itself. -/
theorem State.Arbitrated.paExit (h : s.Arbitrated p pipes calls) : (paExit s).Arbitrated p pipes fun _ => False := by
  have cleared := paExit_pa s
  have reach := paExit_reach s
  refine h.of_reach ?_ (.of_cleared cleared) fun _ => .of_cleared cleared
  unfold ReachGrant at reach
  unfold ReachPa
  rw [reach]

theorem unclocked_aside (s : State) : s.aside s.unclocked :=
  .of_blocks rfl rfl rfl ⟨rfl, rfl⟩ ⟨rfl, rfl⟩ rfl

theorem State.Arbitrated.exitNotices (h : s.Arbitrated p pipes calls) (wired : pipes → p.Wired) :
    (exitNotices s).Arbitrated p pipes fun _ => False := by
  have left : (Machine.tsuExit (eeExit (Machine.paExit s))).Arbitrated p pipes fun _ => False :=
    (h.paExit.clearAllGroups wired).stopEffects.tsuExit
  rw [exitNotices_eq]
  exact (left.aside (unclocked_aside _)).aside (driveLamps_aside _ _)

/-- R149: a change to a state other than READY. -/
theorem State.Answering.moveTo (h : s.Answering p pipes) (wired : pipes → p.Wired) {st : ChamberState} (away : st ≠ .ready)
    (idle : st = .gathering → pipes → s.runner 0 = none) : (Machine.moveTo st s).Answering p pipes := by
  have changed := State.Arbitrated.withChamber h st (Or.rec (fun ready => absurd ready away) idle)
  have out : (Machine.moveTo st s).ch.state ≠ .ready := by
    rw [moveTo_ch]
    exact away
  refine State.Arbitrated.outside ?_ out
  unfold Machine.moveTo
  dsimp only
  refine State.Arbitrated.aside ?_ (handPresence_reach _).aside
  split
  · exact changed.exitNotices wired
  · next unready =>
    exact changed.congr fun o _ => s.demanded_outside (fun ready => unready (State.isReady_iff.2 ready)) o

/-! ### Entering READY (R51, R143) -/

/-- R51: of the PIPE outputs those are opened whose count is above 0. -/
theorem State.mem_calledPipes_of_pipe {o : Nat} (pipe : s.outputIs .pipe o) : o ∈ s.calledPipes ↔ 0 < s.dt.pipe.get o := by
  unfold State.calledPipes
  rw [List.mem_filter, decide_eq_true_eq, Profile.mem_outputsOf]
  refine and_iff_right ?_
  obtain ⟨w, found, kind⟩ := Option.map_eq_some_iff.1 pipe
  have holds := List.find?_some found
  exact ⟨w, List.mem_of_find?_eq_some found, beq_iff_eq.2 kind, holds⟩

theorem State.calledPipes_pipe (wired : s.prof.Wired) {o : Nat} (called : o ∈ s.calledPipes) :
    (s.prof.windowOf o).map (·.kind) = some .pipe := by
  obtain ⟨w, m, kind, holds⟩ := Profile.mem_outputsOf.1 (List.mem_filter.1 called).1
  rw [wired.windowOf w m o holds, Option.map_some, beq_iff_eq.1 kind]

theorem startClocks_aside (s : State) : s.aside (startClocks s) := by
  obtain ⟨frame, -⟩ := startClocks_get s.prof.windows.length s
  change startClocks s = { s with dt := { s.dt with clocks := (startClocks s).dt.clocks } } at frame
  rw [frame]
  exact .of_blocks rfl rfl rfl ⟨rfl, rfl⟩ ⟨rfl, rfl⟩ rfl

/-- R51: DT opens what the demand calls. -/
theorem State.Arbitrated.dtEnter (h : s.Arbitrated p pipes fun _ => False) (wired : pipes → p.Wired)
    (ready : s.isReady = true) : (dtEnter s).Answering p pipes := by
  have started := startClocks_aside s
  have pipe : pipes → ∀ o ∈ s.calledPipes, (p.windowOf o).map (·.kind) = some .pipe := fun asked o m => by
    obtain rfl := h.prof
    exact s.calledPipes_pipe (wired asked) m
  have opened := (h.aside started).opens pipe ((congrArg (· == ChamberState.ready) started.state).trans ready)
  have frame := (dtEnter_entered s).frame
  refine opened.congr fun o is => ?_
  rw [State.outputIs_congr (opened.prof.trans h.prof.symm)] at is
  rw [State.demanded_congr (s := s) (by rw [frame]) (by rw [frame]), false_or, State.mem_calledPipes_of_pipe is]
  exact (and_iff_right (State.isReady_iff.1 ready)).symm

/-- R51, R143: once DT and TSU are told, PA holds what the demand calls. -/
theorem State.Arbitrated.entryNotices (h : s.Arbitrated p pipes fun _ => False) (wired : pipes → p.Wired)
    (ready : s.isReady = true) : (entryNotices s).Answering p pipes := by
  have dtFirst : ∀ v : State, v.Arbitrated p pipes (fun _ => False) → v.isReady = true →
      (Machine.tsuEnter (Machine.dtEnter v)).Answering p pipes := fun v k ready =>
    (k.dtEnter wired ready).tsu (tsuEnter_reach _) fun _ k => k.tsuEnter wired
  have tsuFirst : ∀ v : State, v.Arbitrated p pipes (fun _ => False) → v.isReady = true →
      (Machine.dtEnter (Machine.tsuEnter v)).Answering p pipes := fun v k ready =>
    (k.tsuEnter wired).dtEnter wired (by rw [State.isReady_iff] at ready ⊢; rw [tsuEnter_reach v]; exact ready)
  unfold Machine.entryNotices
  split
  · unfold eitherOrder
    dsimp only
    split
    · exact dtFirst _ (h.choice _) ready
    · exact tsuFirst _ (h.choice _) ready
  · exact dtFirst s h ready

theorem State.Answering.readyNotices (h : s.Answering p pipes) (wired : pipes → p.Wired) (out : s.ch.state ≠ .ready)
    (idle : pipes → s.runner 0 = none) : (readyNotices s).Answering p pipes := by
  have entered := ((h.uncalled out).withChamber .ready fun _ => idle).entryNotices wired (by rfl)
  rw [readyNotices_eq]
  exact (entered.aside (restartRest_aside _)).aside (driveLamps_aside _ _)

theorem State.Answering.enterReady (h : s.Answering p pipes) (wired : pipes → p.Wired) (out : s.ch.state ≠ .ready)
    (idle : pipes → s.runner 0 = none) : (enterReady s).Answering p pipes :=
  (h.readyNotices wired out idle).aside (handPresence_reach _).aside

/-! ### Runner 0 and its scripts (R105, R138 to R147) -/

/-- CH's own timers and origin are none of PA's. -/
theorem State.Answering.withCh (h : s.Answering p pipes) (origin : Origin) (sync : Option Nat) :
    State.Answering p pipes { s with ch := { s.ch with origin := origin, sync := sync } } :=
  h.aside (.of_blocks rfl rfl rfl ⟨rfl, rfl⟩ ⟨rfl, rfl⟩ rfl)

theorem State.Answering.setChamber (h : s.Answering p pipes) {v : Option Context}
    (apart : pipes → v = none ∨ s.ch.state ≠ .ready ∧ s.ch.state ≠ .gathering) :
    (s.setRunner 0 v).Answering p pipes :=
  h.keeps rfl rfl fun _ k => k.setChamber apart

theorem State.Answering.enterGathering (h : s.Answering p pipes) (wired : pipes → p.Wired)
    (idle : pipes → s.runner 0 = none) : (enterGathering s).Answering p pipes := by
  have moved := h.moveTo wired (st := .gathering) (by decide) fun _ => idle
  have state : (Machine.moveTo .gathering s).ch.state = .gathering := by rw [moveTo_ch]
  unfold Machine.enterGathering
  dsimp only
  split
  · exact moved.enterReady wired (by rw [state]; decide) (moved.idle (.inr state))
  · exact moved.withCh _ _

theorem State.Answering.chamberEnded (h : s.Answering p pipes) (wired : pipes → p.Wired) (idle : pipes → s.runner 0 = none)
    (sc : Script) : (chamberEnded sc s).Answering p pipes := by
  unfold Machine.chamberEnded
  split
  · split
    · next winding =>
      split
      · exact h.enterGathering wired idle
      · exact h.enterReady wired (by rw [winding]; decide) idle
    · exact h
  · split
    · exact h.moveTo wired (by decide) (fun e => by cases e)
    · exact h
  · split
    · exact (h.withCh .dark s.ch.sync).moveTo wired (by decide) (fun e => by cases e)
    · exact h
  · exact h
  · exact h

/-- R105: a pass of runner 0 asks nothing of PA, since runner 0 is idle in READY. -/
theorem State.Answering.runChamber (h : s.Answering p pipes) (wired : pipes → p.Wired) :
    (runChamber s).Answering p pipes := by
  unfold Machine.runChamber
  split
  · exact h
  · next c found =>
    split
    · next running =>
      have apart := h.apart found
      have reach := runPass_reach 0 c s
      have passed : (runPass 0 c s).2.2.Answering p pipes := h.keeps (by rw [reach]) (by rw [reach]) fun _ k =>
        (k.takeSteps False 0 17 running False.elim fun asked ready => (apart asked).1 ready).1
      have state : (runPass 0 c s).2.2.ch.state = s.ch.state := by rw [reach]
      split
      · next e =>
        rw [e] at passed
        exact (passed.setChamber fun _ => .inl rfl).chamberEnded wired (fun _ => State.runner_setRunner_self _ _ _) _
      · next e =>
        rw [e] at passed state
        exact passed.setChamber fun asked => .inr (by rw [state]; exact apart asked)
    · exact h

theorem State.Answering.startScript (h : s.Answering p pipes) (wired : pipes → p.Wired)
    (apart : s.ch.state ≠ .ready ∧ s.ch.state ≠ .gathering) (sc : Script) (entry : Option Nat) :
    (startScript sc entry s).Answering p pipes := by
  unfold Machine.startScript
  split
  · exact (h.setChamber fun _ => .inl rfl).chamberEnded wired (fun _ => State.runner_setRunner_self _ _ _) sc
  · exact (h.setChamber fun _ => .inr apart).runChamber wired

/-- R139: a change to a state in which a chamber script runs, and its script. -/
theorem State.Answering.movesOn (h : s.Answering p pipes) (wired : pipes → p.Wired) {st : ChamberState}
    (apart : st ≠ .ready ∧ st ≠ .gathering) (sc : Script) (entry : Option Nat) :
    (Machine.startScript sc entry (Machine.moveTo st s)).Answering p pipes :=
  (h.moveTo wired apart.1 fun e => absurd e apart.2).startScript wired (by rw [moveTo_ch]; exact apart) _ _

theorem State.Answering.enterDarkening (h : s.Answering p pipes) (wired : pipes → p.Wired) :
    (enterDarkening s).Answering p pipes :=
  ((h.setChamber fun _ => .inl rfl).withCh s.ch.origin none).movesOn wired (st := .darkening) (by decide) _ _

theorem State.Answering.admitWake (h : s.Answering p pipes) (wired : pipes → p.Wired) : (admitWake s).Answering p pipes := by
  unfold Machine.admitWake
  dsimp only
  generalize (if s.ch.state = .dark then Origin.dark else .other) = origin
  exact ((h.setChamber fun _ => .inl rfl).withCh origin s.ch.sync).movesOn wired (st := .winding) (by decide) _ _

theorem State.Answering.offerWake (h : s.Answering p pipes) (wired : pipes → p.Wired) (cause : WakeCause) :
    (offerWake cause s).Answering p pipes := by
  unfold Machine.offerWake
  split
  · exact h.admitWake wired
  · exact h

theorem State.Answering.enterSettling (h : s.Answering p pipes) (wired : pipes → p.Wired) :
    (enterSettling s).Answering p pipes :=
  h.movesOn wired (st := .settling) (by decide) _ _

theorem State.Answering.wakeTimeout (h : s.Answering p pipes) (wired : pipes → p.Wired) (l i : Nat) :
    (wakeTimeout l i s).Answering p pipes :=
  (h.aside (reportFault_aside _ _ _ s)).enterDarkening wired

theorem State.Answering.pressureLoss (h : s.Answering p pipes) (wired : pipes → p.Wired) (l : Nat) :
    (pressureLoss l s).Answering p pipes := by
  have told : ∀ d, (reportFault .pressureLost l d s).Answering p pipes := fun d => h.aside (reportFault_aside _ _ _ s)
  unfold Machine.pressureLoss
  split
  · exact ((told _).withCh .other s.ch.sync).movesOn wired (st := .winding) (by decide) _ _
  · split
    · exact ((told _).withCh s.ch.origin none).movesOn wired (st := .winding) (by decide) _ _
    · exact h

/-- R142: the gathering ends in READY, short of members or not. -/
theorem State.Answering.syncShort (h : s.Answering p pipes) (wired : pipes → p.Wired) (gathering : s.ch.state = .gathering) :
    (syncShort s).Answering p pipes := by
  have out : (stopSync s).ch.state ≠ .ready := by
    show s.ch.state ≠ .ready
    rw [gathering]
    decide
  have stopped : (stopSync s).Answering p pipes := h.withCh s.ch.origin none
  have idle : pipes → (stopSync s).runner 0 = none := h.idle (.inr gathering)
  unfold Machine.syncShort
  split
  · exact stopped.enterReady wired out idle
  · exact ((stopped.readyNotices wired out idle).aside (reportFault_aside _ _ _ _)).aside (handPresence_reach _).aside

theorem State.Answering.judgeGathering (h : s.Answering p pipes) (wired : pipes → p.Wired) :
    (judgeGathering s).Answering p pipes := by
  unfold Machine.judgeGathering
  split
  · next judged =>
    exact State.Answering.enterReady (s := stopSync s) (h.withCh s.ch.origin none) wired
      (by show s.ch.state ≠ .ready; rw [judged.1]; decide) (h.idle (.inr judged.1))
  · exact h

theorem State.Answering.restExpires (h : s.Answering p pipes) (wired : pipes → p.Wired) :
    (restExpires s).Answering p pipes := by
  unfold Machine.restExpires
  split
  · exact h.enterSettling wired
  · exact h.aside (restartRest_aside s)

end

end Sys2Proof.Machine
end


section
/-! The keyboard, the tuning hold, the marks and the lines under the laws of the pipes (02, 03, 06, 10). -/

namespace Sys2Proof.Machine

section
variable {p : Profile} {pipes : Prop} {s : State}

/-- KM is none of PA's. -/
theorem withKm_aside (s : State) (km : Km) : s.aside { s with km := km } :=
  .of_blocks rfl rfl rfl ⟨rfl, rfl⟩ ⟨rfl, rfl⟩ rfl

theorem setLine_aside (l : Nat) (v : Line) (s : State) : s.aside (s.setLine l v) :=
  .of_blocks rfl rfl rfl ⟨rfl, rfl⟩ ⟨rfl, rfl⟩ rfl

theorem offerLine_aside (l : Nat) (v : Bool) (s : State) : s.aside (offerLine l v s) := by
  refine (offerLine_pass l v s).aside fun idle => ?_
  unfold offerLine
  rw [idle]
  exact idle

theorem State.Answering.releaseShoes (h : s.Answering p pipes) (c : Nat) : (releaseShoes c s).Answering p pipes :=
  h.tsu (releaseShoes_reach c s) fun _ k => k.releaseShoes c

theorem State.Answering.eeAllOff (h : s.Answering p pipes) (wired : pipes → p.Wired) : (eeAllOff s).Answering p pipes := by
  have frame := (eeAllOff_stopped s).frame
  exact h.keeps (by rw [frame]) (by rw [frame]) fun _ k => k.eeAllOff wired

theorem State.Answering.offerBeat (h : s.Answering p pipes) (wired : pipes → p.Wired) (a : Station) (tag : Fin 16) :
    (offerBeat a tag s).Answering p pipes :=
  h.tsu (offerBeat_reach a tag s) fun _ k => k.offerBeat wired a tag

/-- R47: a clock edge strikes the bars of its window's set. -/
theorem State.Answering.clockEdge (h : s.Answering p pipes) (w : Nat) : (clockEdge w s).Answering p pipes := by
  have reach := forOutputs_reach strikeBar_reach
  unfold Machine.clockEdge
  dsimp only
  generalize (s.dt.clocks.get w).map _ = edge
  have ticked : State.Answering p pipes { s with dt := { s.dt with clocks := s.dt.clocks.set w edge } } :=
    h.aside (.of_blocks rfl rfl rfl ⟨rfl, rfl⟩ ⟨rfl, rfl⟩ rfl)
  refine ticked.keeps (by rw [reach]) (by rw [reach]) fun _ k => k.strikes fun asked o m => ?_
  exact ⟨.bar, by simp, State.Arbitrated.setBars h asked w o m⟩

section
variable (wired : pipes → p.Wired) (voiced : pipes → p.Voiced)
include wired voiced

/-! ### The tuning hold (R55 to R58) -/

theorem State.Answering.moveHold (h : s.Answering p pipes) (new : Option Hold)
    (holdable : ∀ x, new = some x → s.holdable x.output = true) : (moveHold new s).Answering p pipes := by
  have counted : State.Answering p pipes { s with dt := { s.dt with tuning := new } } :=
    h.aside (.of_blocks rfl rfl rfl ⟨rfl, rfl⟩ ⟨rfl, rfl⟩ rfl)
  refine counted.application wired voiced false fun _ => ?_
  obtain rfl := State.Arbitrated.prof h
  refine tuneDeltas_voices fun o is => ?_
  obtain ⟨x, found, rfl⟩ := Option.map_eq_some_iff.1 is
  obtain ⟨-, kind⟩ := (Bool.and_eq_true _ _).mp (holdable x found)
  obtain ⟨w, window, kinds⟩ := Option.any_eq_true _ _ |>.1 kind
  rw [window]
  simpa using kinds

theorem State.Answering.endHold (h : s.Answering p pipes) : (endHold s).Answering p pipes := by
  unfold Machine.endHold
  split
  · exact h
  · exact h.moveHold wired voiced none fun _ e => by cases e

theorem State.Answering.endHoldOf (h : s.Answering p pipes) (a : Station) : (endHoldOf a s).Answering p pipes := by
  unfold Machine.endHoldOf
  split
  · exact h.endHold wired voiced
  · exact h

theorem State.Answering.takeTune (h : s.Answering p pipes) (a : Station) (output : BitVec 16) :
    (takeTune a output s).Answering p pipes := by
  unfold Machine.takeTune
  dsimp only
  split
  · exact h.endHold wired voiced
  · split
    · next holdable =>
      split
      · exact h.aside (.of_blocks rfl rfl rfl ⟨rfl, rfl⟩ ⟨rfl, rfl⟩ rfl)
      · exact h.moveHold wired voiced _ fun x is => by cases is; exact holdable
    · exact h

/-! ### Keys, stops and the pizzicato list -/

theorem State.Answering.pizzExpiry (h : s.Answering p pipes) (d k : Nat) : (pizzExpiry d k s).Answering p pipes := by
  have fallen := h.application wired voiced false (l := pizzDeltas s.prof s.km.stopOn d k) fun asked => by
    rw [State.Arbitrated.prof h]
    exact pizzDeltas_voices (wired asked) (voiced asked) _ _ _
  exact fallen.aside (withKm_aside _ _)

theorem State.Answering.createPizz (h : s.Answering p pipes) (d k : Nat) : (createPizz d k s).Answering p pipes := by
  have room : (makeRoom s).Answering p pipes := by
    unfold makeRoom
    split
    · split
      · exact h.pizzExpiry wired voiced _ _
      · exact h
    · exact h
  exact room.aside (withKm_aside _ _)

theorem State.Answering.studDeltas (h : s.Answering p pipes) (k : Nat) (old new : Touch) :
    (studDeltas k old new s).Answering p pipes := by
  have moved : ∀ up, ((s.prof.studEffects k).foldl (fun s e => studDelta e up s) s).Answering p pipes := fun up =>
    foldl_keeps (P := State.Answering p pipes) _
      (fun e _ _ k => k.trig (studDelta_reach e up _) fun _ k => k.studDelta wired voiced e up) h
  unfold Machine.studDeltas
  split
  · exact moved true
  · split
    · exact moved false
    · exact h

/-- R27: a merged change. -/
theorem State.Answering.mergedChange (h : s.Answering p pipes) (allOff : Bool) (d k : Nat) (old new : Touch) :
    (mergedChange allOff d k old new s).Answering p pipes := by
  have merged := h.aside (withKm_aside s { s.km with merged := s.km.merged.set (cell d k) new })
  unfold Machine.mergedChange
  dsimp only
  generalize State.hasPizz _ d k = before
  generalize ({ s with km := { s.km with merged := s.km.merged.set (cell d k) new } } : State) = a at merged ⊢
  have created : (if new = .second then Machine.createPizz d k a else a).Answering p pipes := by
    split
    · exact merged.createPizz wired voiced d k
    · exact merged
  generalize (if new = .second then Machine.createPizz d k a else a) = b at created ⊢
  have removed : (if old = .second then removePizz d k b else b).Answering p pipes := by
    split
    · exact created.aside (withKm_aside _ _)
    · exact created
  generalize (if old = .second then removePizz d k b else b) = c at removed ⊢
  have taken := removed.application wired voiced allOff
    (l := mergedDeltas c.prof c.km.stopOn d k old new before (c.hasPizz d k)) fun asked => by
      rw [State.Arbitrated.prof removed]
      exact mergedDeltas_voices (wired asked) (voiced asked) _ _ _ _ _ _ _
  generalize Machine.application _ _ c = e at taken ⊢
  have studded : (if d = 7 ∧ allOff = false then Machine.studDeltas k old new e else e).Answering p pipes := by
    split
    · exact taken.studDeltas wired voiced k old new
    · exact taken
  generalize (if d = 7 ∧ allOff = false then Machine.studDeltas k old new e else e) = f at studded ⊢
  have rested := studded.aside (restartRest_aside f)
  split
  · exact rested.offerWake wired _
  · exact rested

theorem State.Answering.remerge (h : s.Answering p pipes) (allOff : Bool) (d k : Nat) :
    (remerge allOff d k s).Answering p pipes := by
  unfold Machine.remerge
  dsimp only
  split
  · exact h
  · exact h.mergedChange wired voiced _ _ _ _ _

theorem State.Answering.setTouch (h : s.Answering p pipes) (c d k : Nat) (v : Touch) :
    (setTouch c d k v s).Answering p pipes := by
  unfold Machine.setTouch
  split
  · exact h
  · exact State.Answering.remerge wired voiced (h.aside (withKm_aside _ _)) _ _ _

theorem State.Answering.keyChange (h : s.Answering p pipes) (c d : Nat) (x : Fin 64 × BitVec 2) :
    (keyChange c d s x).Answering p pipes := by
  unfold Machine.keyChange
  split
  · exact h.setTouch wired voiced _ _ _ _
  · exact h

theorem State.Answering.stopChange (h : s.Answering p pipes) (x : Fin 1024 × Bool) :
    (stopChange s x).Answering p pipes := by
  by_cases moved : s.prof.hasStop x.1.val = true ∧ s.km.stopOn.get x.1.val ≠ x.2
  · rw [stopChange_moved moved]
    refine State.Answering.aside ?_ (restartRest_aside _)
    refine State.Answering.application (h.aside (withKm_aside _ _)) wired voiced _ fun asked => ?_
    rw [State.Arbitrated.prof h]
    exact stopDeltas_voices (wired asked) (voiced asked) _ _ _ _
  · rw [stopChange_still moved]
    exact h

theorem State.Answering.dropDivision (h : s.Answering p pipes) (c d : Nat) : (dropDivision c s d).Answering p pipes :=
  foldl_keeps (P := State.Answering p pipes) _ (fun k _ _ hs => hs.setTouch wired voiced c d k .up) h

/-! ### A station's loss, ALL-OFF, and a playing frame -/

theorem State.Answering.consoleLoss (h : s.Answering p pipes) (a : Station) (c : Nat) :
    (consoleLoss a c s).Answering p pipes := by
  have fallen : ((List.range 8).foldl (Machine.dropDivision c) s).Answering p pipes :=
    foldl_keeps (P := State.Answering p pipes) _ (fun d _ _ hs => hs.dropDivision wired voiced c d) h
  have ended := ((fallen.releaseShoes c).endHoldOf wired voiced a).aside
    (withKm_aside _ _ : State.aside _ (State.setSlot c { station := none, touch := .empty } _))
  unfold Machine.consoleLoss
  dsimp only
  split
  · exact ended.aside (reportFault_aside _ _ _ _)
  · exact ended

theorem State.Answering.stationLost (h : s.Answering p pipes) (a : Station) : (stationLost a s).Answering p pipes := by
  have left := h.aside (withKm_aside s { s.km with refused := s.km.refused.set a.val false })
  unfold Machine.stationLost
  dsimp only
  split
  · exact left.consoleLoss wired voiced a _
  · exact left.endHoldOf wired voiced a

theorem State.Answering.allOffKey (h : s.Answering p pipes) (d k : Nat) : (allOffKey d s k).Answering p pipes := by
  unfold Machine.allOffKey
  split
  · exact h
  · exact State.Answering.remerge wired voiced
      (foldl_keeps (P := State.Answering p pipes) _ (fun c _ v hv => hv.aside (withKm_aside _ _)) h) _ _ _

theorem State.Answering.allOff (h : s.Answering p pipes) : (allOff s).Answering p pipes := by
  have walked : ((List.range 8).foldl allOffDivision (Machine.eeAllOff s)).Answering p pipes :=
    foldl_keeps (P := State.Answering p pipes) _ (fun d _ _ hs =>
      foldl_keeps (P := State.Answering p pipes) _ (fun k _ _ hv => hv.allOffKey wired voiced d k) hs)
      (h.eeAllOff wired)
  exact walked.endHold wired voiced

omit wired voiced in
/-- R21, R22: a playing frame finds or binds its sender's slot, or is refused. -/
theorem State.Answering.withSlot (h : s.Answering p pipes) (a : Station) (detail : Nat) {apply : Nat → State → State}
    (keeps : ∀ c v, v.Answering p pipes → (apply c v).Answering p pipes) : (withSlot a detail apply s).Answering p pipes := by
  unfold Machine.withSlot
  split
  · exact keeps _ _ h
  · split
    · exact keeps _ _ (h.aside (withKm_aside s _))
    · unfold refuseConsole
      split
      · exact h
      · exact (h.aside (withKm_aside s _)).aside (reportFault_aside _ _ _ _)

/-! ### The runners and the lines -/

/-- R105: a runner whose wait is over. -/
theorem State.Answering.resumePass (h : s.Answering p pipes) {r : Nat} (low : r < 8) {c : Context}
    (found : s.runner r = some c) (waits : c.waiting ≠ .running) : (resumePass r c s).Answering p pipes := by
  unfold Machine.resumePass
  split
  · next chamber =>
    subst chamber
    exact (h.setChamber fun asked => .inr (h.apart found asked)).runChamber wired
  · next effect =>
    have listed : r ∈ effectRunners := effectRunners_bounds.2 ⟨by omega, low⟩
    have reach := runEffect_reach r c.resumed s
    exact h.keeps (by rw [reach]) (by rw [reach]) fun _ k => k.runEffect voiced listed fun asked =>
      (k.plays listed found asked).wakes waits

theorem State.Answering.offerMark (h : s.Answering p pipes) (m : Fin 64) : (offerMark m s).Answering p pipes := by
  refine inAnyOrder_keeps (P := State.Answering p pipes)
    (fun s n hs => hs.aside (.of_blocks rfl rfl rfl ⟨rfl, rfl⟩ ⟨rfl, rfl⟩ rfl)) 8 _ (fun r listed v hv => ?_) h
  have low : r < 8 := List.mem_range.1 (List.mem_filter.1 listed).1
  unfold takeMark
  split
  · next c found =>
    split
    · next awaits => exact hv.resumePass wired voiced low found fun running => by simp [Context.awaitsMark, running] at awaits
    · exact hv
  · exact hv

theorem State.Answering.ownFrame (h : s.Answering p pipes) (f : Frame) : (ownFrame f s).Answering p pipes := by
  unfold Machine.ownFrame
  split
  · exact h.offerMark wired voiced _
  · exact h.offerBeat wired _ _
  · exact h
  · exact h

theorem State.Answering.cueEdge (h : s.Answering p pipes) (e : Nat) (v : Bool) : (cueEdge e v s).Answering p pipes :=
  h.trig (cueEdge_reach e v s) fun _ k => k.cueEdge wired voiced e v

theorem State.Answering.edgeBlock (h : s.Answering p pipes) (l : Nat) (v : Bool) : (edgeBlock l v s).Answering p pipes := by
  unfold Machine.edgeBlock
  split
  · split
    · exact h
    · exact h.pressureLoss wired _
  · split
    · exact h.offerWake wired _
    · exact h
  · exact h.cueEdge wired voiced _ _
  · split
    · exact h.allOff wired voiced
    · exact h
  all_goals exact h

theorem State.Answering.debouncedEdge (h : s.Answering p pipes) (l : Nat) (v : Bool) :
    (debouncedEdge l v s).Answering p pipes := by
  have set := h.aside (setLine_aside l { s.line l with debounced := v, debounce := none } s)
  have runner : ∀ t : State, t.Answering p pipes → (edgeRunner l v t).Answering p pipes := fun t ht =>
    (ht.aside (offerLine_aside l v t)).runChamber wired
  unfold Machine.debouncedEdge
  dsimp only
  split
  · split
    · exact eitherOrder_keeps (P := State.Answering p pipes)
        (fun s n hs => hs.aside (.of_blocks rfl rfl rfl ⟨rfl, rfl⟩ ⟨rfl, rfl⟩ rfl))
        (fun t ht => ht.edgeBlock wired voiced l v) runner set
    · exact set.edgeBlock wired voiced l v
  · exact runner _ set

theorem State.Answering.rawChanged (h : s.Answering p pipes) (l : Nat) (v : Bool) : (rawChanged l v s).Answering p pipes := by
  unfold Machine.rawChanged
  split
  · split
    · exact h.aside (setLine_aside _ _ _)
    · dsimp only
      split
      · exact h.debouncedEdge wired voiced l v
      · exact h.aside (setLine_aside _ _ _)
  · exact h

end

end

end Sys2Proof.Machine
end


section
/-! What an image that loads says for PA's outputs (R2, R117, R125), and acceptance under the laws of the pipes (R183). -/

namespace Sys2Proof.Machine

/-! ### The windows of an image that loads -/

/-- R182: a record that passes has no fault with those before it. -/
theorem checkRecords_passes {α : Type} {n : Nat} {fault : List α → Nat → α → Option Nat} {l : List α} :
    ∀ {before : List α}, checkRecords n fault before l = .ok () → ∀ i x, l[i]? = some x →
      fault (before ++ l.take i) (before.length + i) x = none := by
  induction l with
  | nil => exact fun _ i x found => by cases found
  | cons r rest ih =>
    intro before h i x found
    unfold checkRecords at h
    split at h
    · cases h
    · next none =>
      cases i with
      | zero =>
        cases found
        simpa using none
      | succ i =>
        have passes := ih h i x found
        rwa [List.length_append, List.length_singleton, Nat.add_assoc, Nat.add_comm 1, List.append_assoc,
          List.singleton_append] at passes

/-- R2, R117, R125: what the windows, groups and sets of an image that loads have passed. -/
theorem loadSections_outputs {m : List Byte} {body : Nat} {p : Profile} (h : loadSections m body = .ok p) :
    (∃ params, checkRecords 3 (fun before _ w => windowFault params before w) [] p.windows = .ok ()) ∧
      (∃ groups, p.groups = groups.map readGroup ∧
        checkRecords 6 (fun before _ r => groupFault p.windows before r) [] groups = .ok ()) ∧
      checkRecords 7 (fun before _ x => setFault p.windows p.groups before x) [] p.sets = .ok () := by
  unfold loadSections at h
  dsimp only at h
  obtain ⟨_, -, h⟩ := bind_ok h
  obtain ⟨_, windows, h⟩ := bind_ok h
  obtain ⟨_, -, h⟩ := bind_ok h
  obtain ⟨_, -, h⟩ := bind_ok h
  obtain ⟨_, -, h⟩ := bind_ok h
  obtain ⟨_, -, h⟩ := bind_ok h
  obtain ⟨_, -, h⟩ := bind_ok h
  obtain ⟨_, -, h⟩ := bind_ok h
  obtain ⟨_, groups, h⟩ := bind_ok h
  obtain ⟨_, -, h⟩ := bind_ok h
  obtain ⟨_, -, h⟩ := bind_ok h
  obtain ⟨_, sets, h⟩ := bind_ok h
  obtain ⟨_, -, h⟩ := bind_ok h
  obtain ⟨_, -, h⟩ := bind_ok h
  obtain ⟨_, -, h⟩ := bind_ok h
  obtain ⟨_, -, h⟩ := bind_ok h
  obtain ⟨_, -, h⟩ := bind_ok h
  obtain ⟨_, -, h⟩ := bind_ok h
  obtain ⟨_, -, h⟩ := bind_ok h
  obtain ⟨_, -, h⟩ := bind_ok h
  cases h
  exact ⟨⟨_, windows⟩, ⟨_, rfl, groups⟩, sets⟩

/-- R2: windows that share an output overlap. -/
theorem Window.overlaps_of_contains {v w : Window} {o : Nat} (hv : v.contains o = true) (hw : w.contains o = true) :
    v.overlaps w = true := by
  simp only [Window.contains, Window.overlaps, decide_eq_true_eq] at hv hw ⊢
  omega

/-- R2: of windows that pass, one contains an output. -/
theorem windowOf_of_passed {params : StationParams} {p : Profile}
    (passed : checkRecords 3 (fun before _ w => windowFault params before w) [] p.windows = .ok ()) {w : Window} {o : Nat}
    (m : w ∈ p.windows) (within : w.contains o = true) : p.windowOf o = some w := by
  have apart : p.windows.Pairwise fun v w => ¬ (v.contains o = true ∧ w.contains o = true) := by
    rw [List.pairwise_iff_getElem]
    rintro i j li lj low ⟨hv, hw⟩
    have good := codeIf_none (checkRecords_passes passed j _ (List.getElem?_eq_getElem lj))
    have earlier : p.windows[i] ∈ p.windows.take j := List.mem_take_iff_getElem.2 ⟨i, by omega, rfl⟩
    have apart := (Bool.or_eq_false_iff.1 good).2
    rw [List.nil_append, List.any_eq_false] at apart
    exact apart _ earlier (Window.overlaps_of_contains hv hw)
  have symm : Std.Symm fun v w : Window => ¬ (v.contains o = true ∧ w.contains o = true) := ⟨fun _ _ h k => h k.symm⟩
  unfold Profile.windowOf
  cases found : p.windows.find? (·.contains o) with
  | none => exact absurd within (List.find?_eq_none.1 found w m)
  | some v =>
    have holds := List.find?_some found
    refine congrArg some (by_contra fun differ => ?_)
    exact apart.forall (List.mem_of_find?_eq_some found) m differ ⟨holds, within⟩

theorem loadImage_wired {m : List Byte} {p : Profile} (h : loadImage m = .ok p) : p.Wired := by
  obtain ⟨body, h⟩ := loadImage_ok h
  obtain ⟨⟨params, windows⟩, ⟨records, read, groups⟩, sets⟩ := loadSections_outputs h
  have window : ∀ w ∈ p.windows, ∀ o, w.contains o = true → p.windowOf o = some w := fun w m o within =>
    windowOf_of_passed windows m within
  have aux : ∀ {w : Window} {o : Nat}, w ∈ p.windows → w.kind = .aux → w.contains o = true → p.acts o :=
    fun m kind within => ⟨.aux, by simp, by rw [window _ m _ within, Option.map_some, kind]⟩
  refine ⟨window, fun g mg => ?_, fun x mx o uses => ?_⟩
  · rw [read] at mg
    obtain ⟨r, mr, rfl⟩ := List.mem_map.1 mg
    obtain ⟨i, found⟩ := List.getElem?_of_mem mr
    have good := codeIf_none (checkRecords_passes groups i r found)
    have lies := (Bool.or_eq_false_iff.1 (Bool.or_eq_false_iff.1 good).1).2
    obtain ⟨w, mw, is⟩ := List.any_eq_true.1 ((Bool.not_eq_false' _).mp lies)
    simp only [Bool.and_eq_true, beq_iff_eq] at is
    exact aux mw is.1 is.2
  · obtain ⟨i, found⟩ := List.getElem?_of_mem mx
    have good := codeIf_none (checkRecords_passes sets i x found)
    have lies := (Bool.or_eq_false_iff.1 (Bool.or_eq_false_iff.1 good).1).1
    obtain ⟨w, mw, is⟩ := List.any_eq_true.1 ((Bool.not_eq_false' _).mp lies)
    simp only [Bool.and_eq_true, beq_iff_eq, Window.contains, decide_eq_true_eq] at is
    obtain ⟨⟨kind, first⟩, last⟩ := is
    refine aux mw kind ?_
    simp only [ShutterSet.uses, decide_eq_true_eq] at uses
    simp only [Window.contains, decide_eq_true_eq]
    omega

/-! ### A machine with nothing in play -/

/-- R20, R40, R62, R81, R104, R125: what EE, DT's sets and the shutters are at reset, and until a profile is accepted. -/
structure State.Bare (s : State) : Prop where
  groups : s.ee.groups = .empty
  runners : ∀ r ∈ effectRunners, s.runner r = none
  sets : s.dt.sets = .empty
  shutters : ∀ x, s.shutter x = default

section
variable {p : Profile} {pipes : Prop} {s t : State}

theorem State.Bare.pipeLaws (h : s.Bare) (cleared : s.pa = .cleared) (apart : s.ch.state ≠ .ready ∧ s.ch.state ≠ .gathering) :
    s.PipeLaws fun _ => False where
  held := .of_cleared cleared
  bars i o m := by rw [h.sets] at m; cases m
  shutters x cfg _ := by rw [h.shutters x]; exact ⟨Nat.zero_le _, Nat.zero_le _⟩
  idle st := (st.elim apart.1 apart.2).elim
  runners r m c found := by rw [h.runners r m] at found; cases found
  suspended g c m := by unfold State.group at m; rw [h.groups] at m; cases m
  pending g e waits := by unfold State.group at waits; rw [h.groups] at waits; cases waits

/-- With nothing in play the laws hold whatever profile is held. -/
theorem State.Bare.answering (prof : s.prof = p) (cleared : s.pa = .cleared)
    (apart : s.ch.state ≠ .ready ∧ s.ch.state ≠ .gathering) (bare : pipes → s.Bare) : s.Answering p pipes :=
  State.Arbitrated.outside ⟨prof, .of_cleared cleared, fun asked => (bare asked).pipeLaws cleared apart⟩ apart.1

/-! ### Acceptance and refusal (R182 to R184) -/

theorem loadedWith_frame (s : State) (p : Profile) :
    s.loadedWith p = { s with
      profile := some p, ll := (s.loadedWith p).ll, ee := { s.ee with triggers := (s.loadedWith p).ee.triggers } } := by
  have lines := acceptLines_frame (List.range 12) { s with profile := some p }
  unfold State.loadedWith
  generalize (List.range 12).foldl acceptLine { s with profile := some p } = a at lines ⊢
  have cues := foldl_reach (fun s t : State => t = { s with ee := { s.ee with triggers := t.ee.triggers } }) (fun _ => rfl)
    (fun _ _ _ h k => by rw [k, h]) takeCueLevel takeCueLevel_frame (List.range p.effects.length) a
  generalize (List.range p.effects.length).foldl takeCueLevel a = b at cues ⊢
  rw [cues, lines]

theorem acceptProfile_answering (loading : s.ch.state = .loading) (cleared : s.pa = .cleared) (bare : pipes → s.Bare)
    (wired : pipes → p.Wired) : (acceptProfile p s).Answering p pipes := by
  have frame := loadedWith_frame s p
  have loaded : (s.loadedWith p).Answering p pipes := by
    rw [frame]
    refine State.Bare.answering rfl cleared ?_ fun asked => ?_
    · show s.ch.state ≠ .ready ∧ s.ch.state ≠ .gathering
      rw [loading]
      decide
    · obtain ⟨groups, runners, sets, shutters⟩ := bare asked
      exact ⟨groups, runners, sets, shutters⟩
  rw [acceptProfile_eq]
  have shifted := foldl_keeps (P := State.Answering p pipes) (f := fun s c => startShift c s) (List.range 4)
    (fun c _ v k => k.aside (startShift_reach c v).out.aside) loaded
  exact (shifted.moveTo wired (by decide) fun e => by cases e).offerWake wired _

theorem State.Answering.refuseProfile (h : s.Answering p pipes) (loading : s.ch.state = .loading) (x : LoadFault) :
    (refuseProfile x s).Answering p pipes := by
  have changed := (h.uncalled (by rw [loading]; decide)).withChamber .profileFault fun st => by rcases st with st | st <;> cases st
  have refused : (s.withChamber .profileFault).Answering p pipes := changed.outside (fun st => by cases st)
  exact (refused.aside (reportFault_aside _ _ _ _)).aside (handPresence_reach _).aside

/-- R185: at a reset nothing is in play. -/
theorem resetBlocks_answering (cause : Cause) (straps : Station) (s : State) :
    (resetBlocks cause straps s).Answering default pipes :=
  State.Bare.answering rfl rfl ⟨(fun st => by cases st), fun st => by cases st⟩ fun _ => ⟨rfl, fun _ _ => rfl, rfl, fun _ => rfl⟩

end

end Sys2Proof.Machine
end


section
/-! O54: every command keeps the arbiter's laws, and what links the demand to them. -/

namespace Sys2Proof.Machine

section
variable {p : Profile} {pipes : Prop} {s u : State}

/-! ### The shape of a command -/

/-- The laws, whatever profile is held. -/
def State.Kept (pipes : Prop) (s : State) : Prop := ∃ p : Profile, (pipes → p.Wired) ∧ s.Answering p pipes

theorem arrive_aside (t : Nat) (s : State) : s.aside (s.arrive t) := .of_blocks rfl rfl rfl ⟨rfl, rfl⟩ ⟨rfl, rfl⟩ rfl

/-- An operation taken on a condition. -/
theorem State.Answering.ite {c : Prop} [Decidable c] {t : State} (h : s.Answering p pipes) (k : c → t.Answering p pipes) :
    (if c then t else s).Answering p pipes := by
  split
  · next holds => exact k holds
  · exact h

theorem State.Answering.accepted (h : s.Answering p pipes) {f : State → State}
    (keeps : s.Answering p pipes → (f s).Answering p pipes) : (accepted f s).Answering p pipes := by
  unfold Machine.accepted
  split
  · exact keeps h
  · exact h

/-- The end of a reset is none of PA's. -/
theorem State.Answering.endReset (h : s.Answering default pipes) : (endReset s).Kept pipes :=
  ⟨default, fun _ => Profile.wired_default, h.aside (endReset_out s).aside⟩

section
variable (wired : pipes → p.Wired)
include wired

theorem State.Answering.kept (h : s.Answering p pipes) : s.Kept pipes := ⟨p, wired, h⟩

/-- A command that is taken, with the pass of runner 0 that follows it, or that comes while NRST is low. -/
theorem State.Answering.takenKept (h : s.Answering p pipes) {t : Nat} {f : State → State}
    (keeps : (s.arrive t).Answering p pipes → (f (s.arrive t)).Kept pipes) (e : taken t f s = .next u) : u.Kept pipes := by
  have arrived := h.aside (arrive_aside t s)
  unfold Machine.taken at e
  cases e
  split
  · exact arrived.kept wired
  · obtain ⟨q, wiredAfter, after⟩ := keeps arrived
    exact (after.runChamber wiredAfter).kept wiredAfter

theorem State.Answering.taken (h : s.Answering p pipes) {t : Nat} {f : State → State}
    (keeps : (s.arrive t).Answering p pipes → (f (s.arrive t)).Answering p pipes) (e : taken t f s = .next u) :
    u.Kept pipes :=
  h.takenKept wired (fun k => (keeps k).kept wired) e

/-- A checked frame: PT hears its sender, and the block takes it. -/
theorem State.Answering.frameKept (h : s.Answering p pipes) {t : Nat} {a : Station} {f : State → State}
    (keeps : ∀ v : State, v.Answering p pipes → (f v).Kept pipes) (e : frame t a f s = .next u) : u.Kept pipes := by
  refine h.takenKept wired (fun k => ?_) e
  split
  · exact k.kept wired
  · exact keeps _ (k.aside (heard_out a _).aside)

theorem State.Answering.frame (h : s.Answering p pipes) {t : Nat} {a : Station} {f : State → State}
    (keeps : ∀ v : State, v.Answering p pipes → (f v).Answering p pipes) (e : frame t a f s = .next u) : u.Kept pipes :=
  h.frameKept wired (fun v k => (keeps v k).kept wired) e

/-! ### Every command -/

theorem State.Answering.exec (h : s.Answering p pipes) (voiced : pipes → p.Voiced)
    (bare : s.ch.state = .loading → s.pa = .cleared ∧ (pipes → s.Bare)) (i : Instr) (e : exec i s = .next u) :
    u.Kept pipes := by
  cases i with
  | powerOn t straps =>
    cases e
    have reset := resetBlocks_answering (pipes := pipes) .powerOn straps (s.arrive t)
    exact State.Answering.endReset (reset.aside (withPf_out _ _).aside)
  | pinReset t straps =>
    cases e
    have reset := resetBlocks_answering (pipes := pipes) (s.arrive t).pinCause straps (s.arrive t)
    exact ⟨default, fun _ => Profile.wired_default, reset.aside (.of_blocks rfl rfl rfl ⟨rfl, rfl⟩ ⟨rfl, rfl⟩ rfl)⟩
  | profileLoadEnd t image =>
    refine h.takenKept wired (fun k => ?_) e
    split
    · next loading =>
      obtain ⟨cleared, bare⟩ := bare loading
      have tagged := k.aside (withPf_out { (s.arrive t).pf with tag := imageTag image } _).aside
      unfold loadEnds
      dsimp only
      split
      · next q loads =>
        have known : pipes → q.Wired := fun _ => loadImage_wired loads
        refine ⟨q, known, acceptProfile_answering loading cleared (fun asked => ?_) known⟩
        obtain ⟨groups, runners, sets, shutters⟩ := bare asked
        exact ⟨groups, runners, sets, shutters⟩
      · exact (tagged.refuseProfile loading _).kept wired
    · exact k.kept wired
  | lineCheck t a reason =>
    simp only [Machine.exec, execLineCheck] at e
    refine h.taken wired (fun k => ?_) e
    split
    · exact k
    · exact k.aside (reportFault_aside _ _ _ _)
  | alloff t a => exact h.frame wired (fun v k => k.accepted fun k => k.allOff wired voiced) e
  | restart t a mask straps =>
    refine h.frameKept wired (fun v k => ?_) e
    split
    · exact (resetBlocks_answering _ _ _).endReset
    · exact k.kept wired
  | keys t a d changes =>
    refine h.frame wired (fun v k => k.accepted fun k => k.withSlot a keysDetail fun c w hw => ?_) e
    exact foldl_keeps (P := State.Answering p pipes) _ (fun x _ _ hx => hx.keyChange wired voiced c d.val x) hw
  | snap t a d codes =>
    refine h.frame wired (fun v k => k.accepted fun k => k.withSlot a snapDetail fun c w hw => ?_) e
    exact foldl_keeps (P := State.Answering p pipes) _ (fun x _ _ hx => hx.setTouch wired voiced c d.val x _) hw
  | shoe t a pairs =>
    exact h.frame wired (fun v k => k.accepted fun k => k.withSlot a shoeDetail fun c w hw =>
      hw.tsu (takePairs_reach c pairs w) fun _ k => k.takePairs wired c pairs) e
  | beat t a tag => exact h.frame wired (fun v k => k.accepted fun k => k.offerBeat wired a tag) e
  | mark t a m => exact h.frame wired (fun v k => k.accepted fun k => k.offerMark wired voiced m) e
  | stops t a changes =>
    refine h.frame wired (fun v k => k.accepted fun k => k.withSlot a stopsDetail fun c w hw => ?_) e
    exact foldl_keeps (P := State.Answering p pipes) _ (fun x _ _ hx => hx.stopChange wired voiced x) hw
  | chamberWake t a mask => exact h.frame wired (fun v k => k.accepted fun k => k.ite fun _ => k.offerWake wired _) e
  | chamberRest t a mask => exact h.frame wired (fun v k => k.accepted fun k => k.ite fun _ => k.enterSettling wired) e
  | chamberDark t a mask => exact h.frame wired (fun v k => k.accepted fun k => k.ite fun _ => k.enterDarkening wired) e
  | tune t a station output =>
    exact h.frame wired (fun v k => k.accepted fun k => k.ite fun _ => k.takeTune wired voiced a output) e
  | clear t a mask => exact h.frame wired (fun v k => k.ite fun _ => k.aside (withPf_out _ _).aside) e
  | ask t a station =>
    simp only [Machine.exec, execAsk] at e
    refine h.taken wired (fun k => ?_) e
    have told := k.ite (c := ¬ (s.arrive t).ch.state = .profileFault) fun _ => k.aside (heard_out a _).aside
    rw [ite_not] at told
    exact told.ite fun _ => told.aside (handOver_reach _ _).aside
  | presence t a role state flags tag =>
    exact h.frame wired (fun v k => (k.aside (setPeer_out _ _ v).aside).judgeGathering wired) e
  | reportReceived t a payload => exact h.frame wired (fun v k => k) e
  | silenceTimerExpiry t a =>
    simp only [Machine.exec, execSilenceTimerExpiry] at e
    refine h.taken wired (fun k => ?_) e
    split
    · exact k
    · split
      · next entry _ =>
        exact (k.aside (setPeer_out a entry _).aside).accepted fun left => left.stationLost wired voiced a
      · exact k
  | pizzicatoExpiry t d k =>
    exact h.taken wired (fun arrived => arrived.ite fun _ => arrived.pizzExpiry wired voiced d.val k.val) e
  | reiterationClockEdge t w => exact h.taken wired (fun k => k.ite fun _ => k.clockEdge w.val) e
  | pullInEnd t o =>
    have reach := pullInEnds_reach o.val (s.arrive t)
    exact h.taken wired (fun k => k.keeps (by rw [reach]) (by rw [reach]) fun _ k => k.pullInEnds _) e
  | strikeEnd t o =>
    have reach := strikeEnds_reach o.val (s.arrive t)
    exact h.taken wired (fun k => k.keeps (by rw [reach]) (by rw [reach]) fun _ k => k.strikeEnds _) e
  | shiftEnd t c returned => exact h.taken wired (fun k => k.ite fun _ => k.aside (endShift_out _ _ _).aside) e
  | refreshTimerExpiry t c => exact h.taken wired (fun k => k.ite fun _ => k.aside (shiftWanted_reach _ _).out.aside) e
  | waitEnd t r =>
    simp only [Machine.exec, execWaitEnd] at e
    refine h.taken wired (fun k => ?_) e
    split
    · next c found =>
      exact k.ite fun ends => k.resumePass wired voiced r.isLt found fun running => by simp [Context.waitOver, running] at ends
    · exact k
  | awaitTimeout t r =>
    simp only [Machine.exec, execAwaitTimeout] at e
    refine h.taken wired (fun k => ?_) e
    split
    · next c found =>
      exact k.ite fun ends => k.resumePass wired voiced r.isLt found fun running => by simp [Context.awaitOver, running] at ends
    · exact k
  | awaitlineTimeout t =>
    simp only [Machine.exec, execAwaitlineTimeout] at e
    refine h.taken wired (fun k => ?_) e
    split
    · next c found =>
      split
      · next ends =>
        split
        · exact k.wakeTimeout wired _ _
        · exact k.resumePass wired voiced (by omega) found fun running => by simp [Context.lineOver, running] at ends
      · exact k
    · exact k
  | phase0 t g =>
    simp only [Machine.exec, execPhase0] at e
    refine h.taken wired (fun k => ?_) e
    split
    · exact k.ite fun _ => k.tsu (phase0At_reach _ _ _) fun _ k => k.phase0At wired _ _
    · exact k
  | phaseW t g =>
    exact h.taken wired (fun k => k.ite fun _ => k.tsu (phaseWAt_reach _ _) fun _ k => k.phaseWAt wired _) e
  | followLossExpiry t g =>
    refine h.taken wired (fun k => k.ite fun _ => ?_) e
    exact k.aside (.of_blocks rfl rfl rfl ⟨rfl, rfl⟩ ⟨rfl, rfl⟩ rfl)
  | ownerHoldExpiry t x =>
    refine h.taken wired (fun k => k.ite fun _ => ?_) e
    exact k.aside (setShutter_aside (x := x.val) rfl rfl)
  | stepTimerExpiry t x =>
    exact h.taken wired (fun k => k.ite fun _ => k.tsu (stepTimerEnds_reach _ _) fun _ k => k.stepTimerEnds wired _) e
  | syncTimeout t => exact h.taken wired (fun k => k.ite fun due => k.syncShort wired due.1) e
  | restTimerExpiry t => exact h.taken wired (fun k => k.ite fun _ => k.restExpires wired) e
  | lineRawChange t l v =>
    simp only [Machine.exec, execLineRawChange] at e
    split at e
    · cases e
      exact (h.aside (arrive_aside t s)).kept wired
    · have pinned := h.aside (setLine_aside l.val { s.line l.val with raw := v } s)
      exact State.Answering.taken wired (s := pinLevel l.val v s) pinned
        (fun k => k.accepted fun k => k.rawChanged wired voiced l.val v) e
  | debounceExpiry t l => exact h.taken wired (fun k => k.ite fun _ => k.debouncedEdge wired voiced _ _) e
  | presencePeriodExpiry t =>
    exact h.taken wired (fun k => k.ite fun _ => k.aside ((withLi_out _ _).trans (handPresence_reach _).out).aside) e
  | txStart t =>
    simp only [Machine.exec, execTxStart] at e
    refine h.taken wired (fun k => ?_) e
    split
    · exact k
    · exact k.aside (beginFrame_out _).aside
  | claimLost t => exact h.taken wired (fun k => k.aside (returnFrame_out _).aside) e
  | txMismatch t => exact h.taken wired (fun k => k.ite fun _ => k.aside (mismatch_out _).aside) e
  | txComplete t =>
    simp only [Machine.exec, execTxComplete] at e
    refine h.taken wired (fun k => ?_) e
    split
    · exact k
    · exact (k.aside (withLi_out _ _).aside).ownFrame wired voiced _
  | profileHeaderRead t tag => exact h.taken wired (fun k => k.ite fun _ => k.aside (withPf_out _ _).aside) e
  | endOfPinReset t =>
    cases e
    have arrived := h.aside (arrive_aside t s)
    exact (arrived.ite fun _ => arrived.aside ((withPf_out _ _).trans (endReset_out _)).aside).kept wired

end

/-! ### The laws that O54 assumes, and those that it claims -/

theorem State.ProfileSound.wired (h : s.ProfileSound) : s.prof.Wired := by
  unfold State.prof
  cases held : s.profile with
  | none => exact Profile.wired_default
  | some q => exact (h q held).wired

theorem State.ProfileSound.voiced (h : s.ProfileSound) : s.prof.Voiced := by
  unfold State.prof
  cases held : s.profile with
  | none => exact Profile.voiced_default
  | some q => exact (h q held).voiced

/-- R103, R104, R105: a context that waits at a step of an effect's script asks for no PIPE output. -/
theorem State.playsScript.plays {c : Context} {timer : Timer} (h : s.playsScript c) (waits : s.waitsAt c timer)
    (sound : s.ProfileSound) : s.prof.plays c := by
  obtain ⟨e, x, i, effect, enters, reaches, held⟩ := h
  have safe : s.prof.safe c.index := fun j onward =>
    sound.voiced.effects x (List.mem_of_getElem? effect) i (enters.imp And.right And.right) j (reaches.trans onward)
  refine ⟨safe, fun _ => ?_, fun o m => ?_⟩
  · rcases waits.2 with ⟨_, found, -⟩ | ⟨_, _, found, -⟩ | ⟨_, _, _, found, -⟩ <;> exact safe.next found (by simp)
  · obtain ⟨w, mw, is⟩ := List.any_eq_true.1 (held o m)
    simp only [Bool.and_eq_true, beq_iff_eq] at is
    exact ⟨.trap, by simp, by rw [sound.wired.windowOf w mw o is.2, Option.map_some, is.1.1]⟩

/-- R44, R45, R51: PA holds what the demand calls; outside READY it holds nothing. -/
theorem State.PipesAnswered.held (h : s.PipesAnswered) (quiet : s.QuietOutsideReady) : s.PipesHeld s.demanded where
  called o pipe := by
    by_cases ready : s.ch.state = .ready
    · exact (h.called ready o pipe).trans (and_iff_right ready).symm
    · have off : s.out o = .off := by unfold State.out; rw [quiet.arbiter ready]; rfl
      exact iff_of_false (fun out => out off) fun called => ready called.1
  strikes := h.strikes
  speech := h.speech
  action := h.action

/-- R104, R139: no script of CH runs in READY or GATHERING. -/
theorem Script.chamberState_apart {sc : Script} {st : ChamberState} (runs : sc.chamberState = some st) :
    st ≠ .ready ∧ st ≠ .gathering := by
  cases sc <;> cases runs <;> decide

theorem State.PipesAnswered.laws (h : s.PipesAnswered) (quiet : s.QuietOutsideReady) (chamber : s.ChamberSound)
    (sound : s.ProfileSound) (effects : s.EffectsSound) (contexts : s.ContextsSound) (bounds : s.WithinBounds) :
    s.PipeLaws s.demanded where
  held := h.held quiet
  bars := h.sets
  shutters x cfg set := by
    obtain ⟨stage, target, -⟩ := bounds.shutters x cfg set
    exact ⟨stage, target⟩
  idle st := by
    cases found : s.runner 0 with
    | none => rfl
    | some c =>
      obtain ⟨ready, gathering⟩ := Script.chamberState_apart (chamber.scripted c found).2
      exact (st.elim ready gathering).elim
  runners r m c found := by
    obtain ⟨low, high⟩ := effectRunners_bounds.1 m
    obtain ⟨plays, _, waits⟩ := contexts.runners r c low high found
    exact plays.plays waits sound
  suspended g c m := by
    obtain ⟨plays, _, waits⟩ := contexts.suspended g c m
    exact plays.plays waits sound
  pending g e waits := by
    obtain ⟨x, effect, -⟩ := effects.pending g e waits
    rw [effect]
    exact Option.some_ne_none x

/-- Until a profile is accepted nothing is in play. -/
theorem State.QuietOutsideReady.bare (h : s.QuietOutsideReady) (chamber : s.ChamberSound) (sets : s.SetsSound)
    (bounds : s.WithinBounds) (loading : s.ch.state = .loading) : s.Bare := by
  have out : s.ch.state ≠ .ready := by rw [loading]; decide
  have unprofiled := chamber.profiled.2 (.inl loading)
  obtain ⟨groups, runners⟩ := h.effects out
  refine ⟨groups, fun r m => ?_, (sets.unprofiled unprofiled).1, fun x => bounds.absent x ?_⟩
  · obtain ⟨low, high⟩ := effectRunners_bounds.1 m
    exact runners r low high
  · unfold State.shutterSet State.prof
    rw [unprofiled]
    rfl

theorem State.Kept.arbiter (h : s.Kept pipes) : s.ArbiterSound := by
  obtain ⟨_, -, answering⟩ := h
  exact State.Arbitrated.arbiter answering

theorem State.Kept.answered (h : s.Kept True) : s.PipesAnswered := by
  obtain ⟨_, -, answering⟩ := h
  obtain ⟨held, bars, -⟩ := State.Arbitrated.laws answering trivial
  exact ⟨fun ready o pipe => (held.called o pipe).trans (and_iff_right ready), held.speech, held.action, held.strikes, bars⟩

end

/-- Settles O54: on an empty queue nothing moves; a command keeps the arbiter's laws whatever else stands, and what links
the demand to them with the other invariants that a step starts from. -/
theorem arbiterLawsAreKept : Obligations.ArbiterLawsAreKept := by
  intro s u quiet arbiter e
  unfold step at e
  split at e
  · cases e
    exact ⟨arbiter, fun _ _ _ _ _ _ answered => answered⟩
  · next c rest _ =>
    have popped : s.aside { s with pending := rest } := .of_blocks rfl rfl rfl ⟨rfl, rfl⟩ ⟨rfl, rfl⟩ rfl
    have cleared : s.ch.state = .loading → s.pa = .cleared := fun loading => quiet.arbiter (by rw [loading]; decide)
    constructor
    · have sound : s.Answering s.prof False := ⟨rfl, arbiter, False.elim⟩
      exact ((sound.aside popped).exec False.elim False.elim (fun loading => ⟨cleared loading, False.elim⟩) c e).arbiter
    · intro chamber profile sets effects contexts bounds answered
      have sound : s.Answering s.prof True :=
        ⟨rfl, arbiter, fun _ => answered.laws quiet chamber profile effects contexts bounds⟩
      refine ((sound.aside popped).exec (fun _ => profile.wired) (fun _ => profile.voiced) (fun loading => ?_) c e).answered
      obtain ⟨groups, runners, sets, shutters⟩ := quiet.bare chamber sets bounds loading
      exact ⟨cleared loading, fun _ => ⟨groups, runners, sets, shutters⟩⟩

end Sys2Proof.Machine
end
